-- ==== Sys2Proof/Word.lean ====
section
/-!
DEFINITION. The word and byte types of the machine (00:R7, 15:R328).
-/

namespace Sys2Proof

/-- A 64-bit scalar register's value. -/
abbrev Word := BitVec 64

/-- One byte of memory. -/
abbrev Byte := BitVec 8

/-- A row latch: 16,384 bits (01:R19). -/
abbrev RowBits := BitVec 16384

/-- A mask register: 2,048 bits (01:R18). -/
abbrev MaskBits := BitVec 2048

/-- A tile: 64 rows of 64 elements of 32 bits (10:R223). -/
abbrev TileBits := BitVec 131072

/-- What a remote command's packet asks of this module (23:R483-R488). -/
inductive PacketKind where
  | write | read | precopy | coll | flag
  deriving DecidableEq, Repr

/-- A packet of a remote command as it arrives at, or leaves for, an export window (23:R483, R484). `ok` says that it
authenticates (23:R481, R490); `poison` lists the bytes that came from poisoned words (23:R490); in an answer, `refused` says that the
target gave BADADDR (23:R484). `node` is where it goes, `src` where it comes from; `cmd` and `unit` tell its command and its place in it from others,
and an answer brings them back (23:R488). -/
structure Packet where
  kind : PacketKind
  node : Nat
  src : Nat
  cmd : Nat
  unit : Nat
  exp : Fin 64
  off : Nat
  len : Nat
  data : List Byte
  tag : Fin 16
  slot : Fin 16
  poison : List Nat
  refused : Bool
  ok : Bool
  deriving DecidableEq, Repr

end Sys2Proof
end

