-- ==== Sys2Proof/Config.lean ====
section
/-!
DEFINITION. What the part fixes and the spec leaves open: values no proof can see. Each is opaque and named in the
assumption log. A value drawn from a counter of the state is a fresh free value each time.
-/

namespace Sys2Proof.Config

/-- TIMING as bring-up left it on this part (04:R94): the spec gives nominal values only, and no result depends on it. -/
opaque timing : BitVec 64

/-- Clocks that passed since the last reading of a time counter (15:R352 CYCLE, 16:R373 STALLn). The model leaves time out, so a
counter's growth is free. -/
opaque elapsed : Nat → BitVec 64

/-- One of two results the binding text allows (00:R5), drawn fresh each time. -/
opaque pick : Nat → Bool

/-- The 64 mask bits that VMOVMS in mode RAW reads where the thread owns no bank under BMASK (09:R215, log 15). -/
opaque rawMask : Nat → BitVec 64

/-- Which line a full crown slice evicts to allocate another: the spec gives no replacement rule (12:R267, R268). -/
opaque victim : Nat → Nat

/-- The SHA-512 digest of an object (22:R472). -/
opaque sha512 : List Byte → BitVec 512

/-- The SHA-384 hash of a public key (22:R473). -/
opaque sha384 : List Byte → BitVec 384

/-- The SHA-256 hash of a code page (22:R475). -/
opaque sha256 : List Byte → BitVec 256

/-- An Ed25519 signature of a digest verifies under a key (22:R472, R473): key, signature, digest. -/
opaque ed25519Ok : List Byte → List Byte → BitVec 512 → Bool

/-- An ML-DSA-65 signature of a digest verifies under a key (22:R472, R473): key, signature, digest. -/
opaque mldsaOk : List Byte → List Byte → BitVec 512 → Bool

/-- AES-256-GCM encryption of a unit under a key-store slot's key (23:R486). -/
opaque encryptUnit : BitVec 256 → List Byte → List Byte

/-- AES-256-GCM decryption of an arriving unit: none when it does not authenticate (23:R481, R486). -/
opaque decryptUnit : BitVec 256 → List Byte → Option (List Byte)

/-- Firmware revision written into save records (20:R443). -/
opaque firmware : BitVec 32

/-- Writes of a column journal that no reader has seen in its contents: the spec does not say which writes its sequence number counts (18:R413). -/
opaque journalWrites : Nat → Nat

/-- What a reset of a bank block leaves in a latch, a tile or a register of `w` bits (24:R495): the spec says that it is lost. -/
opaque lostBits (w : Nat) : Nat → BitVec w

end Sys2Proof.Config
end

