-- ==== Sys2Proof/Syntax.lean ====
section
/-!
DEFINITION. The instructions and steps of the machine: one constructor for each row of spec/opcode_table.json.
Rows with an encoding hold the fields of their format (02:R38, R39), register numbers as `Fin`, immediates as the
bits of the word. Rows without one are the steps the spec describes outside the instruction words (95); their
operands say where the step happens and what the outside world supplies.
-/

namespace Sys2Proof

/-- The instructions and steps of the machine, one constructor per row of the opcode table. -/
inductive Instr where
  | hintCpf (n : BitVec 21)
  | hint (long : Bool) (bits : Word)
  | illegalInstruction (bits : Word)
  | complementPair (i : Instr) (j : Instr)
  | act (k : Fin 16) (t : Fin 16) (r : BitVec 12)
  | actIndexed (k : Fin 16) (t : Fin 16) (x : Fin 32) (i : BitVec 7)
  | wbk (k : Fin 16)
  | pre (k : Fin 16)
  | preD (k : Fin 16)
  | ref (k : Fin 16)
  | refQ (d : Fin 32) (k : Fin 16)
  | rstat (d : Fin 32) (k : Fin 16)
  | rclone (k : Fin 16) (xd : Bool) (rowd : BitVec 12) (xs : Bool) (rows : BitVec 12)
  | rzero (k : Fin 16) (xd : Bool) (rowd : BitVec 12)
  | cld (d : Fin 16) (b : Fin 32) (m : Fin 16)
  | cst (s : Fin 16) (b : Fin 32) (m : Fin 16)
  | vaddVV (d : Fin 16) (a : Fin 16) (b : Fin 16) (m : Fin 16) (cp : Bool)
  | vsubVV (d : Fin 16) (a : Fin 16) (b : Fin 16) (m : Fin 16) (cp : Bool)
  | vmulVV (d : Fin 16) (a : Fin 16) (b : Fin 16) (m : Fin 16) (cp : Bool)
  | vminVV (d : Fin 16) (a : Fin 16) (b : Fin 16) (m : Fin 16) (cp : Bool)
  | vmaxVV (d : Fin 16) (a : Fin 16) (b : Fin 16) (m : Fin 16) (cp : Bool)
  | vabs (d : Fin 16) (a : Fin 16) (m : Fin 16) (cp : Bool)
  | vneg (d : Fin 16) (a : Fin 16) (m : Fin 16) (cp : Bool)
  | vaddSVV (d : Fin 16) (a : Fin 16) (b : Fin 16) (m : Fin 16) (cp : Bool)
  | vsubSVV (d : Fin 16) (a : Fin 16) (b : Fin 16) (m : Fin 16) (cp : Bool)
  | vaddVX (d : Fin 16) (a : Fin 16) (x : Fin 32) (m : Fin 16) (cp : Bool)
  | vsubVX (d : Fin 16) (a : Fin 16) (x : Fin 32) (m : Fin 16) (cp : Bool)
  | vmulVX (d : Fin 16) (a : Fin 16) (x : Fin 32) (m : Fin 16) (cp : Bool)
  | vminVX (d : Fin 16) (a : Fin 16) (x : Fin 32) (m : Fin 16) (cp : Bool)
  | vmaxVX (d : Fin 16) (a : Fin 16) (x : Fin 32) (m : Fin 16) (cp : Bool)
  | vaddSVX (d : Fin 16) (a : Fin 16) (x : Fin 32) (m : Fin 16) (cp : Bool)
  | vsubSVX (d : Fin 16) (a : Fin 16) (x : Fin 32) (m : Fin 16) (cp : Bool)
  | vaddVI (d : Fin 16) (a : Fin 16) (i : BitVec 8) (m : Fin 16) (cp : Bool)
  | vsubVI (d : Fin 16) (a : Fin 16) (i : BitVec 8) (m : Fin 16) (cp : Bool)
  | vrsub (d : Fin 16) (a : Fin 16) (i : BitVec 8) (m : Fin 16) (cp : Bool)
  | vmulVI (d : Fin 16) (a : Fin 16) (i : BitVec 8) (m : Fin 16) (cp : Bool)
  | vminVI (d : Fin 16) (a : Fin 16) (i : BitVec 8) (m : Fin 16) (cp : Bool)
  | vmaxVI (d : Fin 16) (a : Fin 16) (i : BitVec 8) (m : Fin 16) (cp : Bool)
  | vsllVI (d : Fin 16) (a : Fin 16) (i : BitVec 8) (m : Fin 16) (cp : Bool)
  | vsrlVI (d : Fin 16) (a : Fin 16) (i : BitVec 8) (m : Fin 16) (cp : Bool)
  | vsraVI (d : Fin 16) (a : Fin 16) (i : BitVec 8) (m : Fin 16) (cp : Bool)
  | vandVI (d : Fin 16) (a : Fin 16) (i : BitVec 8) (m : Fin 16) (cp : Bool)
  | vorVI (d : Fin 16) (a : Fin 16) (i : BitVec 8) (m : Fin 16) (cp : Bool)
  | vxorVI (d : Fin 16) (a : Fin 16) (i : BitVec 8) (m : Fin 16) (cp : Bool)
  | vfma (d : Fin 16) (a : Fin 16) (b : Fin 16) (c : Fin 16) (rm : Fin 8) (m : Fin 16) (cp : Bool)
  | vfms (d : Fin 16) (a : Fin 16) (b : Fin 16) (c : Fin 16) (rm : Fin 8) (m : Fin 16) (cp : Bool)
  | vfmaX (d : Fin 16) (a : Fin 16) (x : Fin 32) (c : Fin 16) (rm : Fin 8) (m : Fin 16) (cp : Bool)
  | vfmsX (d : Fin 16) (a : Fin 16) (x : Fin 32) (c : Fin 16) (rm : Fin 8) (m : Fin 16) (cp : Bool)
  | vcvt (d : Fin 16) (a : Fin 16) (i : BitVec 8) (rm : Fin 8) (sat : Bool) (m : Fin 16) (cp : Bool)
  | vcvtMX (d : Fin 16) (a : Fin 16) (b : Fin 16) (i : BitVec 8) (rm : Fin 8) (sat : Bool) (m : Fin 16) (cp : Bool)
  | vqntMX (d : Fin 16) (a : Fin 16) (b : Fin 16) (i : BitVec 8) (rm : Fin 8) (sat : Bool) (m : Fin 16) (cp : Bool)
  | vaddRm (d : Fin 16) (a : Fin 16) (b : Fin 16) (rm : Fin 8) (m : Fin 16) (cp : Bool)
  | vsubRm (d : Fin 16) (a : Fin 16) (b : Fin 16) (rm : Fin 8) (m : Fin 16) (cp : Bool)
  | vmulRm (d : Fin 16) (a : Fin 16) (b : Fin 16) (rm : Fin 8) (m : Fin 16) (cp : Bool)
  | vcmpEq (d : Fin 16) (a : Fin 16) (b : Fin 16) (m : Fin 16)
  | vcmpNe (d : Fin 16) (a : Fin 16) (b : Fin 16) (m : Fin 16)
  | vcmpLt (d : Fin 16) (a : Fin 16) (b : Fin 16) (m : Fin 16)
  | vcmpLe (d : Fin 16) (a : Fin 16) (b : Fin 16) (m : Fin 16)
  | vcmpGt (d : Fin 16) (a : Fin 16) (b : Fin 16) (m : Fin 16)
  | vcmpGe (d : Fin 16) (a : Fin 16) (b : Fin 16) (m : Fin 16)
  | vcmpUn (d : Fin 16) (a : Fin 16) (b : Fin 16) (m : Fin 16)
  | vcmpOr (d : Fin 16) (a : Fin 16) (b : Fin 16) (m : Fin 16)
  | vandVV (d : Fin 16) (a : Fin 16) (b : Fin 16) (m : Fin 16) (cp : Bool)
  | vorVV (d : Fin 16) (a : Fin 16) (b : Fin 16) (m : Fin 16) (cp : Bool)
  | vxorVV (d : Fin 16) (a : Fin 16) (b : Fin 16) (m : Fin 16) (cp : Bool)
  | vandn (d : Fin 16) (a : Fin 16) (b : Fin 16) (m : Fin 16) (cp : Bool)
  | vnot (d : Fin 16) (a : Fin 16) (m : Fin 16) (cp : Bool)
  | vsllVV (d : Fin 16) (a : Fin 16) (b : Fin 16) (m : Fin 16) (cp : Bool)
  | vsrlVV (d : Fin 16) (a : Fin 16) (b : Fin 16) (m : Fin 16) (cp : Bool)
  | vsraVV (d : Fin 16) (a : Fin 16) (b : Fin 16) (m : Fin 16) (cp : Bool)
  | vsel (d : Fin 16) (a : Fin 16) (b : Fin 16) (m : Fin 16)
  | setvl (d : Fin 64) (k : Fin 32) (t : Fin 16) (a : Fin 64)
  | vcfg (d : Fin 16) (t : Fin 16)
  | vsplat (d : Fin 16) (a : Fin 64)
  | viota (d : Fin 16) (a : Fin 64)
  | vmovms (d : Fin 64) (o : BitVec 5) (m : Fin 16)
  | vmovsm (a : Fin 64) (m : Fin 16)
  | vdiv (d : Fin 16) (a : Fin 16) (b : Fin 16) (rm : Fin 8) (m : Fin 16)
  | vrem (d : Fin 16) (a : Fin 16) (b : Fin 16) (m : Fin 16)
  | vsqrt (d : Fin 16) (a : Fin 16) (rm : Fin 8) (m : Fin 16)
  | vrsqrte (d : Fin 16) (a : Fin 16) (m : Fin 16)
  | vexp2e (d : Fin 16) (a : Fin 16) (m : Fin 16)
  | vpick (d : Fin 16) (a : Fin 16) (b : Fin 16) (m : Fin 16)
  | vpack (d : Fin 16) (a : Fin 16) (m : Fin 16)
  | vspread (d : Fin 16) (a : Fin 16) (m : Fin 16)
  | vmovup (d : Fin 16) (a : Fin 16) (x : Fin 16) (m : Fin 16)
  | vmovdn (d : Fin 16) (a : Fin 16) (x : Fin 16) (m : Fin 16)
  | vpushlo (d : Fin 16) (a : Fin 16) (x : Fin 16) (m : Fin 16)
  | vpushhi (d : Fin 16) (a : Fin 16) (x : Fin 16) (m : Fin 16)
  | vtotal (d : Fin 16) (a : Fin 16) (m : Fin 16)
  | vtotalSeq (d : Fin 16) (a : Fin 16) (m : Fin 16)
  | vleast (d : Fin 16) (a : Fin 16) (m : Fin 16)
  | vmost (d : Fin 16) (a : Fin 16) (m : Fin 16)
  | vband (d : Fin 16) (a : Fin 16) (m : Fin 16)
  | vbor (d : Fin 16) (a : Fin 16) (m : Fin 16)
  | vbxor (d : Fin 16) (a : Fin 16) (m : Fin 16)
  | vtotalMX (d : Fin 16) (a : Fin 16) (b : Fin 16) (m : Fin 16)
  | mkand (d : Fin 16) (a : Fin 16) (b : Fin 16)
  | mkor (d : Fin 16) (a : Fin 16) (b : Fin 16)
  | mkxor (d : Fin 16) (a : Fin 16) (b : Fin 16)
  | mkandn (d : Fin 16) (a : Fin 16) (b : Fin 16)
  | mknot (d : Fin 16) (a : Fin 16)
  | mkbelow (d : Fin 16) (a : Fin 16)
  | mkupto (d : Fin 16) (a : Fin 16)
  | mkfirst (d : Fin 16) (a : Fin 16)
  | vlut (d : Fin 16) (a : Fin 16) (b : Fin 16) (i : BitVec 8) (m : Fin 16)
  | vhad (d : Fin 16) (a : Fin 16) (i : BitVec 8) (p : Fin 16) (rm : Fin 8) (sat : Bool) (m : Fin 16)
  | vpcfg (d : Fin 16) (a : Fin 16) (b : Fin 16) (sgn : Bool)
  | vpadd (d : Fin 16) (a : Fin 16) (b : Fin 16) (m : Fin 16)
  | vpsub (d : Fin 16) (a : Fin 16) (b : Fin 16) (m : Fin 16)
  | vpmul (d : Fin 16) (a : Fin 16) (b : Fin 16) (m : Fin 16)
  | vpcmpEq (d : Fin 16) (a : Fin 16) (b : Fin 16) (m : Fin 16)
  | vpcmpNe (d : Fin 16) (a : Fin 16) (b : Fin 16) (m : Fin 16)
  | vpcmpLt (d : Fin 16) (a : Fin 16) (b : Fin 16) (m : Fin 16)
  | vpcmpLe (d : Fin 16) (a : Fin 16) (b : Fin 16) (m : Fin 16)
  | vpcmpGt (d : Fin 16) (a : Fin 16) (b : Fin 16) (m : Fin 16)
  | vpcmpGe (d : Fin 16) (a : Fin 16) (b : Fin 16) (m : Fin 16)
  | vpsll (d : Fin 16) (a : Fin 16) (c : Fin 16) (m : Fin 16)
  | vpsrl (d : Fin 16) (a : Fin 16) (c : Fin 16) (m : Fin 16)
  | vpsra (d : Fin 16) (a : Fin 16) (c : Fin 16) (m : Fin 16)
  | vpcnt (d : Fin 16) (a : Fin 16) (m : Fin 16)
  | vtrp (d : Fin 16) (a : Fin 16) (p : Fin 16) (m : Fin 16)
  | vtrw (d : Fin 16) (a : Fin 16) (p : Fin 16) (m : Fin 16)
  | mzero (t : Fin 4)
  | mopa (t : Fin 4) (a : Fin 16) (b : Fin 16) (m : Fin 16) (ck : Bool)
  | mops (t : Fin 4) (a : Fin 16) (b : Fin 16) (m : Fin 16) (ck : Bool)
  | mopaMX (s : Fin 16) (t : Fin 4) (a : Fin 16) (b : Fin 16)
  | mopsMX (s : Fin 16) (t : Fin 4) (a : Fin 16) (b : Fin 16)
  | mld (t : Fin 4) (a : Fin 16) (b : Fin 16)
  | mldP (t : Fin 4) (a : Fin 16) (b : Fin 16)
  | mst (t : Fin 4) (a : Fin 16) (b : Fin 16)
  | mstP (t : Fin 4) (a : Fin 16) (b : Fin 16)
  | mscale (t : Fin 4) (a : Fin 16)
  | mchk (t : Fin 4)
  | pexp (d : Fin 16) (a : Fin 16) (i : BitVec 8) (S : Fin 8) (m : Fin 16)
  | psplit (d : Fin 16) (a : Fin 16) (c : Fin 16) (i : BitVec 8) (S : Fin 8) (m : Fin 16)
  | pmma (tp : Bool) (ti : Fin 4) (a : Fin 16) (b : Fin 16) (c : Fin 16) (e : Fin 16) (S : Fin 8) (full : Bool) (ck : Bool) (m : Fin 16)
  | pfold (tp : Bool) (ti : Fin 4) (c : Fin 16) (e : Fin 16) (i : BitVec 8)
  | grot (d : Fin 16) (a : Fin 16) (n : BitVec 8) (m : Fin 16)
  | gbcast (d : Fin 16) (a : Fin 16) (q : BitVec 8) (m : Fin 16)
  | gperm (d : Fin 16) (a : Fin 16) (x : Fin 32) (m : Fin 16)
  | gxch (d : Fin 16) (a : Fin 16) (n : BitVec 8) (m : Fin 16)
  | gredSum (d : Fin 16) (a : Fin 16) (m : Fin 16)
  | gredMin (d : Fin 16) (a : Fin 16) (m : Fin 16)
  | gredMax (d : Fin 16) (a : Fin 16) (m : Fin 16)
  | gredAnd (d : Fin 16) (a : Fin 16) (m : Fin 16)
  | gredOr (d : Fin 16) (a : Fin 16) (m : Fin 16)
  | gredXor (d : Fin 16) (a : Fin 16) (m : Fin 16)
  | cwb (a : Fin 64) (b : Fin 64)
  | cwbi (a : Fin 64) (b : Fin 64)
  | cinv (a : Fin 64) (b : Fin 64)
  | farLd (d : Fin 16) (x : Fin 32) (off : BitVec 20) (esz : Fin 4) (ord : Fin 4) (sc : Fin 8) (m : Fin 16)
  | farSt (a : Fin 16) (x : Fin 32) (off : BitVec 20) (esz : Fin 4) (ord : Fin 4) (sc : Fin 8) (nr : Bool) (m : Fin 16)
  | farGather (d : Fin 16) (x : Fin 32) (off : BitVec 20) (b : Fin 16) (esz : Fin 4) (ord : Fin 4) (sc : Fin 8) (m : Fin 16)
  | farScatter (a : Fin 16) (x : Fin 32) (off : BitVec 20) (b : Fin 16) (esz : Fin 4) (ord : Fin 4) (sc : Fin 8) (nr : Bool) (m : Fin 16)
  | farScadd (a : Fin 16) (x : Fin 32) (off : BitVec 20) (b : Fin 16) (esz : Fin 4) (ord : Fin 4) (sc : Fin 8) (nr : Bool) (m : Fin 16)
  | farAdd (d : Fin 16) (a : Fin 16) (x : Fin 32) (off : BitVec 20) (b : Fin 16) (esz : Fin 4) (ord : Fin 4) (sc : Fin 8) (nr : Bool) (m : Fin 16)
  | farFadd (d : Fin 16) (a : Fin 16) (x : Fin 32) (off : BitVec 20) (b : Fin 16) (esz : Fin 4) (ord : Fin 4) (sc : Fin 8) (nr : Bool) (m : Fin 16)
  | farMin (d : Fin 16) (a : Fin 16) (x : Fin 32) (off : BitVec 20) (b : Fin 16) (esz : Fin 4) (ord : Fin 4) (sc : Fin 8) (nr : Bool) (m : Fin 16)
  | farMax (d : Fin 16) (a : Fin 16) (x : Fin 32) (off : BitVec 20) (b : Fin 16) (esz : Fin 4) (ord : Fin 4) (sc : Fin 8) (nr : Bool) (m : Fin 16)
  | farMinu (d : Fin 16) (a : Fin 16) (x : Fin 32) (off : BitVec 20) (b : Fin 16) (esz : Fin 4) (ord : Fin 4) (sc : Fin 8) (nr : Bool) (m : Fin 16)
  | farMaxu (d : Fin 16) (a : Fin 16) (x : Fin 32) (off : BitVec 20) (b : Fin 16) (esz : Fin 4) (ord : Fin 4) (sc : Fin 8) (nr : Bool) (m : Fin 16)
  | farAnd (d : Fin 16) (a : Fin 16) (x : Fin 32) (off : BitVec 20) (b : Fin 16) (esz : Fin 4) (ord : Fin 4) (sc : Fin 8) (nr : Bool) (m : Fin 16)
  | farOr (d : Fin 16) (a : Fin 16) (x : Fin 32) (off : BitVec 20) (b : Fin 16) (esz : Fin 4) (ord : Fin 4) (sc : Fin 8) (nr : Bool) (m : Fin 16)
  | farXor (d : Fin 16) (a : Fin 16) (x : Fin 32) (off : BitVec 20) (b : Fin 16) (esz : Fin 4) (ord : Fin 4) (sc : Fin 8) (nr : Bool) (m : Fin 16)
  | farSwap (d : Fin 16) (a : Fin 16) (x : Fin 32) (off : BitVec 20) (b : Fin 16) (esz : Fin 4) (ord : Fin 4) (sc : Fin 8) (nr : Bool) (m : Fin 16)
  | farCas (d : Fin 16) (a : Fin 16) (x : Fin 32) (off : BitVec 20) (b : Fin 16) (esz : Fin 4) (ord : Fin 4) (sc : Fin 8) (nr : Bool) (m : Fin 16)
  | add (d : Fin 64) (a : Fin 64) (b : Fin 64)
  | sub (d : Fin 64) (a : Fin 64) (b : Fin 64)
  | and (d : Fin 64) (a : Fin 64) (b : Fin 64)
  | or (d : Fin 64) (a : Fin 64) (b : Fin 64)
  | xor (d : Fin 64) (a : Fin 64) (b : Fin 64)
  | andn (d : Fin 64) (a : Fin 64) (b : Fin 64)
  | sll (d : Fin 64) (a : Fin 64) (b : Fin 64)
  | srl (d : Fin 64) (a : Fin 64) (b : Fin 64)
  | sra (d : Fin 64) (a : Fin 64) (b : Fin 64)
  | ror (d : Fin 64) (a : Fin 64) (b : Fin 64)
  | min (d : Fin 64) (a : Fin 64) (b : Fin 64)
  | max (d : Fin 64) (a : Fin 64) (b : Fin 64)
  | minu (d : Fin 64) (a : Fin 64) (b : Fin 64)
  | maxu (d : Fin 64) (a : Fin 64) (b : Fin 64)
  | seq (d : Fin 64) (a : Fin 64) (b : Fin 64)
  | sne (d : Fin 64) (a : Fin 64) (b : Fin 64)
  | slt (d : Fin 64) (a : Fin 64) (b : Fin 64)
  | sltu (d : Fin 64) (a : Fin 64) (b : Fin 64)
  | sge (d : Fin 64) (a : Fin 64) (b : Fin 64)
  | sgeu (d : Fin 64) (a : Fin 64) (b : Fin 64)
  | addi (d : Fin 64) (a : Fin 64) (i : BitVec 10)
  | andi (d : Fin 64) (a : Fin 64) (i : BitVec 10)
  | ori (d : Fin 64) (a : Fin 64) (i : BitVec 10)
  | xori (d : Fin 64) (a : Fin 64) (i : BitVec 10)
  | slli (d : Fin 64) (a : Fin 64) (i : BitVec 6)
  | srli (d : Fin 64) (a : Fin 64) (i : BitVec 6)
  | srai (d : Fin 64) (a : Fin 64) (i : BitVec 6)
  | slti (d : Fin 64) (a : Fin 64) (i : BitVec 10)
  | li (d : Fin 64) (imm : BitVec 32)
  | liu (d : Fin 64) (imm : BitVec 32)
  | lih (d : Fin 64) (imm : BitVec 32)
  | addil (d : Fin 64) (imm : BitVec 32)
  | lea (d : Fin 64) (i : BitVec 19)
  | mul (d : Fin 64) (a : Fin 64) (b : Fin 64)
  | mulh (d : Fin 64) (a : Fin 64) (b : Fin 64)
  | mulhu (d : Fin 64) (a : Fin 64) (b : Fin 64)
  | div (d : Fin 64) (a : Fin 64) (b : Fin 64)
  | divu (d : Fin 64) (a : Fin 64) (b : Fin 64)
  | rem (d : Fin 64) (a : Fin 64) (b : Fin 64)
  | remu (d : Fin 64) (a : Fin 64) (b : Fin 64)
  | clz (d : Fin 64) (a : Fin 64)
  | ctz (d : Fin 64) (a : Fin 64)
  | popc (d : Fin 64) (a : Fin 64)
  | lb (d : Fin 64) (a : Fin 64) (i : BitVec 10)
  | lh (d : Fin 64) (a : Fin 64) (i : BitVec 10)
  | lw (d : Fin 64) (a : Fin 64) (i : BitVec 10)
  | ld (d : Fin 64) (a : Fin 64) (i : BitVec 10)
  | lbu (d : Fin 64) (a : Fin 64) (i : BitVec 10)
  | lhu (d : Fin 64) (a : Fin 64) (i : BitVec 10)
  | lwu (d : Fin 64) (a : Fin 64) (i : BitVec 10)
  | sb (s : Fin 64) (a : Fin 64) (i : BitVec 10)
  | sh (s : Fin 64) (a : Fin 64) (i : BitVec 10)
  | sw (s : Fin 64) (a : Fin 64) (i : BitVec 10)
  | sd (s : Fin 64) (a : Fin 64) (i : BitVec 10)
  | acqld (d : Fin 64) (a : Fin 64) (p : Fin 8)
  | relst (a : Fin 64) (b : Fin 64) (p : Fin 8)
  | rmwAdd (d : Fin 64) (a : Fin 64) (b : Fin 64) (p : Fin 8)
  | rmwSwap (d : Fin 64) (a : Fin 64) (b : Fin 64) (p : Fin 8)
  | rmwCas (d : Fin 64) (a : Fin 64) (b : Fin 64) (p : Fin 8)
  | rmwAnd (d : Fin 64) (a : Fin 64) (b : Fin 64) (p : Fin 8)
  | rmwOr (d : Fin 64) (a : Fin 64) (b : Fin 64) (p : Fin 8)
  | rmwXor (d : Fin 64) (a : Fin 64) (b : Fin 64) (p : Fin 8)
  | rmwMin (d : Fin 64) (a : Fin 64) (b : Fin 64) (p : Fin 8)
  | rmwMax (d : Fin 64) (a : Fin 64) (b : Fin 64) (p : Fin 8)
  | rmwMinu (d : Fin 64) (a : Fin 64) (b : Fin 64) (p : Fin 8)
  | rmwMaxu (d : Fin 64) (a : Fin 64) (b : Fin 64) (p : Fin 8)
  | beq (a : Fin 64) (b : Fin 64) (o : BitVec 10)
  | bne (a : Fin 64) (b : Fin 64) (o : BitVec 10)
  | blt (a : Fin 64) (b : Fin 64) (o : BitVec 10)
  | bge (a : Fin 64) (b : Fin 64) (o : BitVec 10)
  | bltu (a : Fin 64) (b : Fin 64) (o : BitVec 10)
  | bgeu (a : Fin 64) (b : Fin 64) (o : BitVec 10)
  | jmp (d : Fin 64) (o : BitVec 19)
  | jreg (d : Fin 64) (a : Fin 64) (i : BitVec 10)
  | loop (c : Fin 64) (o : BitVec 19)
  | crr (d : Fin 64) (r : BitVec 12)
  | crw (d : Fin 64) (a : Fin 64) (r : BitVec 12)
  | wait (d : Fin 64) (a : Fin 64) (b : Fin 64)
  | pause (a : Fin 64)
  | trap (a : Fin 64)
  | fence (s : Fin 8)
  | launch (d : Fin 64) (a : Fin 64)
  | split (a : Fin 64)
  | vfetch (a : Fin 64) (b : Fin 64)
  | tlbiVA (a : Fin 64) (b : Fin 64)
  | tlbiAS (a : Fin 64)
  | wayset (d : Fin 64) (a : Fin 64)
  | qpush (a : Fin 64) (q : Bool)
  | qpop (d : Fin 64) (q : Bool)
  | qpopNB (d : Fin 64) (q : Bool)
  | qstat (d : Fin 64) (q : Bool)
  | sfaddF32 (d : Fin 64) (a : Fin 64) (b : Fin 64)
  | sfsubF32 (d : Fin 64) (a : Fin 64) (b : Fin 64)
  | sfmulF32 (d : Fin 64) (a : Fin 64) (b : Fin 64)
  | sfdivF32 (d : Fin 64) (a : Fin 64) (b : Fin 64)
  | sfsqrtF32 (d : Fin 64) (a : Fin 64)
  | sfminF32 (d : Fin 64) (a : Fin 64) (b : Fin 64)
  | sfmaxF32 (d : Fin 64) (a : Fin 64) (b : Fin 64)
  | sfcmpEqF32 (d : Fin 64) (a : Fin 64) (b : Fin 64)
  | sfcmpLtF32 (d : Fin 64) (a : Fin 64) (b : Fin 64)
  | sfcmpLeF32 (d : Fin 64) (a : Fin 64) (b : Fin 64)
  | sfcvtF32I64 (d : Fin 64) (a : Fin 64)
  | sfcvtI64F32 (d : Fin 64) (a : Fin 64)
  | sfcvtF32F64 (d : Fin 64) (a : Fin 64)
  | sfcvtF64F32 (d : Fin 64) (a : Fin 64)
  | sfaddF64 (d : Fin 64) (a : Fin 64) (b : Fin 64)
  | sfsubF64 (d : Fin 64) (a : Fin 64) (b : Fin 64)
  | sfmulF64 (d : Fin 64) (a : Fin 64) (b : Fin 64)
  | sfdivF64 (d : Fin 64) (a : Fin 64) (b : Fin 64)
  | sfsqrtF64 (d : Fin 64) (a : Fin 64)
  | sfminF64 (d : Fin 64) (a : Fin 64) (b : Fin 64)
  | sfmaxF64 (d : Fin 64) (a : Fin 64) (b : Fin 64)
  | sfcmpEqF64 (d : Fin 64) (a : Fin 64) (b : Fin 64)
  | sfcmpLtF64 (d : Fin 64) (a : Fin 64) (b : Fin 64)
  | sfcmpLeF64 (d : Fin 64) (a : Fin 64) (b : Fin 64)
  | sfcvtF64I64 (d : Fin 64) (a : Fin 64)
  | sfcvtI64F64 (d : Fin 64) (a : Fin 64)
  | endTask
  | eret
  | uiret
  | halt
  | fenceSv
  | fenceVs
  | bsync
  | barb
  | join
  | tlbiAll
  | nop
  | hintBt
  | hintBn
  | prea
  | fenceArray
  | fenceArrayW
  | cwball
  | cwbiall
  | registerWrite (win : Bool) (addr : Nat) (v : Word)
  | flagsRead (d : Fin 64)
  | flagsWrite (v : Word)
  | srseedWrite (v : Word)
  | rmodeWrite (v : Word)
  | vlcfgWrite (v : Word)
  | bpartWrite (v : Word)
  | vstartWrite (v : Word)
  | vmodeWrite (v : Word)
  | trapstatWrite (v : Word)
  | trappcWrite (v : Word)
  | uistatWrite (v : Word)
  | waitReread (st : Fin 32) (th : Fin 40)
  | waitLimitExpiry (st : Fin 32) (th : Fin 40)
  | pauseExpiry (st : Fin 32) (th : Fin 40)
  | bankThreadTrap (st : Fin 32) (th : Fin 40)
  | latchValid (st : Fin 32) (bk : Fin 256) (k : Fin 16)
  | writeBackCommit (st : Fin 32) (bk : Fin 256) (k : Fin 16)
  | arrayDemand (st : Fin 32) (bk : Fin 256) (k : Fin 16)
  | crownLineEviction (st : Fin 32) (bk : Fin 256) (line : Nat)
  | farElementApply (n : Nat)
  | farAcknowledgement (n : Nat)
  | copy (st : Fin 32) (q : Fin 64)
  | copyNode (st : Fin 32) (q : Fin 64)
  | precopy (st : Fin 32) (q : Fin 64)
  | coll (st : Fin 32) (q : Fin 64)
  | rungel (st : Fin 32) (q : Fin 64)
  | waitnzTimeout (st : Fin 32) (q : Fin 64)
  | waitcw (st : Fin 32) (q : Fin 64)
  | waitcwReread (st : Fin 32) (q : Fin 64)
  | waitcwTimeout (st : Fin 32) (q : Fin 64)
  | engineCommandCompletion (st : Fin 32) (q : Fin 64)
  | completionInterrupt (st : Fin 32) (th : Fin 40)
  | remotePacketArrival (p : Packet)
  | collFlagRelease (n : Nat)
  | remoteAcknowledgement (st : Fin 32) (q : Fin 64) (data : List Byte) (auth : Bool) (refused : Bool) (poison : List Nat)
  | linkTimeout (st : Fin 32) (q : Fin 64)
  | portFailure (port : Nat)
  | hostAccess (write : Bool) (pa : Nat) (len : Fin 4) (v : Word)
  | tailWrite (st : Fin 32) (q : Fin 16) (v : Word)
  | hostQueueEntryRead (st : Fin 32) (q : Fin 16)
  | launchExpansion (st : Fin 32)
  | depwordRead (st : Fin 32) (n : Nat)
  | schedulerPlacement (st : Fin 32) (th : Fin 40)
  | softlimExpiry (st : Fin 32) (th : Fin 40)
  | hardPreemption (st : Fin 32) (th : Fin 40)
  | preemptionDeferralExpiry (st : Fin 32) (th : Fin 40)
  | gangStartAttempt (st : Fin 32) (n : Nat)
  | gangStart (st : Fin 32) (n : Nat)
  | gangStartAbandoned (st : Fin 32) (n : Nat)
  | gangResume (st : Fin 32) (g : BitVec 48)
  | gangDiscard (st : Fin 32) (g : BitVec 48)
  | bindingRequest (st : Fin 32) (v : Word)
  | unbindingRequest (st : Fin 32) (v : Word)
  | parkWrite (st : Fin 32) (v : Word)
  | retirementRequest (st : Fin 32) (v : Word)
  | pwrctlWrite (st : Fin 32) (v : Word)
  | columnVote (st : Fin 32) (col : Fin 6) (dissent : Bool)
  | resyncComplete (st : Fin 32) (col : Fin 6)
  | pageWalk (st : Fin 32) (th : Fin 40) (va : Word)
  | retentionTick (st : Fin 32) (bk : Fin 256)
  | retentionDeadline (st : Fin 32) (th : Fin 40) (bk : Fin 256) (k : Fin 16)
  | forcedRefresh (st : Fin 32) (bk : Fin 256) (k : Fin 16)
  | backgroundRefresh (st : Fin 32) (bk : Fin 256) (k : Fin 16)
  | rowRepair (st : Fin 32) (bk : Fin 256) (k : Fin 16) (row : BitVec 12)
  | laneQuarantine (st : Fin 32) (bk : Fin 256)
  | bankRetirement (st : Fin 32) (bk : Fin 256) (arr : Bool)
  | bankCopyComplete (st : Fin 32) (bk : Fin 256)
  | uncorrectableError (st : Fin 32) (th : Fin 40) (bank : BitVec 8) (unit : BitVec 8)
  | frontEndFailure (st : Fin 32) (fe : Fin 20)
  | objectSubmission (root : Word) (base : Word) (obj : List Byte)
  | gelInstall (st : Fin 32) (slot : Fin 64) (list : List Byte)
  | keyset (slot : Fin 16) (key : BitVec 256)
  | fuseadv
  | colreset (st : Fin 32) (col : Fin 6)
  | blkreset (st : Fin 32) (bk : Fin 256)
  | maincycle
  | tamperAlarm
  | glitchAlarm
  | overTemperatureAlarm
  | powerMeasurement (st : Fin 32) (watts : Nat) (hot : Bool)
  | coolantFault
  | powerOn
  | bringupPhaseComplete (failed : BitVec 32)
  | repairCopyComplete (st : Fin 32) (bk : Fin 256) (k : Fin 16) (row : BitVec 12)
  deriving DecidableEq, Repr

end Sys2Proof
end

