-- ==== Sys2Proof/WellFormed.lean ====
section
/-!
DEFINITION. Which instruction terms an instruction word can hold (02:R40, R41 and each instruction's illegal fields).
The decoder answers only well-formed terms.
-/

namespace Sys2Proof

/-- Scope values 0-4 (02:R40). -/
def scopeOk (p : Fin 8) : Bool := decide (p.val ≤ 4)

/-- LOOP's off19, signed, is at least 2 (15:R345). -/
def loopOffOk (o : BitVec 19) : Bool := decide (2 ≤ o.toInt)

/-- The assigned control-register numbers (15:R350). -/
def cregAssigned (r : BitVec 12) : Bool :=
  let n := r.toNat
  decide (n ≤ 0x00A) || decide (0x010 ≤ n ∧ n ≤ 0x017) || decide (n = 0x020 ∨ n = 0x021) ||
  decide (0x030 ≤ n ∧ n ≤ 0x035) || decide (n = 0x040 ∨ n = 0x041) || decide (0x080 ≤ n ∧ n ≤ 0x085) ||
  decide (0x100 ≤ n ∧ n ≤ 0x13F)

/-- ti does not lie in the pair tp (11:R247). -/
def tileOutside (ti : Fin 4) (tp : Bool) : Bool := decide (ti.val / 2 ≠ (if tp then 1 else 0))

/-- ord and scope of a far load (`rel` = 1) or store (`rel` = 2) (13:R291). -/
def farOrdOk (ord : Fin 4) (sc : Fin 8) (rel : Nat) : Bool :=
  if ord.val = 0 then decide (sc.val = 0) else decide (ord.val = rel ∧ sc.val ≤ 4)

/-- ord and scope of a far atomic (13:R291). -/
def atomOrdOk (ord : Fin 4) (sc : Fin 8) (nr : Bool) : Bool :=
  decide (sc.val ≤ 4) && (!nr || decide (ord.val = 0 ∨ ord.val = 2))

/-- esz of a far atomic: 2 or 3, and 2 for FAR.FADD (13:R291). -/
def atomEszOk (esz : Fin 4) (fadd : Bool) : Bool :=
  if fadd then decide (esz.val = 2) else decide (2 ≤ esz.val)

/-- A CMAINT range form with ra = rb ≠ 0 is illegal (13:R301). -/
def rangeRegsOk (a b : Fin 64) : Bool := decide (¬ (a = b ∧ a ≠ 0))

/-- The hint majors 0x19-0x1F and 0x70-0x7E (02:R45). -/
def hintMajor (m : Nat) : Bool := decide (0x19 ≤ m ∧ m ≤ 0x1F) || decide (0x70 ≤ m ∧ m ≤ 0x7E)

/-- The words of major 0x70 that have a row of their own (17:R395). -/
def namedHint (w : Nat) : Bool :=
  decide (w = 0x70) || decide (w = 0x200000F0) || decide (w = 0x20000070) ||
  decide (w % 128 = 0x70 ∧ w / 2 ^ 28 = 1 ∧ w / 2 ^ 7 % 2 ^ 21 ≠ 0)

/-- Any other word with a hint major (02:R48), of its major's length. -/
def hintOk (long : Bool) (bits : Word) : Bool :=
  let w := bits.toNat
  hintMajor (w % 128) && decide (long = decide (w % 4 = 3)) && (long || decide (w < 2 ^ 32)) &&
  !(!long && namedHint w)

/-- The cp bit and the m field of an instruction of the five majors of 02:R41. -/
def Instr.cpFields : Instr → Option (Bool × Fin 16)
  | .vaddVV _ _ _ m cp => some (cp, m)
  | .vsubVV _ _ _ m cp => some (cp, m)
  | .vmulVV _ _ _ m cp => some (cp, m)
  | .vminVV _ _ _ m cp => some (cp, m)
  | .vmaxVV _ _ _ m cp => some (cp, m)
  | .vabs _ _ m cp => some (cp, m)
  | .vneg _ _ m cp => some (cp, m)
  | .vaddSVV _ _ _ m cp => some (cp, m)
  | .vsubSVV _ _ _ m cp => some (cp, m)
  | .vaddVX _ _ _ m cp => some (cp, m)
  | .vsubVX _ _ _ m cp => some (cp, m)
  | .vmulVX _ _ _ m cp => some (cp, m)
  | .vminVX _ _ _ m cp => some (cp, m)
  | .vmaxVX _ _ _ m cp => some (cp, m)
  | .vaddSVX _ _ _ m cp => some (cp, m)
  | .vsubSVX _ _ _ m cp => some (cp, m)
  | .vaddVI _ _ _ m cp => some (cp, m)
  | .vsubVI _ _ _ m cp => some (cp, m)
  | .vrsub _ _ _ m cp => some (cp, m)
  | .vmulVI _ _ _ m cp => some (cp, m)
  | .vminVI _ _ _ m cp => some (cp, m)
  | .vmaxVI _ _ _ m cp => some (cp, m)
  | .vsllVI _ _ _ m cp => some (cp, m)
  | .vsrlVI _ _ _ m cp => some (cp, m)
  | .vsraVI _ _ _ m cp => some (cp, m)
  | .vandVI _ _ _ m cp => some (cp, m)
  | .vorVI _ _ _ m cp => some (cp, m)
  | .vxorVI _ _ _ m cp => some (cp, m)
  | .vfma _ _ _ _ _ m cp => some (cp, m)
  | .vfms _ _ _ _ _ m cp => some (cp, m)
  | .vfmaX _ _ _ _ _ m cp => some (cp, m)
  | .vfmsX _ _ _ _ _ m cp => some (cp, m)
  | .vcvt _ _ _ _ _ m cp => some (cp, m)
  | .vcvtMX _ _ _ _ _ _ m cp => some (cp, m)
  | .vqntMX _ _ _ _ _ _ m cp => some (cp, m)
  | .vaddRm _ _ _ _ m cp => some (cp, m)
  | .vsubRm _ _ _ _ m cp => some (cp, m)
  | .vmulRm _ _ _ _ m cp => some (cp, m)
  | .vandVV _ _ _ m cp => some (cp, m)
  | .vorVV _ _ _ m cp => some (cp, m)
  | .vxorVV _ _ _ m cp => some (cp, m)
  | .vandn _ _ _ m cp => some (cp, m)
  | .vnot _ _ m cp => some (cp, m)
  | .vsllVV _ _ _ m cp => some (cp, m)
  | .vsrlVV _ _ _ m cp => some (cp, m)
  | .vsraVV _ _ _ m cp => some (cp, m)
  | .vsel _ _ _ m => some (false, m)
  | _ => none

/-- The conditions of 02:R41 under which I and J form one instruction. -/
def pairOk (i j : Instr) : Bool :=
  match i.cpFields, j.cpFields with
  | some (ci, mi), some (cj, mj) => ci && !cj && decide (mj = 0) && decide (mi ≠ 0)
  | _, _ => false

/-- The range checks of one instruction's own fields; of a complement pair, those of 02:R41. -/
def Instr.fieldsOk : Instr → Bool
  | .hintCpf n => decide (n ≠ 0)
  | .hint long bits => hintOk long bits
  | .illegalInstruction _ => true
  | .complementPair i j => pairOk i j
  | .act _ _ _ => true
  | .actIndexed _ _ _ _ => true
  | .wbk _ => true
  | .pre _ => true
  | .preD _ => true
  | .ref _ => true
  | .refQ _ _ => true
  | .rstat _ _ => true
  | .rclone _ _ _ _ _ => true
  | .rzero _ _ _ => true
  | .cld _ _ _ => true
  | .cst _ _ _ => true
  | .vaddVV _ _ _ _ _ => true
  | .vsubVV _ _ _ _ _ => true
  | .vmulVV _ _ _ _ _ => true
  | .vminVV _ _ _ _ _ => true
  | .vmaxVV _ _ _ _ _ => true
  | .vabs _ _ _ _ => true
  | .vneg _ _ _ _ => true
  | .vaddSVV _ _ _ _ _ => true
  | .vsubSVV _ _ _ _ _ => true
  | .vaddVX _ _ _ _ _ => true
  | .vsubVX _ _ _ _ _ => true
  | .vmulVX _ _ _ _ _ => true
  | .vminVX _ _ _ _ _ => true
  | .vmaxVX _ _ _ _ _ => true
  | .vaddSVX _ _ _ _ _ => true
  | .vsubSVX _ _ _ _ _ => true
  | .vaddVI _ _ _ _ _ => true
  | .vsubVI _ _ _ _ _ => true
  | .vrsub _ _ _ _ _ => true
  | .vmulVI _ _ _ _ _ => true
  | .vminVI _ _ _ _ _ => true
  | .vmaxVI _ _ _ _ _ => true
  | .vsllVI _ _ _ _ _ => true
  | .vsrlVI _ _ _ _ _ => true
  | .vsraVI _ _ _ _ _ => true
  | .vandVI _ _ _ _ _ => true
  | .vorVI _ _ _ _ _ => true
  | .vxorVI _ _ _ _ _ => true
  | .vfma _ _ _ _ rm _ _ => decide (rm.val ≤ 5)
  | .vfms _ _ _ _ rm _ _ => decide (rm.val ≤ 5)
  | .vfmaX _ _ _ _ rm _ _ => decide (rm.val ≤ 5)
  | .vfmsX _ _ _ _ rm _ _ => decide (rm.val ≤ 5)
  | .vcvt _ _ i rm _ _ _ => decide (rm.val ≤ 5) && decide (i.toNat < 16)
  | .vcvtMX _ _ _ i rm _ _ _ => decide (rm.val ≤ 5) && decide (i.toNat < 16)
  | .vqntMX _ _ _ i rm _ _ _ => decide (rm.val ≤ 5) && decide (i.toNat < 16)
  | .vaddRm _ _ _ rm _ _ => decide (rm.val ≤ 5)
  | .vsubRm _ _ _ rm _ _ => decide (rm.val ≤ 5)
  | .vmulRm _ _ _ rm _ _ => decide (rm.val ≤ 5)
  | .vcmpEq _ _ _ _ => true
  | .vcmpNe _ _ _ _ => true
  | .vcmpLt _ _ _ _ => true
  | .vcmpLe _ _ _ _ => true
  | .vcmpGt _ _ _ _ => true
  | .vcmpGe _ _ _ _ => true
  | .vcmpUn _ _ _ _ => true
  | .vcmpOr _ _ _ _ => true
  | .vandVV _ _ _ _ _ => true
  | .vorVV _ _ _ _ _ => true
  | .vxorVV _ _ _ _ _ => true
  | .vandn _ _ _ _ _ => true
  | .vnot _ _ _ _ => true
  | .vsllVV _ _ _ _ _ => true
  | .vsrlVV _ _ _ _ _ => true
  | .vsraVV _ _ _ _ _ => true
  | .vsel _ _ _ _ => true
  | .setvl _ k _ _ => decide (k.val ≤ 11)
  | .vcfg _ _ => true
  | .vsplat _ _ => true
  | .viota _ _ => true
  | .vmovms _ o _ => decide (o.toNat ≤ 4)
  | .vmovsm _ _ => true
  | .vdiv _ _ _ rm _ => decide (rm.val ≤ 5)
  | .vrem _ _ _ _ => true
  | .vsqrt _ _ rm _ => decide (rm.val ≤ 5)
  | .vrsqrte _ _ _ => true
  | .vexp2e _ _ _ => true
  | .vpick _ _ _ _ => true
  | .vpack _ _ _ => true
  | .vspread _ _ _ => true
  | .vmovup _ _ _ _ => true
  | .vmovdn _ _ _ _ => true
  | .vpushlo _ _ _ _ => true
  | .vpushhi _ _ _ _ => true
  | .vtotal _ _ _ => true
  | .vtotalSeq d a _ => decide (d ≠ a)
  | .vleast _ _ _ => true
  | .vmost _ _ _ => true
  | .vband _ _ _ => true
  | .vbor _ _ _ => true
  | .vbxor _ _ _ => true
  | .vtotalMX _ _ _ _ => true
  | .mkand _ _ _ => true
  | .mkor _ _ _ => true
  | .mkxor _ _ _ => true
  | .mkandn _ _ _ => true
  | .mknot _ _ => true
  | .mkbelow _ _ => true
  | .mkupto _ _ => true
  | .mkfirst _ _ => true
  | .vlut _ _ _ i _ => decide (i.toNat < 16)
  | .vhad _ _ _ _ rm _ _ => decide (rm.val ≤ 5)
  | .vpcfg _ _ _ _ => true
  | .vpadd _ _ _ _ => true
  | .vpsub _ _ _ _ => true
  | .vpmul _ _ _ _ => true
  | .vpcmpEq _ _ _ _ => true
  | .vpcmpNe _ _ _ _ => true
  | .vpcmpLt _ _ _ _ => true
  | .vpcmpLe _ _ _ _ => true
  | .vpcmpGt _ _ _ _ => true
  | .vpcmpGe _ _ _ _ => true
  | .vpsll _ _ _ _ => true
  | .vpsrl _ _ _ _ => true
  | .vpsra _ _ _ _ => true
  | .vpcnt _ _ _ => true
  | .vtrp _ _ _ _ => true
  | .vtrw _ _ _ _ => true
  | .mzero _ => true
  | .mopa _ _ _ _ _ => true
  | .mops _ _ _ _ _ => true
  | .mopaMX _ _ _ _ => true
  | .mopsMX _ _ _ _ => true
  | .mld _ _ b => decide (b.val ≤ 7)
  | .mldP t _ _ => decide (t.val % 2 = 0)
  | .mst _ _ b => decide (b.val ≤ 7)
  | .mstP t _ _ => decide (t.val % 2 = 0)
  | .mscale _ _ => true
  | .mchk _ => true
  | .pexp _ _ i S _ => decide (i.toNat < 2) && decide (S.val ≠ 0)
  | .psplit _ _ _ i S _ => decide (i.toNat < 8) && decide (S.val ≠ 0)
  | .pmma tp ti _ _ _ _ S _ _ _ => tileOutside ti tp && decide (S.val ≠ 0)
  | .pfold tp ti _ _ i => decide (i.toNat ≤ 12) && tileOutside ti tp
  | .grot _ _ _ _ => true
  | .gbcast _ _ _ _ => true
  | .gperm _ _ _ _ => true
  | .gxch _ _ n _ => decide (1 ≤ n.toNat ∧ n.toNat ≤ 63)
  | .gredSum _ _ _ => true
  | .gredMin _ _ _ => true
  | .gredMax _ _ _ => true
  | .gredAnd _ _ _ => true
  | .gredOr _ _ _ => true
  | .gredXor _ _ _ => true
  | .cwb a b => rangeRegsOk a b
  | .cwbi a b => rangeRegsOk a b
  | .cinv a b => rangeRegsOk a b
  | .farLd _ _ _ _ ord sc _ => farOrdOk ord sc 1
  | .farSt _ _ _ _ ord sc _ _ => farOrdOk ord sc 2
  | .farGather _ _ _ _ _ ord sc _ => farOrdOk ord sc 1
  | .farScatter _ _ _ _ _ ord sc _ _ => farOrdOk ord sc 2
  | .farScadd _ _ _ _ _ ord sc _ _ => farOrdOk ord sc 2
  | .farAdd d _ _ _ _ esz ord sc nr _ => atomOrdOk ord sc nr && atomEszOk esz false && decide (nr = true → d = 0)
  | .farFadd d _ _ _ _ esz ord sc nr _ => atomOrdOk ord sc nr && atomEszOk esz true && decide (nr = true → d = 0)
  | .farMin d _ _ _ _ esz ord sc nr _ => atomOrdOk ord sc nr && atomEszOk esz false && decide (nr = true → d = 0)
  | .farMax d _ _ _ _ esz ord sc nr _ => atomOrdOk ord sc nr && atomEszOk esz false && decide (nr = true → d = 0)
  | .farMinu d _ _ _ _ esz ord sc nr _ => atomOrdOk ord sc nr && atomEszOk esz false && decide (nr = true → d = 0)
  | .farMaxu d _ _ _ _ esz ord sc nr _ => atomOrdOk ord sc nr && atomEszOk esz false && decide (nr = true → d = 0)
  | .farAnd d _ _ _ _ esz ord sc nr _ => atomOrdOk ord sc nr && atomEszOk esz false && decide (nr = true → d = 0)
  | .farOr d _ _ _ _ esz ord sc nr _ => atomOrdOk ord sc nr && atomEszOk esz false && decide (nr = true → d = 0)
  | .farXor d _ _ _ _ esz ord sc nr _ => atomOrdOk ord sc nr && atomEszOk esz false && decide (nr = true → d = 0)
  | .farSwap d _ _ _ _ esz ord sc nr _ => atomOrdOk ord sc nr && atomEszOk esz false && decide (nr = true → d = 0)
  | .farCas _ _ _ _ _ esz ord sc nr _ => atomOrdOk ord sc nr && atomEszOk esz false
  | .add _ _ _ => true
  | .sub _ _ _ => true
  | .and _ _ _ => true
  | .or _ _ _ => true
  | .xor _ _ _ => true
  | .andn _ _ _ => true
  | .sll _ _ _ => true
  | .srl _ _ _ => true
  | .sra _ _ _ => true
  | .ror _ _ _ => true
  | .min _ _ _ => true
  | .max _ _ _ => true
  | .minu _ _ _ => true
  | .maxu _ _ _ => true
  | .seq _ _ _ => true
  | .sne _ _ _ => true
  | .slt _ _ _ => true
  | .sltu _ _ _ => true
  | .sge _ _ _ => true
  | .sgeu _ _ _ => true
  | .addi _ _ _ => true
  | .andi _ _ _ => true
  | .ori _ _ _ => true
  | .xori _ _ _ => true
  | .slli _ _ _ => true
  | .srli _ _ _ => true
  | .srai _ _ _ => true
  | .slti _ _ _ => true
  | .li _ _ => true
  | .liu _ _ => true
  | .lih _ _ => true
  | .addil _ _ => true
  | .lea _ _ => true
  | .mul _ _ _ => true
  | .mulh _ _ _ => true
  | .mulhu _ _ _ => true
  | .div _ _ _ => true
  | .divu _ _ _ => true
  | .rem _ _ _ => true
  | .remu _ _ _ => true
  | .clz _ _ => true
  | .ctz _ _ => true
  | .popc _ _ => true
  | .lb _ _ _ => true
  | .lh _ _ _ => true
  | .lw _ _ _ => true
  | .ld _ _ _ => true
  | .lbu _ _ _ => true
  | .lhu _ _ _ => true
  | .lwu _ _ _ => true
  | .sb _ _ _ => true
  | .sh _ _ _ => true
  | .sw _ _ _ => true
  | .sd _ _ _ => true
  | .acqld _ _ p => scopeOk p
  | .relst _ _ p => scopeOk p
  | .rmwAdd _ _ _ p => scopeOk p
  | .rmwSwap _ _ _ p => scopeOk p
  | .rmwCas _ _ _ p => scopeOk p
  | .rmwAnd _ _ _ p => scopeOk p
  | .rmwOr _ _ _ p => scopeOk p
  | .rmwXor _ _ _ p => scopeOk p
  | .rmwMin _ _ _ p => scopeOk p
  | .rmwMax _ _ _ p => scopeOk p
  | .rmwMinu _ _ _ p => scopeOk p
  | .rmwMaxu _ _ _ p => scopeOk p
  | .beq _ _ _ => true
  | .bne _ _ _ => true
  | .blt _ _ _ => true
  | .bge _ _ _ => true
  | .bltu _ _ _ => true
  | .bgeu _ _ _ => true
  | .jmp _ _ => true
  | .jreg _ _ _ => true
  | .loop _ o => loopOffOk o
  | .crr _ r => cregAssigned r
  | .crw _ _ r => cregAssigned r
  | .wait _ _ _ => true
  | .pause _ => true
  | .trap _ => true
  | .fence s => scopeOk s
  | .launch _ _ => true
  | .split _ => true
  | .vfetch _ _ => true
  | .tlbiVA _ _ => true
  | .tlbiAS _ => true
  | .wayset _ _ => true
  | .qpush _ _ => true
  | .qpop _ _ => true
  | .qpopNB _ _ => true
  | .qstat _ _ => true
  | .sfaddF32 _ _ _ => true
  | .sfsubF32 _ _ _ => true
  | .sfmulF32 _ _ _ => true
  | .sfdivF32 _ _ _ => true
  | .sfsqrtF32 _ _ => true
  | .sfminF32 _ _ _ => true
  | .sfmaxF32 _ _ _ => true
  | .sfcmpEqF32 _ _ _ => true
  | .sfcmpLtF32 _ _ _ => true
  | .sfcmpLeF32 _ _ _ => true
  | .sfcvtF32I64 _ _ => true
  | .sfcvtI64F32 _ _ => true
  | .sfcvtF32F64 _ _ => true
  | .sfcvtF64F32 _ _ => true
  | .sfaddF64 _ _ _ => true
  | .sfsubF64 _ _ _ => true
  | .sfmulF64 _ _ _ => true
  | .sfdivF64 _ _ _ => true
  | .sfsqrtF64 _ _ => true
  | .sfminF64 _ _ _ => true
  | .sfmaxF64 _ _ _ => true
  | .sfcmpEqF64 _ _ _ => true
  | .sfcmpLtF64 _ _ _ => true
  | .sfcmpLeF64 _ _ _ => true
  | .sfcvtF64I64 _ _ => true
  | .sfcvtI64F64 _ _ => true
  | .endTask => true
  | .eret => true
  | .uiret => true
  | .halt => true
  | .fenceSv => true
  | .fenceVs => true
  | .bsync => true
  | .barb => true
  | .join => true
  | .tlbiAll => true
  | .nop => true
  | .hintBt => true
  | .hintBn => true
  | .prea => true
  | .fenceArray => true
  | .fenceArrayW => true
  | .cwball => true
  | .cwbiall => true
  | .registerWrite _ _ _ => true
  | .flagsRead _ => true
  | .flagsWrite _ => true
  | .srseedWrite _ => true
  | .rmodeWrite _ => true
  | .vlcfgWrite _ => true
  | .bpartWrite _ => true
  | .vstartWrite _ => true
  | .vmodeWrite _ => true
  | .trapstatWrite _ => true
  | .trappcWrite _ => true
  | .uistatWrite _ => true
  | .waitReread _ _ => true
  | .waitLimitExpiry _ _ => true
  | .pauseExpiry _ _ => true
  | .bankThreadTrap _ _ => true
  | .latchValid _ _ _ => true
  | .writeBackCommit _ _ _ => true
  | .arrayDemand _ _ _ => true
  | .crownLineEviction _ _ _ => true
  | .farElementApply _ => true
  | .farAcknowledgement _ => true
  | .copy _ _ => true
  | .copyNode _ _ => true
  | .precopy _ _ => true
  | .coll _ _ => true
  | .rungel _ _ => true
  | .waitnzTimeout _ _ => true
  | .waitcw _ _ => true
  | .waitcwReread _ _ => true
  | .waitcwTimeout _ _ => true
  | .engineCommandCompletion _ _ => true
  | .completionInterrupt _ _ => true
  | .remotePacketArrival _ => true
  | .collFlagRelease _ => true
  | .remoteAcknowledgement _ _ _ _ _ _ => true
  | .linkTimeout _ _ => true
  | .portFailure _ => true
  | .hostAccess _ _ _ _ => true
  | .tailWrite _ _ _ => true
  | .hostQueueEntryRead _ _ => true
  | .launchExpansion _ => true
  | .depwordRead _ _ => true
  | .schedulerPlacement _ _ => true
  | .softlimExpiry _ _ => true
  | .hardPreemption _ _ => true
  | .preemptionDeferralExpiry _ _ => true
  | .gangStartAttempt _ _ => true
  | .gangStart _ _ => true
  | .gangStartAbandoned _ _ => true
  | .gangResume _ _ => true
  | .gangDiscard _ _ => true
  | .bindingRequest _ _ => true
  | .unbindingRequest _ _ => true
  | .parkWrite _ _ => true
  | .retirementRequest _ _ => true
  | .pwrctlWrite _ _ => true
  | .columnVote _ _ _ => true
  | .resyncComplete _ _ => true
  | .pageWalk _ _ _ => true
  | .retentionTick _ _ => true
  | .retentionDeadline _ _ _ _ => true
  | .forcedRefresh _ _ _ => true
  | .backgroundRefresh _ _ _ => true
  | .rowRepair _ _ _ _ => true
  | .laneQuarantine _ _ => true
  | .bankRetirement _ _ _ => true
  | .bankCopyComplete _ _ => true
  | .uncorrectableError _ _ _ _ => true
  | .frontEndFailure _ _ => true
  | .objectSubmission _ _ _ => true
  | .gelInstall _ _ _ => true
  | .keyset _ _ => true
  | .fuseadv => true
  | .colreset _ _ => true
  | .blkreset _ _ => true
  | .maincycle => true
  | .tamperAlarm => true
  | .glitchAlarm => true
  | .overTemperatureAlarm => true
  | .powerMeasurement _ _ _ => true
  | .coolantFault => true
  | .powerOn => true
  | .bringupPhaseComplete _ => true
  | .repairCopyComplete _ _ _ _ => true

/-- Well-formed instruction terms; both halves of a pair are well-formed. -/
def Instr.wf : Instr → Bool
  | .complementPair i j => i.fieldsOk && j.fieldsOk && pairOk i j
  | i => i.fieldsOk

/-- Well-formedness as a proposition. -/
abbrev Instr.WellFormed (i : Instr) : Prop := i.wf = true

end Sys2Proof
end

