-- ==== Sys2Proof/Decode.lean ====
section
/-!
DEFINITION. The decoder, total on any bytes, and after it the encoder. Both follow the formats of 02:R38-R40 and the
function codes of the instruction chapters. A word the decoder refuses is refused by name; 02:R35 makes each of these an
illegal instruction.
-/

namespace Sys2Proof

/-- Why a word is no instruction (02:R35 check 2). -/
inductive DecodeError where
  | truncated        -- fewer bytes than the major opcode calls for
  | illegalMajor     -- the major opcode is marked ILL (02:R45)
  | unassignedCode   -- the function code is not assigned (02:R47)
  | reservedField    -- a field the instruction does not use is not zero (00:R10)
  | fieldValue       -- a field value outside its range (02:R40)
  deriving DecidableEq, Repr

/-- `n` bits of `w` from bit `lo`, as a number below 2^n. -/
def fnum (w lo n : Nat) : Fin (2 ^ n) := ⟨w / 2 ^ lo % 2 ^ n, Nat.mod_lt _ (Nat.two_pow_pos n)⟩

/-- `n` bits of `w` from bit `lo`, as bits. -/
def fbv (w lo n : Nat) : BitVec n := BitVec.ofNat n (w / 2 ^ lo)

/-- Bit `lo` of `w`. -/
def fbit (w lo : Nat) : Bool := decide (w / 2 ^ lo % 2 = 1)

/-- Bits `lo` to `lo + n - 1` of `w` as a number. -/
def fnat (w lo n : Nat) : Nat := w / 2 ^ lo % 2 ^ n

/-- The value of a flag bit in a word. -/
def bnat (b : Bool) : Nat := if b then 1 else 0

/-- Answers `i` when the reserved bits are zero. -/
def needZero (ok : Bool) (i : Instr) : Except DecodeError Instr :=
  if ok then .ok i else .error .reservedField

/-- Major 0x70. -/
def decHint70 (w : Nat) : Except DecodeError Instr :=
  if w = 0x70 then .ok .nop
  else if fnat w 28 4 = 1 ∧ fnat w 7 21 ≠ 0 then .ok (.hintCpf (fbv w 7 21))
  else if w = 0x200000F0 then .ok .hintBt
  else if w = 0x20000070 then .ok .hintBn
  else .ok (.hint false (BitVec.ofNat 64 w))

/-- Major 0x20. -/
def decRow (w : Nat) : Except DecodeError Instr :=
  match fnat w 27 5 with
  | 0 => .ok (.act (fnum w 7 4) (fnum w 11 4) (fbv w 15 12))
  | 1 => .ok (.actIndexed (fnum w 7 4) (fnum w 11 4) (fnum w 15 5) (fbv w 20 7))
  | 2 => needZero (decide (fnat w 11 16 = 0)) (.wbk (fnum w 7 4))
  | 4 => needZero (decide (fnat w 11 16 = 0)) (.pre (fnum w 7 4))
  | 6 => needZero (decide (fnat w 11 16 = 0)) (.preD (fnum w 7 4))
  | 10 => needZero (decide (fnat w 11 16 = 0)) (.ref (fnum w 7 4))
  | 12 => needZero (decide (fnat w 11 4 = 0 ∧ fnat w 20 7 = 0)) (.refQ (fnum w 15 5) (fnum w 7 4))
  | 14 => needZero (decide (fnat w 11 4 = 0 ∧ fnat w 20 7 = 0)) (.rstat (fnum w 15 5) (fnum w 7 4))
  | 8 => needZero (decide (fnat w 7 20 = 0)) (.prea)
  | 16 => needZero (decide (fnat w 7 20 = 0)) (.fenceArray)
  | 18 => needZero (decide (fnat w 7 20 = 0)) (.fenceArrayW)
  | _ => .error .unassignedCode

/-- Major 0x23. -/
def decRowl (w : Nat) : Except DecodeError Instr :=
  match fnat w 28 4 with
  | 0 => needZero (decide (fnat w 11 4 = 0 ∧ fnat w 32 19 = 0)) (.rclone (fnum w 7 4) (fbit w 27) (fbv w 15 12) (fbit w 63) (fbv w 51 12))
  | 1 => needZero (decide (fnat w 11 4 = 0 ∧ fnat w 32 32 = 0)) (.rzero (fnum w 7 4) (fbit w 27) (fbv w 15 12))
  | _ => .error .unassignedCode

/-- Major 0x22. -/
def decCrown (w : Nat) : Except DecodeError Instr :=
  match fnat w 25 7 with
  | 0 => needZero (decide (fnat w 11 4 = 0 ∧ fnat w 24 1 = 0)) (.cld (fnum w 7 4) (fnum w 15 5) (fnum w 20 4))
  | 1 => needZero (decide (fnat w 11 4 = 0 ∧ fnat w 24 1 = 0)) (.cst (fnum w 7 4) (fnum w 15 5) (fnum w 20 4))
  | _ => .error .unassignedCode

/-- Major 0x30. -/
def decVarith (w : Nat) : Except DecodeError Instr :=
  match fnat w 24 8 with
  | 0 => .ok (.vaddVV (fnum w 7 4) (fnum w 11 4) (fnum w 15 4) (fnum w 19 4) (fbit w 23))
  | 1 => .ok (.vsubVV (fnum w 7 4) (fnum w 11 4) (fnum w 15 4) (fnum w 19 4) (fbit w 23))
  | 2 => .ok (.vmulVV (fnum w 7 4) (fnum w 11 4) (fnum w 15 4) (fnum w 19 4) (fbit w 23))
  | 3 => .ok (.vminVV (fnum w 7 4) (fnum w 11 4) (fnum w 15 4) (fnum w 19 4) (fbit w 23))
  | 4 => .ok (.vmaxVV (fnum w 7 4) (fnum w 11 4) (fnum w 15 4) (fnum w 19 4) (fbit w 23))
  | 5 => needZero (decide (fnat w 15 4 = 0)) (.vabs (fnum w 7 4) (fnum w 11 4) (fnum w 19 4) (fbit w 23))
  | 6 => needZero (decide (fnat w 15 4 = 0)) (.vneg (fnum w 7 4) (fnum w 11 4) (fnum w 19 4) (fbit w 23))
  | 7 => .ok (.vaddSVV (fnum w 7 4) (fnum w 11 4) (fnum w 15 4) (fnum w 19 4) (fbit w 23))
  | 8 => .ok (.vsubSVV (fnum w 7 4) (fnum w 11 4) (fnum w 15 4) (fnum w 19 4) (fbit w 23))
  | _ => .error .unassignedCode

/-- Major 0x31. -/
def decVscal (w : Nat) : Except DecodeError Instr :=
  match fnat w 25 7 with
  | 0 => .ok (.vaddVX (fnum w 7 4) (fnum w 11 4) (fnum w 15 5) (fnum w 20 4) (fbit w 24))
  | 1 => .ok (.vsubVX (fnum w 7 4) (fnum w 11 4) (fnum w 15 5) (fnum w 20 4) (fbit w 24))
  | 2 => .ok (.vmulVX (fnum w 7 4) (fnum w 11 4) (fnum w 15 5) (fnum w 20 4) (fbit w 24))
  | 3 => .ok (.vminVX (fnum w 7 4) (fnum w 11 4) (fnum w 15 5) (fnum w 20 4) (fbit w 24))
  | 4 => .ok (.vmaxVX (fnum w 7 4) (fnum w 11 4) (fnum w 15 5) (fnum w 20 4) (fbit w 24))
  | 7 => .ok (.vaddSVX (fnum w 7 4) (fnum w 11 4) (fnum w 15 5) (fnum w 20 4) (fbit w 24))
  | 8 => .ok (.vsubSVX (fnum w 7 4) (fnum w 11 4) (fnum w 15 5) (fnum w 20 4) (fbit w 24))
  | _ => .error .unassignedCode

/-- Major 0x32. -/
def decVimm (w : Nat) : Except DecodeError Instr :=
  match fnat w 28 4 with
  | 0 => .ok (.vaddVI (fnum w 7 4) (fnum w 11 4) (fbv w 15 8) (fnum w 23 4) (fbit w 27))
  | 1 => .ok (.vsubVI (fnum w 7 4) (fnum w 11 4) (fbv w 15 8) (fnum w 23 4) (fbit w 27))
  | 2 => .ok (.vrsub (fnum w 7 4) (fnum w 11 4) (fbv w 15 8) (fnum w 23 4) (fbit w 27))
  | 3 => .ok (.vmulVI (fnum w 7 4) (fnum w 11 4) (fbv w 15 8) (fnum w 23 4) (fbit w 27))
  | 4 => .ok (.vminVI (fnum w 7 4) (fnum w 11 4) (fbv w 15 8) (fnum w 23 4) (fbit w 27))
  | 5 => .ok (.vmaxVI (fnum w 7 4) (fnum w 11 4) (fbv w 15 8) (fnum w 23 4) (fbit w 27))
  | 6 => .ok (.vsllVI (fnum w 7 4) (fnum w 11 4) (fbv w 15 8) (fnum w 23 4) (fbit w 27))
  | 7 => .ok (.vsrlVI (fnum w 7 4) (fnum w 11 4) (fbv w 15 8) (fnum w 23 4) (fbit w 27))
  | 8 => .ok (.vsraVI (fnum w 7 4) (fnum w 11 4) (fbv w 15 8) (fnum w 23 4) (fbit w 27))
  | 9 => .ok (.vandVI (fnum w 7 4) (fnum w 11 4) (fbv w 15 8) (fnum w 23 4) (fbit w 27))
  | 10 => .ok (.vorVI (fnum w 7 4) (fnum w 11 4) (fbv w 15 8) (fnum w 23 4) (fbit w 27))
  | 11 => .ok (.vxorVI (fnum w 7 4) (fnum w 11 4) (fbv w 15 8) (fnum w 23 4) (fbit w 27))
  | _ => .error .unassignedCode

/-- Major 0x33. -/
def decVext (w : Nat) : Except DecodeError Instr :=
  match fnat w 24 8 with
  | 0 => needZero (decide (fnat w 32 11 = 0 ∧ fnat w 47 1 = 0 ∧ fnat w 51 13 = 0)) (.vfma (fnum w 7 4) (fnum w 11 4) (fnum w 15 4) (fnum w 43 4) (fnum w 48 3) (fnum w 19 4) (fbit w 23))
  | 1 => needZero (decide (fnat w 32 11 = 0 ∧ fnat w 47 1 = 0 ∧ fnat w 51 13 = 0)) (.vfms (fnum w 7 4) (fnum w 11 4) (fnum w 15 4) (fnum w 43 4) (fnum w 48 3) (fnum w 19 4) (fbit w 23))
  | 2 => needZero (decide (fnat w 15 4 = 0 ∧ fnat w 32 11 = 0 ∧ fnat w 47 1 = 0 ∧ fnat w 56 8 = 0)) (.vfmaX (fnum w 7 4) (fnum w 11 4) (fnum w 51 5) (fnum w 43 4) (fnum w 48 3) (fnum w 19 4) (fbit w 23))
  | 3 => needZero (decide (fnat w 15 4 = 0 ∧ fnat w 32 11 = 0 ∧ fnat w 47 1 = 0 ∧ fnat w 56 8 = 0)) (.vfmsX (fnum w 7 4) (fnum w 11 4) (fnum w 51 5) (fnum w 43 4) (fnum w 48 3) (fnum w 19 4) (fbit w 23))
  | 32 => needZero (decide (fnat w 15 4 = 0 ∧ fnat w 32 15 = 0 ∧ fnat w 51 5 = 0)) (.vcvt (fnum w 7 4) (fnum w 11 4) (fbv w 56 8) (fnum w 48 3) (fbit w 47) (fnum w 19 4) (fbit w 23))
  | 33 => needZero (decide (fnat w 32 15 = 0 ∧ fnat w 51 5 = 0)) (.vcvtMX (fnum w 7 4) (fnum w 11 4) (fnum w 15 4) (fbv w 56 8) (fnum w 48 3) (fbit w 47) (fnum w 19 4) (fbit w 23))
  | 34 => needZero (decide (fnat w 32 15 = 0 ∧ fnat w 51 5 = 0)) (.vqntMX (fnum w 7 4) (fnum w 11 4) (fnum w 15 4) (fbv w 56 8) (fnum w 48 3) (fbit w 47) (fnum w 19 4) (fbit w 23))
  | 64 => needZero (decide (fnat w 32 16 = 0 ∧ fnat w 51 13 = 0)) (.vaddRm (fnum w 7 4) (fnum w 11 4) (fnum w 15 4) (fnum w 48 3) (fnum w 19 4) (fbit w 23))
  | 65 => needZero (decide (fnat w 32 16 = 0 ∧ fnat w 51 13 = 0)) (.vsubRm (fnum w 7 4) (fnum w 11 4) (fnum w 15 4) (fnum w 48 3) (fnum w 19 4) (fbit w 23))
  | 66 => needZero (decide (fnat w 32 16 = 0 ∧ fnat w 51 13 = 0)) (.vmulRm (fnum w 7 4) (fnum w 11 4) (fnum w 15 4) (fnum w 48 3) (fnum w 19 4) (fbit w 23))
  | _ => .error .unassignedCode

/-- Major 0x34. -/
def decVcmp (w : Nat) : Except DecodeError Instr :=
  match fnat w 24 8 with
  | 0 => needZero (decide (fnat w 23 1 = 0)) (.vcmpEq (fnum w 7 4) (fnum w 11 4) (fnum w 15 4) (fnum w 19 4))
  | 1 => needZero (decide (fnat w 23 1 = 0)) (.vcmpNe (fnum w 7 4) (fnum w 11 4) (fnum w 15 4) (fnum w 19 4))
  | 2 => needZero (decide (fnat w 23 1 = 0)) (.vcmpLt (fnum w 7 4) (fnum w 11 4) (fnum w 15 4) (fnum w 19 4))
  | 3 => needZero (decide (fnat w 23 1 = 0)) (.vcmpLe (fnum w 7 4) (fnum w 11 4) (fnum w 15 4) (fnum w 19 4))
  | 4 => needZero (decide (fnat w 23 1 = 0)) (.vcmpGt (fnum w 7 4) (fnum w 11 4) (fnum w 15 4) (fnum w 19 4))
  | 5 => needZero (decide (fnat w 23 1 = 0)) (.vcmpGe (fnum w 7 4) (fnum w 11 4) (fnum w 15 4) (fnum w 19 4))
  | 6 => needZero (decide (fnat w 23 1 = 0)) (.vcmpUn (fnum w 7 4) (fnum w 11 4) (fnum w 15 4) (fnum w 19 4))
  | 7 => needZero (decide (fnat w 23 1 = 0)) (.vcmpOr (fnum w 7 4) (fnum w 11 4) (fnum w 15 4) (fnum w 19 4))
  | _ => .error .unassignedCode

/-- Major 0x35. -/
def decVlog (w : Nat) : Except DecodeError Instr :=
  match fnat w 24 8 with
  | 0 => .ok (.vandVV (fnum w 7 4) (fnum w 11 4) (fnum w 15 4) (fnum w 19 4) (fbit w 23))
  | 1 => .ok (.vorVV (fnum w 7 4) (fnum w 11 4) (fnum w 15 4) (fnum w 19 4) (fbit w 23))
  | 2 => .ok (.vxorVV (fnum w 7 4) (fnum w 11 4) (fnum w 15 4) (fnum w 19 4) (fbit w 23))
  | 3 => .ok (.vandn (fnum w 7 4) (fnum w 11 4) (fnum w 15 4) (fnum w 19 4) (fbit w 23))
  | 4 => needZero (decide (fnat w 15 4 = 0)) (.vnot (fnum w 7 4) (fnum w 11 4) (fnum w 19 4) (fbit w 23))
  | 8 => .ok (.vsllVV (fnum w 7 4) (fnum w 11 4) (fnum w 15 4) (fnum w 19 4) (fbit w 23))
  | 9 => .ok (.vsrlVV (fnum w 7 4) (fnum w 11 4) (fnum w 15 4) (fnum w 19 4) (fbit w 23))
  | 10 => .ok (.vsraVV (fnum w 7 4) (fnum w 11 4) (fnum w 15 4) (fnum w 19 4) (fbit w 23))
  | 16 => needZero (decide (fnat w 23 1 = 0)) (.vsel (fnum w 7 4) (fnum w 11 4) (fnum w 15 4) (fnum w 19 4))
  | _ => .error .unassignedCode

/-- Major 0x36. -/
def decVconf (w : Nat) : Except DecodeError Instr :=
  match fnat w 28 4 with
  | 0 => .ok (.setvl (fnum w 7 6) (fnum w 23 5) (fnum w 19 4) (fnum w 13 6))
  | 1 => needZero (decide (fnat w 11 8 = 0 ∧ fnat w 23 5 = 0)) (.vcfg (fnum w 7 4) (fnum w 19 4))
  | 2 => needZero (decide (fnat w 11 2 = 0 ∧ fnat w 19 9 = 0)) (.vsplat (fnum w 7 4) (fnum w 13 6))
  | 3 => needZero (decide (fnat w 11 2 = 0 ∧ fnat w 19 9 = 0)) (.viota (fnum w 7 4) (fnum w 13 6))
  | 4 => needZero (decide (fnat w 17 6 = 0)) (.vmovms (fnum w 7 6) (fbv w 23 5) (fnum w 13 4))
  | 5 => needZero (decide (fnat w 11 2 = 0 ∧ fnat w 19 9 = 0)) (.vmovsm (fnum w 13 6) (fnum w 7 4))
  | _ => .error .unassignedCode

/-- Major 0x37. -/
def decVmath (w : Nat) : Except DecodeError Instr :=
  match fnat w 24 8 with
  | 0 => needZero (decide (fnat w 23 1 = 0 ∧ fnat w 32 16 = 0 ∧ fnat w 51 13 = 0)) (.vdiv (fnum w 7 4) (fnum w 11 4) (fnum w 15 4) (fnum w 48 3) (fnum w 19 4))
  | 1 => needZero (decide (fnat w 23 1 = 0 ∧ fnat w 32 32 = 0)) (.vrem (fnum w 7 4) (fnum w 11 4) (fnum w 15 4) (fnum w 19 4))
  | 2 => needZero (decide (fnat w 15 4 = 0 ∧ fnat w 23 1 = 0 ∧ fnat w 32 16 = 0 ∧ fnat w 51 13 = 0)) (.vsqrt (fnum w 7 4) (fnum w 11 4) (fnum w 48 3) (fnum w 19 4))
  | 3 => needZero (decide (fnat w 15 4 = 0 ∧ fnat w 23 1 = 0 ∧ fnat w 32 32 = 0)) (.vrsqrte (fnum w 7 4) (fnum w 11 4) (fnum w 19 4))
  | 4 => needZero (decide (fnat w 15 4 = 0 ∧ fnat w 23 1 = 0 ∧ fnat w 32 32 = 0)) (.vexp2e (fnum w 7 4) (fnum w 11 4) (fnum w 19 4))
  | _ => .error .unassignedCode

/-- Major 0x38. -/
def decVperm (w : Nat) : Except DecodeError Instr :=
  match fnat w 24 8 with
  | 0 => needZero (decide (fnat w 23 1 = 0)) (.vpick (fnum w 7 4) (fnum w 11 4) (fnum w 15 4) (fnum w 19 4))
  | 1 => needZero (decide (fnat w 15 4 = 0 ∧ fnat w 23 1 = 0)) (.vpack (fnum w 7 4) (fnum w 11 4) (fnum w 19 4))
  | 2 => needZero (decide (fnat w 15 4 = 0 ∧ fnat w 23 1 = 0)) (.vspread (fnum w 7 4) (fnum w 11 4) (fnum w 19 4))
  | 8 => needZero (decide (fnat w 23 1 = 0)) (.vmovup (fnum w 7 4) (fnum w 11 4) (fnum w 15 4) (fnum w 19 4))
  | 9 => needZero (decide (fnat w 23 1 = 0)) (.vmovdn (fnum w 7 4) (fnum w 11 4) (fnum w 15 4) (fnum w 19 4))
  | 10 => needZero (decide (fnat w 23 1 = 0)) (.vpushlo (fnum w 7 4) (fnum w 11 4) (fnum w 15 4) (fnum w 19 4))
  | 11 => needZero (decide (fnat w 23 1 = 0)) (.vpushhi (fnum w 7 4) (fnum w 11 4) (fnum w 15 4) (fnum w 19 4))
  | _ => .error .unassignedCode

/-- Major 0x39. -/
def decVred (w : Nat) : Except DecodeError Instr :=
  match fnat w 24 8 with
  | 0 => needZero (decide (fnat w 15 4 = 0 ∧ fnat w 23 1 = 0)) (.vtotal (fnum w 7 4) (fnum w 11 4) (fnum w 19 4))
  | 1 => needZero (decide (fnat w 15 4 = 0 ∧ fnat w 23 1 = 0)) (.vtotalSeq (fnum w 7 4) (fnum w 11 4) (fnum w 19 4))
  | 2 => needZero (decide (fnat w 15 4 = 0 ∧ fnat w 23 1 = 0)) (.vleast (fnum w 7 4) (fnum w 11 4) (fnum w 19 4))
  | 3 => needZero (decide (fnat w 15 4 = 0 ∧ fnat w 23 1 = 0)) (.vmost (fnum w 7 4) (fnum w 11 4) (fnum w 19 4))
  | 4 => needZero (decide (fnat w 15 4 = 0 ∧ fnat w 23 1 = 0)) (.vband (fnum w 7 4) (fnum w 11 4) (fnum w 19 4))
  | 5 => needZero (decide (fnat w 15 4 = 0 ∧ fnat w 23 1 = 0)) (.vbor (fnum w 7 4) (fnum w 11 4) (fnum w 19 4))
  | 6 => needZero (decide (fnat w 15 4 = 0 ∧ fnat w 23 1 = 0)) (.vbxor (fnum w 7 4) (fnum w 11 4) (fnum w 19 4))
  | 8 => needZero (decide (fnat w 23 1 = 0)) (.vtotalMX (fnum w 7 4) (fnum w 11 4) (fnum w 15 4) (fnum w 19 4))
  | _ => .error .unassignedCode

/-- Major 0x3A. -/
def decVmask (w : Nat) : Except DecodeError Instr :=
  match fnat w 24 8 with
  | 0 => needZero (decide (fnat w 19 5 = 0)) (.mkand (fnum w 7 4) (fnum w 11 4) (fnum w 15 4))
  | 1 => needZero (decide (fnat w 19 5 = 0)) (.mkor (fnum w 7 4) (fnum w 11 4) (fnum w 15 4))
  | 2 => needZero (decide (fnat w 19 5 = 0)) (.mkxor (fnum w 7 4) (fnum w 11 4) (fnum w 15 4))
  | 3 => needZero (decide (fnat w 19 5 = 0)) (.mkandn (fnum w 7 4) (fnum w 11 4) (fnum w 15 4))
  | 4 => needZero (decide (fnat w 15 9 = 0)) (.mknot (fnum w 7 4) (fnum w 11 4))
  | 8 => needZero (decide (fnat w 15 9 = 0)) (.mkbelow (fnum w 7 4) (fnum w 11 4))
  | 9 => needZero (decide (fnat w 15 9 = 0)) (.mkupto (fnum w 7 4) (fnum w 11 4))
  | 10 => needZero (decide (fnat w 15 9 = 0)) (.mkfirst (fnum w 7 4) (fnum w 11 4))
  | _ => .error .unassignedCode

/-- Major 0x3B. -/
def decVtab (w : Nat) : Except DecodeError Instr :=
  match fnat w 24 8 with
  | 0 => needZero (decide (fnat w 23 1 = 0 ∧ fnat w 32 24 = 0)) (.vlut (fnum w 7 4) (fnum w 11 4) (fnum w 15 4) (fbv w 56 8) (fnum w 19 4))
  | 1 => needZero (decide (fnat w 15 4 = 0 ∧ fnat w 23 1 = 0 ∧ fnat w 32 11 = 0 ∧ fnat w 51 5 = 0)) (.vhad (fnum w 7 4) (fnum w 11 4) (fbv w 56 8) (fnum w 43 4) (fnum w 48 3) (fbit w 47) (fnum w 19 4))
  | _ => .error .unassignedCode

/-- Major 0x3C. -/
def decVplane (w : Nat) : Except DecodeError Instr :=
  match fnat w 24 8 with
  | 0 => needZero (decide (fnat w 20 4 = 0)) (.vpcfg (fnum w 7 4) (fnum w 11 4) (fnum w 15 4) (fbit w 19))
  | 1 => needZero (decide (fnat w 23 1 = 0)) (.vpadd (fnum w 7 4) (fnum w 11 4) (fnum w 15 4) (fnum w 19 4))
  | 2 => needZero (decide (fnat w 23 1 = 0)) (.vpsub (fnum w 7 4) (fnum w 11 4) (fnum w 15 4) (fnum w 19 4))
  | 3 => needZero (decide (fnat w 23 1 = 0)) (.vpmul (fnum w 7 4) (fnum w 11 4) (fnum w 15 4) (fnum w 19 4))
  | 4 => needZero (decide (fnat w 23 1 = 0)) (.vpcmpEq (fnum w 7 4) (fnum w 11 4) (fnum w 15 4) (fnum w 19 4))
  | 5 => needZero (decide (fnat w 23 1 = 0)) (.vpcmpNe (fnum w 7 4) (fnum w 11 4) (fnum w 15 4) (fnum w 19 4))
  | 6 => needZero (decide (fnat w 23 1 = 0)) (.vpcmpLt (fnum w 7 4) (fnum w 11 4) (fnum w 15 4) (fnum w 19 4))
  | 7 => needZero (decide (fnat w 23 1 = 0)) (.vpcmpLe (fnum w 7 4) (fnum w 11 4) (fnum w 15 4) (fnum w 19 4))
  | 8 => needZero (decide (fnat w 23 1 = 0)) (.vpcmpGt (fnum w 7 4) (fnum w 11 4) (fnum w 15 4) (fnum w 19 4))
  | 9 => needZero (decide (fnat w 23 1 = 0)) (.vpcmpGe (fnum w 7 4) (fnum w 11 4) (fnum w 15 4) (fnum w 19 4))
  | 10 => needZero (decide (fnat w 23 1 = 0)) (.vpsll (fnum w 7 4) (fnum w 11 4) (fnum w 15 4) (fnum w 19 4))
  | 11 => needZero (decide (fnat w 23 1 = 0)) (.vpsrl (fnum w 7 4) (fnum w 11 4) (fnum w 15 4) (fnum w 19 4))
  | 12 => needZero (decide (fnat w 23 1 = 0)) (.vpsra (fnum w 7 4) (fnum w 11 4) (fnum w 15 4) (fnum w 19 4))
  | 13 => needZero (decide (fnat w 15 4 = 0 ∧ fnat w 23 1 = 0)) (.vpcnt (fnum w 7 4) (fnum w 11 4) (fnum w 19 4))
  | 16 => needZero (decide (fnat w 23 1 = 0)) (.vtrp (fnum w 7 4) (fnum w 11 4) (fnum w 15 4) (fnum w 19 4))
  | 17 => needZero (decide (fnat w 23 1 = 0)) (.vtrw (fnum w 7 4) (fnum w 11 4) (fnum w 15 4) (fnum w 19 4))
  | _ => .error .unassignedCode

/-- Major 0x40. -/
def decMat (w : Nat) : Except DecodeError Instr :=
  match fnat w 24 8 with
  | 0 => needZero (decide (fnat w 9 15 = 0)) (.mzero (fnum w 7 2))
  | 1 => needZero (decide (fnat w 9 2 = 0)) (.mopa (fnum w 7 2) (fnum w 11 4) (fnum w 15 4) (fnum w 19 4) (fbit w 23))
  | 2 => needZero (decide (fnat w 9 2 = 0)) (.mops (fnum w 7 2) (fnum w 11 4) (fnum w 15 4) (fnum w 19 4) (fbit w 23))
  | 3 => needZero (decide (fnat w 9 2 = 0 ∧ fnat w 23 1 = 0)) (.mopaMX (fnum w 19 4) (fnum w 7 2) (fnum w 11 4) (fnum w 15 4))
  | 4 => needZero (decide (fnat w 9 2 = 0 ∧ fnat w 23 1 = 0)) (.mopsMX (fnum w 19 4) (fnum w 7 2) (fnum w 11 4) (fnum w 15 4))
  | 8 => needZero (decide (fnat w 9 2 = 0 ∧ fnat w 19 5 = 0)) (.mld (fnum w 7 2) (fnum w 11 4) (fnum w 15 4))
  | 9 => needZero (decide (fnat w 9 2 = 0 ∧ fnat w 19 5 = 0)) (.mldP (fnum w 7 2) (fnum w 11 4) (fnum w 15 4))
  | 10 => needZero (decide (fnat w 7 2 = 0 ∧ fnat w 19 5 = 0)) (.mst (fnum w 9 2) (fnum w 11 4) (fnum w 15 4))
  | 11 => needZero (decide (fnat w 7 2 = 0 ∧ fnat w 19 5 = 0)) (.mstP (fnum w 9 2) (fnum w 11 4) (fnum w 15 4))
  | 16 => needZero (decide (fnat w 9 2 = 0 ∧ fnat w 15 9 = 0)) (.mscale (fnum w 7 2) (fnum w 11 4))
  | 17 => needZero (decide (fnat w 9 15 = 0)) (.mchk (fnum w 7 2))
  | _ => .error .unassignedCode

/-- Major 0x43. -/
def decPin (w : Nat) : Except DecodeError Instr :=
  match fnat w 24 8 with
  | 0 => needZero (decide (fnat w 15 4 = 0 ∧ fnat w 23 1 = 0 ∧ fnat w 32 21 = 0)) (.pexp (fnum w 7 4) (fnum w 11 4) (fbv w 56 8) (fnum w 53 3) (fnum w 19 4))
  | 1 => needZero (decide (fnat w 15 4 = 0 ∧ fnat w 23 1 = 0 ∧ fnat w 32 12 = 0 ∧ fnat w 48 5 = 0)) (.psplit (fnum w 7 4) (fnum w 11 4) (fnum w 44 4) (fbv w 56 8) (fnum w 53 3) (fnum w 19 4))
  | 2 => needZero (decide (fnat w 7 4 = 0 ∧ fnat w 32 8 = 0 ∧ fnat w 50 1 = 0 ∧ fnat w 56 8 = 0)) (.pmma (fbit w 51) (fnum w 48 2) (fnum w 11 4) (fnum w 15 4) (fnum w 44 4) (fnum w 40 4) (fnum w 53 3) (fbit w 52) (fbit w 23) (fnum w 19 4))
  | 3 => needZero (decide (fnat w 7 17 = 0 ∧ fnat w 32 8 = 0 ∧ fnat w 50 1 = 0 ∧ fnat w 52 4 = 0)) (.pfold (fbit w 51) (fnum w 48 2) (fnum w 44 4) (fnum w 40 4) (fbv w 56 8))
  | _ => .error .unassignedCode

/-- Major 0x50. -/
def decGal (w : Nat) : Except DecodeError Instr :=
  match fnat w 28 4 with
  | 0 => needZero (decide (fnat w 27 1 = 0)) (.grot (fnum w 7 4) (fnum w 11 4) (fbv w 15 8) (fnum w 23 4))
  | 1 => needZero (decide (fnat w 27 1 = 0)) (.gbcast (fnum w 7 4) (fnum w 11 4) (fbv w 15 8) (fnum w 23 4))
  | 2 => needZero (decide (fnat w 20 3 = 0 ∧ fnat w 27 1 = 0)) (.gperm (fnum w 7 4) (fnum w 11 4) (fnum w 15 5) (fnum w 23 4))
  | 3 => needZero (decide (fnat w 27 1 = 0)) (.gxch (fnum w 7 4) (fnum w 11 4) (fbv w 15 8) (fnum w 23 4))
  | 4 =>
    if fnat w 15 8 = 0 then needZero (decide (fnat w 27 1 = 0)) (.gredSum (fnum w 7 4) (fnum w 11 4) (fnum w 23 4))
    else if fnat w 15 8 = 1 then needZero (decide (fnat w 27 1 = 0)) (.gredMin (fnum w 7 4) (fnum w 11 4) (fnum w 23 4))
    else if fnat w 15 8 = 2 then needZero (decide (fnat w 27 1 = 0)) (.gredMax (fnum w 7 4) (fnum w 11 4) (fnum w 23 4))
    else if fnat w 15 8 = 3 then needZero (decide (fnat w 27 1 = 0)) (.gredAnd (fnum w 7 4) (fnum w 11 4) (fnum w 23 4))
    else if fnat w 15 8 = 4 then needZero (decide (fnat w 27 1 = 0)) (.gredOr (fnum w 7 4) (fnum w 11 4) (fnum w 23 4))
    else if fnat w 15 8 = 5 then needZero (decide (fnat w 27 1 = 0)) (.gredXor (fnum w 7 4) (fnum w 11 4) (fnum w 23 4))
    else .error .unassignedCode
  | _ => .error .unassignedCode

/-- Major 0x51. -/
def decCmaint (w : Nat) : Except DecodeError Instr :=
  match fnat w 25 7 with
  | 0 => needZero (decide (fnat w 7 6 = 0)) (.cwb (fnum w 13 6) (fnum w 19 6))
  | 1 => needZero (decide (fnat w 7 6 = 0)) (.cwbi (fnum w 13 6) (fnum w 19 6))
  | 2 => needZero (decide (fnat w 7 6 = 0)) (.cinv (fnum w 13 6) (fnum w 19 6))
  | 3 => needZero (decide (fnat w 7 18 = 0)) (.cwball)
  | 4 => needZero (decide (fnat w 7 18 = 0)) (.cwbiall)
  | _ => .error .unassignedCode

/-- Major 0x53. -/
def decFar (w : Nat) : Except DecodeError Instr :=
  match fnat w 24 8 with
  | 0 => needZero (decide (fnat w 11 8 = 0 ∧ fnat w 23 1 = 0)) (.farLd (fnum w 7 4) (fnum w 59 5) (fbv w 32 20) (fnum w 52 2) (fnum w 54 2) (fnum w 56 3) (fnum w 19 4))
  | 1 => needZero (decide (fnat w 7 4 = 0 ∧ fnat w 15 4 = 0)) (.farSt (fnum w 11 4) (fnum w 59 5) (fbv w 32 20) (fnum w 52 2) (fnum w 54 2) (fnum w 56 3) (fbit w 23) (fnum w 19 4))
  | 2 => needZero (decide (fnat w 11 4 = 0 ∧ fnat w 23 1 = 0)) (.farGather (fnum w 7 4) (fnum w 59 5) (fbv w 32 20) (fnum w 15 4) (fnum w 52 2) (fnum w 54 2) (fnum w 56 3) (fnum w 19 4))
  | 3 => needZero (decide (fnat w 7 4 = 0)) (.farScatter (fnum w 11 4) (fnum w 59 5) (fbv w 32 20) (fnum w 15 4) (fnum w 52 2) (fnum w 54 2) (fnum w 56 3) (fbit w 23) (fnum w 19 4))
  | 4 => needZero (decide (fnat w 7 4 = 0)) (.farScadd (fnum w 11 4) (fnum w 59 5) (fbv w 32 20) (fnum w 15 4) (fnum w 52 2) (fnum w 54 2) (fnum w 56 3) (fbit w 23) (fnum w 19 4))
  | _ => .error .unassignedCode

/-- Major 0x57. -/
def decFatom (w : Nat) : Except DecodeError Instr :=
  match fnat w 24 8 with
  | 0 => .ok (.farAdd (fnum w 7 4) (fnum w 11 4) (fnum w 59 5) (fbv w 32 20) (fnum w 15 4) (fnum w 52 2) (fnum w 54 2) (fnum w 56 3) (fbit w 23) (fnum w 19 4))
  | 1 => .ok (.farFadd (fnum w 7 4) (fnum w 11 4) (fnum w 59 5) (fbv w 32 20) (fnum w 15 4) (fnum w 52 2) (fnum w 54 2) (fnum w 56 3) (fbit w 23) (fnum w 19 4))
  | 2 => .ok (.farMin (fnum w 7 4) (fnum w 11 4) (fnum w 59 5) (fbv w 32 20) (fnum w 15 4) (fnum w 52 2) (fnum w 54 2) (fnum w 56 3) (fbit w 23) (fnum w 19 4))
  | 3 => .ok (.farMax (fnum w 7 4) (fnum w 11 4) (fnum w 59 5) (fbv w 32 20) (fnum w 15 4) (fnum w 52 2) (fnum w 54 2) (fnum w 56 3) (fbit w 23) (fnum w 19 4))
  | 4 => .ok (.farMinu (fnum w 7 4) (fnum w 11 4) (fnum w 59 5) (fbv w 32 20) (fnum w 15 4) (fnum w 52 2) (fnum w 54 2) (fnum w 56 3) (fbit w 23) (fnum w 19 4))
  | 5 => .ok (.farMaxu (fnum w 7 4) (fnum w 11 4) (fnum w 59 5) (fbv w 32 20) (fnum w 15 4) (fnum w 52 2) (fnum w 54 2) (fnum w 56 3) (fbit w 23) (fnum w 19 4))
  | 6 => .ok (.farAnd (fnum w 7 4) (fnum w 11 4) (fnum w 59 5) (fbv w 32 20) (fnum w 15 4) (fnum w 52 2) (fnum w 54 2) (fnum w 56 3) (fbit w 23) (fnum w 19 4))
  | 7 => .ok (.farOr (fnum w 7 4) (fnum w 11 4) (fnum w 59 5) (fbv w 32 20) (fnum w 15 4) (fnum w 52 2) (fnum w 54 2) (fnum w 56 3) (fbit w 23) (fnum w 19 4))
  | 8 => .ok (.farXor (fnum w 7 4) (fnum w 11 4) (fnum w 59 5) (fbv w 32 20) (fnum w 15 4) (fnum w 52 2) (fnum w 54 2) (fnum w 56 3) (fbit w 23) (fnum w 19 4))
  | 9 => .ok (.farSwap (fnum w 7 4) (fnum w 11 4) (fnum w 59 5) (fbv w 32 20) (fnum w 15 4) (fnum w 52 2) (fnum w 54 2) (fnum w 56 3) (fbit w 23) (fnum w 19 4))
  | 10 => .ok (.farCas (fnum w 7 4) (fnum w 11 4) (fnum w 59 5) (fbv w 32 20) (fnum w 15 4) (fnum w 52 2) (fnum w 54 2) (fnum w 56 3) (fbit w 23) (fnum w 19 4))
  | _ => .error .unassignedCode

/-- Major 0x01. -/
def decScalu (w : Nat) : Except DecodeError Instr :=
  match fnat w 25 7 with
  | 0 => .ok (.add (fnum w 7 6) (fnum w 13 6) (fnum w 19 6))
  | 1 => .ok (.sub (fnum w 7 6) (fnum w 13 6) (fnum w 19 6))
  | 2 => .ok (.and (fnum w 7 6) (fnum w 13 6) (fnum w 19 6))
  | 3 => .ok (.or (fnum w 7 6) (fnum w 13 6) (fnum w 19 6))
  | 4 => .ok (.xor (fnum w 7 6) (fnum w 13 6) (fnum w 19 6))
  | 5 => .ok (.andn (fnum w 7 6) (fnum w 13 6) (fnum w 19 6))
  | 6 => .ok (.sll (fnum w 7 6) (fnum w 13 6) (fnum w 19 6))
  | 7 => .ok (.srl (fnum w 7 6) (fnum w 13 6) (fnum w 19 6))
  | 8 => .ok (.sra (fnum w 7 6) (fnum w 13 6) (fnum w 19 6))
  | 9 => .ok (.ror (fnum w 7 6) (fnum w 13 6) (fnum w 19 6))
  | 10 => .ok (.min (fnum w 7 6) (fnum w 13 6) (fnum w 19 6))
  | 11 => .ok (.max (fnum w 7 6) (fnum w 13 6) (fnum w 19 6))
  | 12 => .ok (.minu (fnum w 7 6) (fnum w 13 6) (fnum w 19 6))
  | 13 => .ok (.maxu (fnum w 7 6) (fnum w 13 6) (fnum w 19 6))
  | 16 => .ok (.seq (fnum w 7 6) (fnum w 13 6) (fnum w 19 6))
  | 17 => .ok (.sne (fnum w 7 6) (fnum w 13 6) (fnum w 19 6))
  | 18 => .ok (.slt (fnum w 7 6) (fnum w 13 6) (fnum w 19 6))
  | 19 => .ok (.sltu (fnum w 7 6) (fnum w 13 6) (fnum w 19 6))
  | 20 => .ok (.sge (fnum w 7 6) (fnum w 13 6) (fnum w 19 6))
  | 21 => .ok (.sgeu (fnum w 7 6) (fnum w 13 6) (fnum w 19 6))
  | _ => .error .unassignedCode

/-- Major 0x02. -/
def decScali (w : Nat) : Except DecodeError Instr :=
  match fnat w 19 3 with
  | 0 => .ok (.addi (fnum w 7 6) (fnum w 13 6) (fbv w 22 10))
  | 1 => .ok (.andi (fnum w 7 6) (fnum w 13 6) (fbv w 22 10))
  | 2 => .ok (.ori (fnum w 7 6) (fnum w 13 6) (fbv w 22 10))
  | 3 => .ok (.xori (fnum w 7 6) (fnum w 13 6) (fbv w 22 10))
  | 4 => needZero (decide (fnat w 28 4 = 0)) (.slli (fnum w 7 6) (fnum w 13 6) (fbv w 22 6))
  | 5 => needZero (decide (fnat w 28 4 = 0)) (.srli (fnum w 7 6) (fnum w 13 6) (fbv w 22 6))
  | 6 => needZero (decide (fnat w 28 4 = 0)) (.srai (fnum w 7 6) (fnum w 13 6) (fbv w 22 6))
  | 7 => .ok (.slti (fnum w 7 6) (fnum w 13 6) (fbv w 22 10))
  | _ => .error .unassignedCode

/-- Major 0x03. -/
def decSclit (w : Nat) : Except DecodeError Instr :=
  match fnat w 29 3 with
  | 0 => needZero (decide (fnat w 13 16 = 0)) (.li (fnum w 7 6) (fbv w 32 32))
  | 1 => needZero (decide (fnat w 13 16 = 0)) (.liu (fnum w 7 6) (fbv w 32 32))
  | 2 => needZero (decide (fnat w 13 16 = 0)) (.lih (fnum w 7 6) (fbv w 32 32))
  | 3 => needZero (decide (fnat w 13 16 = 0)) (.addil (fnum w 7 6) (fbv w 32 32))
  | _ => .error .unassignedCode

/-- Major 0x06. -/
def decScupp (w : Nat) : Except DecodeError Instr :=
  .ok (.lea (fnum w 7 6) (fbv w 13 19))

/-- Major 0x04. -/
def decScmul (w : Nat) : Except DecodeError Instr :=
  match fnat w 25 7 with
  | 0 => .ok (.mul (fnum w 7 6) (fnum w 13 6) (fnum w 19 6))
  | 1 => .ok (.mulh (fnum w 7 6) (fnum w 13 6) (fnum w 19 6))
  | 2 => .ok (.mulhu (fnum w 7 6) (fnum w 13 6) (fnum w 19 6))
  | 4 => .ok (.div (fnum w 7 6) (fnum w 13 6) (fnum w 19 6))
  | 5 => .ok (.divu (fnum w 7 6) (fnum w 13 6) (fnum w 19 6))
  | 6 => .ok (.rem (fnum w 7 6) (fnum w 13 6) (fnum w 19 6))
  | 7 => .ok (.remu (fnum w 7 6) (fnum w 13 6) (fnum w 19 6))
  | 16 => needZero (decide (fnat w 19 6 = 0)) (.clz (fnum w 7 6) (fnum w 13 6))
  | 17 => needZero (decide (fnat w 19 6 = 0)) (.ctz (fnum w 7 6) (fnum w 13 6))
  | 18 => needZero (decide (fnat w 19 6 = 0)) (.popc (fnum w 7 6) (fnum w 13 6))
  | _ => .error .unassignedCode

/-- Major 0x08. -/
def decScld (w : Nat) : Except DecodeError Instr :=
  match fnat w 19 3 with
  | 0 => .ok (.lb (fnum w 7 6) (fnum w 13 6) (fbv w 22 10))
  | 1 => .ok (.lh (fnum w 7 6) (fnum w 13 6) (fbv w 22 10))
  | 2 => .ok (.lw (fnum w 7 6) (fnum w 13 6) (fbv w 22 10))
  | 3 => .ok (.ld (fnum w 7 6) (fnum w 13 6) (fbv w 22 10))
  | 4 => .ok (.lbu (fnum w 7 6) (fnum w 13 6) (fbv w 22 10))
  | 5 => .ok (.lhu (fnum w 7 6) (fnum w 13 6) (fbv w 22 10))
  | 6 => .ok (.lwu (fnum w 7 6) (fnum w 13 6) (fbv w 22 10))
  | _ => .error .unassignedCode

/-- Major 0x09. -/
def decScst (w : Nat) : Except DecodeError Instr :=
  match fnat w 19 3 with
  | 0 => .ok (.sb (fnum w 7 6) (fnum w 13 6) (fbv w 22 10))
  | 1 => .ok (.sh (fnum w 7 6) (fnum w 13 6) (fbv w 22 10))
  | 2 => .ok (.sw (fnum w 7 6) (fnum w 13 6) (fbv w 22 10))
  | 3 => .ok (.sd (fnum w 7 6) (fnum w 13 6) (fbv w 22 10))
  | _ => .error .unassignedCode

/-- Major 0x0A. -/
def decScsyn (w : Nat) : Except DecodeError Instr :=
  match fnat w 28 4 with
  | 0 => needZero (decide (fnat w 19 6 = 0)) (.acqld (fnum w 7 6) (fnum w 13 6) (fnum w 25 3))
  | 1 => needZero (decide (fnat w 7 6 = 0)) (.relst (fnum w 13 6) (fnum w 19 6) (fnum w 25 3))
  | 2 => .ok (.rmwAdd (fnum w 7 6) (fnum w 13 6) (fnum w 19 6) (fnum w 25 3))
  | 3 => .ok (.rmwSwap (fnum w 7 6) (fnum w 13 6) (fnum w 19 6) (fnum w 25 3))
  | 4 => .ok (.rmwCas (fnum w 7 6) (fnum w 13 6) (fnum w 19 6) (fnum w 25 3))
  | 5 => .ok (.rmwAnd (fnum w 7 6) (fnum w 13 6) (fnum w 19 6) (fnum w 25 3))
  | 6 => .ok (.rmwOr (fnum w 7 6) (fnum w 13 6) (fnum w 19 6) (fnum w 25 3))
  | 7 => .ok (.rmwXor (fnum w 7 6) (fnum w 13 6) (fnum w 19 6) (fnum w 25 3))
  | 8 => .ok (.rmwMin (fnum w 7 6) (fnum w 13 6) (fnum w 19 6) (fnum w 25 3))
  | 9 => .ok (.rmwMax (fnum w 7 6) (fnum w 13 6) (fnum w 19 6) (fnum w 25 3))
  | 10 => .ok (.rmwMinu (fnum w 7 6) (fnum w 13 6) (fnum w 19 6) (fnum w 25 3))
  | 11 => .ok (.rmwMaxu (fnum w 7 6) (fnum w 13 6) (fnum w 19 6) (fnum w 25 3))
  | _ => .error .unassignedCode

/-- Major 0x0C. -/
def decBr (w : Nat) : Except DecodeError Instr :=
  match fnat w 19 3 with
  | 0 => .ok (.beq (fnum w 7 6) (fnum w 13 6) (fbv w 22 10))
  | 1 => .ok (.bne (fnum w 7 6) (fnum w 13 6) (fbv w 22 10))
  | 2 => .ok (.blt (fnum w 7 6) (fnum w 13 6) (fbv w 22 10))
  | 3 => .ok (.bge (fnum w 7 6) (fnum w 13 6) (fbv w 22 10))
  | 4 => .ok (.bltu (fnum w 7 6) (fnum w 13 6) (fbv w 22 10))
  | 5 => .ok (.bgeu (fnum w 7 6) (fnum w 13 6) (fbv w 22 10))
  | _ => .error .unassignedCode

/-- Major 0x0D. -/
def decJmp (w : Nat) : Except DecodeError Instr :=
  .ok (.jmp (fnum w 7 6) (fbv w 13 19))

/-- Major 0x0E. -/
def decJreg (w : Nat) : Except DecodeError Instr :=
  match fnat w 19 3 with
  | 0 => .ok (.jreg (fnum w 7 6) (fnum w 13 6) (fbv w 22 10))
  | _ => .error .unassignedCode

/-- Major 0x10. -/
def decLoop (w : Nat) : Except DecodeError Instr :=
  .ok (.loop (fnum w 7 6) (fbv w 13 19))

/-- Major 0x11. -/
def decCreg (w : Nat) : Except DecodeError Instr :=
  match fnat w 31 1 with
  | 0 => needZero (decide (fnat w 13 6 = 0)) (.crr (fnum w 7 6) (fbv w 19 12))
  | 1 => .ok (.crw (fnum w 7 6) (fnum w 13 6) (fbv w 19 12))
  | _ => .error .unassignedCode

/-- Major 0x12. -/
noncomputable def decSys (w : Nat) : Except DecodeError Instr :=
  match fnat w 25 7 with
  | 1 => .ok (.wait (fnum w 7 6) (fnum w 13 6) (fnum w 19 6))
  | 2 => needZero (decide (fnat w 7 6 = 0 ∧ fnat w 19 6 = 0)) (.pause (fnum w 13 6))
  | 3 => needZero (decide (fnat w 7 6 = 0 ∧ fnat w 19 6 = 0)) (.trap (fnum w 13 6))
  | 0 => needZero (decide (fnat w 7 18 = 0)) (.endTask)
  | 4 => needZero (decide (fnat w 7 18 = 0)) (.eret)
  | 5 => needZero (decide (fnat w 7 18 = 0)) (.uiret)
  | 6 => needZero (decide (fnat w 7 18 = 0)) (.halt)
  | _ => .error .unassignedCode

/-- Major 0x14. -/
noncomputable def decSync (w : Nat) : Except DecodeError Instr :=
  match fnat w 28 4 with
  | 0 => needZero (decide (fnat w 7 18 = 0)) (.fence (fnum w 25 3))
  | 1 =>
    if fnat w 7 21 = 0 then .ok (.fenceSv)
    else if fnat w 7 21 = 262144 then .ok (.fenceVs)
    else if fnat w 7 21 = 524288 then .ok (.bsync)
    else .error .unassignedCode
  | 2 => needZero (decide (fnat w 7 21 = 0)) (.barb)
  | _ => .error .unassignedCode

/-- Major 0x15. -/
noncomputable def decTask (w : Nat) : Except DecodeError Instr :=
  match fnat w 25 7 with
  | 0 => needZero (decide (fnat w 19 6 = 0)) (.launch (fnum w 7 6) (fnum w 13 6))
  | 1 => needZero (decide (fnat w 7 6 = 0 ∧ fnat w 19 6 = 0)) (.split (fnum w 13 6))
  | 3 => needZero (decide (fnat w 7 6 = 0)) (.vfetch (fnum w 13 6) (fnum w 19 6))
  | 2 => needZero (decide (fnat w 7 18 = 0)) (.join)
  | _ => .error .unassignedCode

/-- Major 0x18. -/
noncomputable def decPriv (w : Nat) : Except DecodeError Instr :=
  match fnat w 25 7 with
  | 0 => needZero (decide (fnat w 7 6 = 0)) (.tlbiVA (fnum w 13 6) (fnum w 19 6))
  | 1 => needZero (decide (fnat w 7 6 = 0 ∧ fnat w 19 6 = 0)) (.tlbiAS (fnum w 13 6))
  | 8 => needZero (decide (fnat w 19 6 = 0)) (.wayset (fnum w 7 6) (fnum w 13 6))
  | 2 => needZero (decide (fnat w 7 18 = 0)) (.tlbiAll)
  | _ => .error .unassignedCode

/-- Major 0x16. -/
noncomputable def decQueue (w : Nat) : Except DecodeError Instr :=
  match fnat w 26 6 with
  | 0 => needZero (decide (fnat w 7 6 = 0 ∧ fnat w 19 6 = 0)) (.qpush (fnum w 13 6) (fbit w 25))
  | 1 => needZero (decide (fnat w 13 12 = 0)) (.qpop (fnum w 7 6) (fbit w 25))
  | 2 => needZero (decide (fnat w 13 12 = 0)) (.qpopNB (fnum w 7 6) (fbit w 25))
  | 3 => needZero (decide (fnat w 13 12 = 0)) (.qstat (fnum w 7 6) (fbit w 25))
  | _ => .error .unassignedCode

/-- Major 0x05. -/
noncomputable def decScfp (w : Nat) : Except DecodeError Instr :=
  match fnat w 25 7 with
  | 0 => .ok (.sfaddF32 (fnum w 7 6) (fnum w 13 6) (fnum w 19 6))
  | 1 => .ok (.sfsubF32 (fnum w 7 6) (fnum w 13 6) (fnum w 19 6))
  | 2 => .ok (.sfmulF32 (fnum w 7 6) (fnum w 13 6) (fnum w 19 6))
  | 3 => .ok (.sfdivF32 (fnum w 7 6) (fnum w 13 6) (fnum w 19 6))
  | 4 => needZero (decide (fnat w 19 6 = 0)) (.sfsqrtF32 (fnum w 7 6) (fnum w 13 6))
  | 5 => .ok (.sfminF32 (fnum w 7 6) (fnum w 13 6) (fnum w 19 6))
  | 6 => .ok (.sfmaxF32 (fnum w 7 6) (fnum w 13 6) (fnum w 19 6))
  | 7 => .ok (.sfcmpEqF32 (fnum w 7 6) (fnum w 13 6) (fnum w 19 6))
  | 8 => .ok (.sfcmpLtF32 (fnum w 7 6) (fnum w 13 6) (fnum w 19 6))
  | 9 => .ok (.sfcmpLeF32 (fnum w 7 6) (fnum w 13 6) (fnum w 19 6))
  | 10 => needZero (decide (fnat w 19 6 = 0)) (.sfcvtF32I64 (fnum w 7 6) (fnum w 13 6))
  | 11 => needZero (decide (fnat w 19 6 = 0)) (.sfcvtI64F32 (fnum w 7 6) (fnum w 13 6))
  | 16 => needZero (decide (fnat w 19 6 = 0)) (.sfcvtF32F64 (fnum w 7 6) (fnum w 13 6))
  | 17 => needZero (decide (fnat w 19 6 = 0)) (.sfcvtF64F32 (fnum w 7 6) (fnum w 13 6))
  | 32 => .ok (.sfaddF64 (fnum w 7 6) (fnum w 13 6) (fnum w 19 6))
  | 33 => .ok (.sfsubF64 (fnum w 7 6) (fnum w 13 6) (fnum w 19 6))
  | 34 => .ok (.sfmulF64 (fnum w 7 6) (fnum w 13 6) (fnum w 19 6))
  | 35 => .ok (.sfdivF64 (fnum w 7 6) (fnum w 13 6) (fnum w 19 6))
  | 36 => needZero (decide (fnat w 19 6 = 0)) (.sfsqrtF64 (fnum w 7 6) (fnum w 13 6))
  | 37 => .ok (.sfminF64 (fnum w 7 6) (fnum w 13 6) (fnum w 19 6))
  | 38 => .ok (.sfmaxF64 (fnum w 7 6) (fnum w 13 6) (fnum w 19 6))
  | 39 => .ok (.sfcmpEqF64 (fnum w 7 6) (fnum w 13 6) (fnum w 19 6))
  | 40 => .ok (.sfcmpLtF64 (fnum w 7 6) (fnum w 13 6) (fnum w 19 6))
  | 41 => .ok (.sfcmpLeF64 (fnum w 7 6) (fnum w 13 6) (fnum w 19 6))
  | 42 => needZero (decide (fnat w 19 6 = 0)) (.sfcvtF64I64 (fnum w 7 6) (fnum w 13 6))
  | 43 => needZero (decide (fnat w 19 6 = 0)) (.sfcvtI64F64 (fnum w 7 6) (fnum w 13 6))
  | _ => .error .unassignedCode

/-- The instruction that the bits `w` spell, by major opcode, before the range checks of its fields. For a 32-bit major only bits
[31:0] of `w` are given. -/
noncomputable def decodeRaw (w : Nat) : Except DecodeError Instr :=
  match w % 128 with
  | 32 => decRow w
  | 35 => decRowl w
  | 34 => decCrown w
  | 48 => decVarith w
  | 49 => decVscal w
  | 50 => decVimm w
  | 51 => decVext w
  | 52 => decVcmp w
  | 53 => decVlog w
  | 54 => decVconf w
  | 55 => decVmath w
  | 56 => decVperm w
  | 57 => decVred w
  | 58 => decVmask w
  | 59 => decVtab w
  | 60 => decVplane w
  | 64 => decMat w
  | 67 => decPin w
  | 80 => decGal w
  | 81 => decCmaint w
  | 83 => decFar w
  | 87 => decFatom w
  | 1 => decScalu w
  | 2 => decScali w
  | 3 => decSclit w
  | 6 => decScupp w
  | 4 => decScmul w
  | 8 => decScld w
  | 9 => decScst w
  | 10 => decScsyn w
  | 12 => decBr w
  | 13 => decJmp w
  | 14 => decJreg w
  | 16 => decLoop w
  | 17 => decCreg w
  | 18 => decSys w
  | 20 => decSync w
  | 21 => decTask w
  | 24 => decPriv w
  | 22 => decQueue w
  | 5 => decScfp w
  | 112 => decHint70 w
  | m => if hintMajor m then .ok (.hint (decide (m % 4 = 3)) (BitVec.ofNat 64 w)) else .error .illegalMajor

/-- Decoding one instruction from its bits: the fields, then the range checks (02:R35 check 2). -/
noncomputable def decodeBits (w : Nat) : Except DecodeError Instr :=
  match decodeRaw w with
  | .ok i => if i.wf then .ok i else .error .fieldValue
  | .error e => .error e

/-- The little-endian number of a list of bytes (00:R7). -/
def bytesToNat : List Byte → Nat
  | [] => 0
  | b :: bs => b.toNat + 256 * bytesToNat bs

/-- `n` bytes of a number, least significant first (00:R7). -/
def natToBytes : Nat → Nat → List Byte
  | 0, _ => []
  | n + 1, v => BitVec.ofNat 8 v :: natToBytes n (v / 256)

/-- Decoding total on any bytes: the instruction and the bytes after it. Bits [1:0] = 0b11 of the first byte call for 64 bits
(02:R33). -/
noncomputable def decode (bs : List Byte) : Except DecodeError (Instr × List Byte) :=
  match bs with
  | [] => .error .truncated
  | b :: _ =>
    let n := if b.toNat % 4 = 3 then 8 else 4
    if bs.length < n then .error .truncated
    else
      match decodeBits (bytesToNat (bs.take n)) with
      | .ok i => .ok (i, bs.drop n)
      | .error e => .error e

/-- The host's question: what the decoder reads from an instruction whose bits are `w` (bit 0 the lowest of the first word). -/
noncomputable def decodeTableWord (nbits w : Nat) : Option Instr :=
  match decode (natToBytes (Nat.max 8 (nbits / 8)) (w % 2 ^ nbits)) with
  | .ok (i, _) => some i
  | .error _ => none

/-- The fields of a word put in their places: the fixed bits and `v * 2^lo` for each field. -/
def packed (m : Nat) : List (Nat × Nat) → Nat
  | [] => m
  | (v, lo) :: t => v * 2 ^ lo + packed m t

/-- The encoder: the bits of an instruction that has an encoding, 0 for the steps that have none. An illegal instruction and a
hint keep their own bits. -/
def encode : Instr → Nat
  | .hintCpf n => packed 0x10000070 [(n.toNat, 7)]
  | .hint _ bits => bits.toNat
  | .illegalInstruction bits => bits.toNat
  | .complementPair _ _ => 0
  | .act k t r => packed 0x20 [(k.val, 7), (t.val, 11), (r.toNat, 15)]
  | .actIndexed k t x i => packed 0x8000020 [(k.val, 7), (t.val, 11), (x.val, 15), (i.toNat, 20)]
  | .wbk k => packed 0x10000020 [(k.val, 7)]
  | .pre k => packed 0x20000020 [(k.val, 7)]
  | .preD k => packed 0x30000020 [(k.val, 7)]
  | .ref k => packed 0x50000020 [(k.val, 7)]
  | .refQ d k => packed 0x60000020 [(d.val, 15), (k.val, 7)]
  | .rstat d k => packed 0x70000020 [(d.val, 15), (k.val, 7)]
  | .rclone k xd rowd xs rows => packed 0x23 [(k.val, 7), (bnat xd, 27), (rowd.toNat, 15), (bnat xs, 63), (rows.toNat, 51)]
  | .rzero k xd rowd => packed 0x10000023 [(k.val, 7), (bnat xd, 27), (rowd.toNat, 15)]
  | .cld d b m => packed 0x22 [(d.val, 7), (b.val, 15), (m.val, 20)]
  | .cst s b m => packed 0x2000022 [(s.val, 7), (b.val, 15), (m.val, 20)]
  | .vaddVV d a b m cp => packed 0x30 [(d.val, 7), (a.val, 11), (b.val, 15), (m.val, 19), (bnat cp, 23)]
  | .vsubVV d a b m cp => packed 0x1000030 [(d.val, 7), (a.val, 11), (b.val, 15), (m.val, 19), (bnat cp, 23)]
  | .vmulVV d a b m cp => packed 0x2000030 [(d.val, 7), (a.val, 11), (b.val, 15), (m.val, 19), (bnat cp, 23)]
  | .vminVV d a b m cp => packed 0x3000030 [(d.val, 7), (a.val, 11), (b.val, 15), (m.val, 19), (bnat cp, 23)]
  | .vmaxVV d a b m cp => packed 0x4000030 [(d.val, 7), (a.val, 11), (b.val, 15), (m.val, 19), (bnat cp, 23)]
  | .vabs d a m cp => packed 0x5000030 [(d.val, 7), (a.val, 11), (m.val, 19), (bnat cp, 23)]
  | .vneg d a m cp => packed 0x6000030 [(d.val, 7), (a.val, 11), (m.val, 19), (bnat cp, 23)]
  | .vaddSVV d a b m cp => packed 0x7000030 [(d.val, 7), (a.val, 11), (b.val, 15), (m.val, 19), (bnat cp, 23)]
  | .vsubSVV d a b m cp => packed 0x8000030 [(d.val, 7), (a.val, 11), (b.val, 15), (m.val, 19), (bnat cp, 23)]
  | .vaddVX d a x m cp => packed 0x31 [(d.val, 7), (a.val, 11), (x.val, 15), (m.val, 20), (bnat cp, 24)]
  | .vsubVX d a x m cp => packed 0x2000031 [(d.val, 7), (a.val, 11), (x.val, 15), (m.val, 20), (bnat cp, 24)]
  | .vmulVX d a x m cp => packed 0x4000031 [(d.val, 7), (a.val, 11), (x.val, 15), (m.val, 20), (bnat cp, 24)]
  | .vminVX d a x m cp => packed 0x6000031 [(d.val, 7), (a.val, 11), (x.val, 15), (m.val, 20), (bnat cp, 24)]
  | .vmaxVX d a x m cp => packed 0x8000031 [(d.val, 7), (a.val, 11), (x.val, 15), (m.val, 20), (bnat cp, 24)]
  | .vaddSVX d a x m cp => packed 0xe000031 [(d.val, 7), (a.val, 11), (x.val, 15), (m.val, 20), (bnat cp, 24)]
  | .vsubSVX d a x m cp => packed 0x10000031 [(d.val, 7), (a.val, 11), (x.val, 15), (m.val, 20), (bnat cp, 24)]
  | .vaddVI d a i m cp => packed 0x32 [(d.val, 7), (a.val, 11), (i.toNat, 15), (m.val, 23), (bnat cp, 27)]
  | .vsubVI d a i m cp => packed 0x10000032 [(d.val, 7), (a.val, 11), (i.toNat, 15), (m.val, 23), (bnat cp, 27)]
  | .vrsub d a i m cp => packed 0x20000032 [(d.val, 7), (a.val, 11), (i.toNat, 15), (m.val, 23), (bnat cp, 27)]
  | .vmulVI d a i m cp => packed 0x30000032 [(d.val, 7), (a.val, 11), (i.toNat, 15), (m.val, 23), (bnat cp, 27)]
  | .vminVI d a i m cp => packed 0x40000032 [(d.val, 7), (a.val, 11), (i.toNat, 15), (m.val, 23), (bnat cp, 27)]
  | .vmaxVI d a i m cp => packed 0x50000032 [(d.val, 7), (a.val, 11), (i.toNat, 15), (m.val, 23), (bnat cp, 27)]
  | .vsllVI d a i m cp => packed 0x60000032 [(d.val, 7), (a.val, 11), (i.toNat, 15), (m.val, 23), (bnat cp, 27)]
  | .vsrlVI d a i m cp => packed 0x70000032 [(d.val, 7), (a.val, 11), (i.toNat, 15), (m.val, 23), (bnat cp, 27)]
  | .vsraVI d a i m cp => packed 0x80000032 [(d.val, 7), (a.val, 11), (i.toNat, 15), (m.val, 23), (bnat cp, 27)]
  | .vandVI d a i m cp => packed 0x90000032 [(d.val, 7), (a.val, 11), (i.toNat, 15), (m.val, 23), (bnat cp, 27)]
  | .vorVI d a i m cp => packed 0xa0000032 [(d.val, 7), (a.val, 11), (i.toNat, 15), (m.val, 23), (bnat cp, 27)]
  | .vxorVI d a i m cp => packed 0xb0000032 [(d.val, 7), (a.val, 11), (i.toNat, 15), (m.val, 23), (bnat cp, 27)]
  | .vfma d a b c rm m cp => packed 0x33 [(d.val, 7), (a.val, 11), (b.val, 15), (c.val, 43), (rm.val, 48), (m.val, 19), (bnat cp, 23)]
  | .vfms d a b c rm m cp => packed 0x1000033 [(d.val, 7), (a.val, 11), (b.val, 15), (c.val, 43), (rm.val, 48), (m.val, 19), (bnat cp, 23)]
  | .vfmaX d a x c rm m cp => packed 0x2000033 [(d.val, 7), (a.val, 11), (x.val, 51), (c.val, 43), (rm.val, 48), (m.val, 19), (bnat cp, 23)]
  | .vfmsX d a x c rm m cp => packed 0x3000033 [(d.val, 7), (a.val, 11), (x.val, 51), (c.val, 43), (rm.val, 48), (m.val, 19), (bnat cp, 23)]
  | .vcvt d a i rm sat m cp => packed 0x20000033 [(d.val, 7), (a.val, 11), (i.toNat, 56), (rm.val, 48), (bnat sat, 47), (m.val, 19), (bnat cp, 23)]
  | .vcvtMX d a b i rm sat m cp => packed 0x21000033 [(d.val, 7), (a.val, 11), (b.val, 15), (i.toNat, 56), (rm.val, 48), (bnat sat, 47), (m.val, 19), (bnat cp, 23)]
  | .vqntMX d a b i rm sat m cp => packed 0x22000033 [(d.val, 7), (a.val, 11), (b.val, 15), (i.toNat, 56), (rm.val, 48), (bnat sat, 47), (m.val, 19), (bnat cp, 23)]
  | .vaddRm d a b rm m cp => packed 0x40000033 [(d.val, 7), (a.val, 11), (b.val, 15), (rm.val, 48), (m.val, 19), (bnat cp, 23)]
  | .vsubRm d a b rm m cp => packed 0x41000033 [(d.val, 7), (a.val, 11), (b.val, 15), (rm.val, 48), (m.val, 19), (bnat cp, 23)]
  | .vmulRm d a b rm m cp => packed 0x42000033 [(d.val, 7), (a.val, 11), (b.val, 15), (rm.val, 48), (m.val, 19), (bnat cp, 23)]
  | .vcmpEq d a b m => packed 0x34 [(d.val, 7), (a.val, 11), (b.val, 15), (m.val, 19)]
  | .vcmpNe d a b m => packed 0x1000034 [(d.val, 7), (a.val, 11), (b.val, 15), (m.val, 19)]
  | .vcmpLt d a b m => packed 0x2000034 [(d.val, 7), (a.val, 11), (b.val, 15), (m.val, 19)]
  | .vcmpLe d a b m => packed 0x3000034 [(d.val, 7), (a.val, 11), (b.val, 15), (m.val, 19)]
  | .vcmpGt d a b m => packed 0x4000034 [(d.val, 7), (a.val, 11), (b.val, 15), (m.val, 19)]
  | .vcmpGe d a b m => packed 0x5000034 [(d.val, 7), (a.val, 11), (b.val, 15), (m.val, 19)]
  | .vcmpUn d a b m => packed 0x6000034 [(d.val, 7), (a.val, 11), (b.val, 15), (m.val, 19)]
  | .vcmpOr d a b m => packed 0x7000034 [(d.val, 7), (a.val, 11), (b.val, 15), (m.val, 19)]
  | .vandVV d a b m cp => packed 0x35 [(d.val, 7), (a.val, 11), (b.val, 15), (m.val, 19), (bnat cp, 23)]
  | .vorVV d a b m cp => packed 0x1000035 [(d.val, 7), (a.val, 11), (b.val, 15), (m.val, 19), (bnat cp, 23)]
  | .vxorVV d a b m cp => packed 0x2000035 [(d.val, 7), (a.val, 11), (b.val, 15), (m.val, 19), (bnat cp, 23)]
  | .vandn d a b m cp => packed 0x3000035 [(d.val, 7), (a.val, 11), (b.val, 15), (m.val, 19), (bnat cp, 23)]
  | .vnot d a m cp => packed 0x4000035 [(d.val, 7), (a.val, 11), (m.val, 19), (bnat cp, 23)]
  | .vsllVV d a b m cp => packed 0x8000035 [(d.val, 7), (a.val, 11), (b.val, 15), (m.val, 19), (bnat cp, 23)]
  | .vsrlVV d a b m cp => packed 0x9000035 [(d.val, 7), (a.val, 11), (b.val, 15), (m.val, 19), (bnat cp, 23)]
  | .vsraVV d a b m cp => packed 0xa000035 [(d.val, 7), (a.val, 11), (b.val, 15), (m.val, 19), (bnat cp, 23)]
  | .vsel d a b m => packed 0x10000035 [(d.val, 7), (a.val, 11), (b.val, 15), (m.val, 19)]
  | .setvl d k t a => packed 0x36 [(d.val, 7), (k.val, 23), (t.val, 19), (a.val, 13)]
  | .vcfg d t => packed 0x10000036 [(d.val, 7), (t.val, 19)]
  | .vsplat d a => packed 0x20000036 [(d.val, 7), (a.val, 13)]
  | .viota d a => packed 0x30000036 [(d.val, 7), (a.val, 13)]
  | .vmovms d o m => packed 0x40000036 [(d.val, 7), (o.toNat, 23), (m.val, 13)]
  | .vmovsm a m => packed 0x50000036 [(a.val, 13), (m.val, 7)]
  | .vdiv d a b rm m => packed 0x37 [(d.val, 7), (a.val, 11), (b.val, 15), (rm.val, 48), (m.val, 19)]
  | .vrem d a b m => packed 0x1000037 [(d.val, 7), (a.val, 11), (b.val, 15), (m.val, 19)]
  | .vsqrt d a rm m => packed 0x2000037 [(d.val, 7), (a.val, 11), (rm.val, 48), (m.val, 19)]
  | .vrsqrte d a m => packed 0x3000037 [(d.val, 7), (a.val, 11), (m.val, 19)]
  | .vexp2e d a m => packed 0x4000037 [(d.val, 7), (a.val, 11), (m.val, 19)]
  | .vpick d a b m => packed 0x38 [(d.val, 7), (a.val, 11), (b.val, 15), (m.val, 19)]
  | .vpack d a m => packed 0x1000038 [(d.val, 7), (a.val, 11), (m.val, 19)]
  | .vspread d a m => packed 0x2000038 [(d.val, 7), (a.val, 11), (m.val, 19)]
  | .vmovup d a x m => packed 0x8000038 [(d.val, 7), (a.val, 11), (x.val, 15), (m.val, 19)]
  | .vmovdn d a x m => packed 0x9000038 [(d.val, 7), (a.val, 11), (x.val, 15), (m.val, 19)]
  | .vpushlo d a x m => packed 0xa000038 [(d.val, 7), (a.val, 11), (x.val, 15), (m.val, 19)]
  | .vpushhi d a x m => packed 0xb000038 [(d.val, 7), (a.val, 11), (x.val, 15), (m.val, 19)]
  | .vtotal d a m => packed 0x39 [(d.val, 7), (a.val, 11), (m.val, 19)]
  | .vtotalSeq d a m => packed 0x1000039 [(d.val, 7), (a.val, 11), (m.val, 19)]
  | .vleast d a m => packed 0x2000039 [(d.val, 7), (a.val, 11), (m.val, 19)]
  | .vmost d a m => packed 0x3000039 [(d.val, 7), (a.val, 11), (m.val, 19)]
  | .vband d a m => packed 0x4000039 [(d.val, 7), (a.val, 11), (m.val, 19)]
  | .vbor d a m => packed 0x5000039 [(d.val, 7), (a.val, 11), (m.val, 19)]
  | .vbxor d a m => packed 0x6000039 [(d.val, 7), (a.val, 11), (m.val, 19)]
  | .vtotalMX d a b m => packed 0x8000039 [(d.val, 7), (a.val, 11), (b.val, 15), (m.val, 19)]
  | .mkand d a b => packed 0x3a [(d.val, 7), (a.val, 11), (b.val, 15)]
  | .mkor d a b => packed 0x100003a [(d.val, 7), (a.val, 11), (b.val, 15)]
  | .mkxor d a b => packed 0x200003a [(d.val, 7), (a.val, 11), (b.val, 15)]
  | .mkandn d a b => packed 0x300003a [(d.val, 7), (a.val, 11), (b.val, 15)]
  | .mknot d a => packed 0x400003a [(d.val, 7), (a.val, 11)]
  | .mkbelow d a => packed 0x800003a [(d.val, 7), (a.val, 11)]
  | .mkupto d a => packed 0x900003a [(d.val, 7), (a.val, 11)]
  | .mkfirst d a => packed 0xa00003a [(d.val, 7), (a.val, 11)]
  | .vlut d a b i m => packed 0x3b [(d.val, 7), (a.val, 11), (b.val, 15), (i.toNat, 56), (m.val, 19)]
  | .vhad d a i p rm sat m => packed 0x100003b [(d.val, 7), (a.val, 11), (i.toNat, 56), (p.val, 43), (rm.val, 48), (bnat sat, 47), (m.val, 19)]
  | .vpcfg d a b sgn => packed 0x3c [(d.val, 7), (a.val, 11), (b.val, 15), (bnat sgn, 19)]
  | .vpadd d a b m => packed 0x100003c [(d.val, 7), (a.val, 11), (b.val, 15), (m.val, 19)]
  | .vpsub d a b m => packed 0x200003c [(d.val, 7), (a.val, 11), (b.val, 15), (m.val, 19)]
  | .vpmul d a b m => packed 0x300003c [(d.val, 7), (a.val, 11), (b.val, 15), (m.val, 19)]
  | .vpcmpEq d a b m => packed 0x400003c [(d.val, 7), (a.val, 11), (b.val, 15), (m.val, 19)]
  | .vpcmpNe d a b m => packed 0x500003c [(d.val, 7), (a.val, 11), (b.val, 15), (m.val, 19)]
  | .vpcmpLt d a b m => packed 0x600003c [(d.val, 7), (a.val, 11), (b.val, 15), (m.val, 19)]
  | .vpcmpLe d a b m => packed 0x700003c [(d.val, 7), (a.val, 11), (b.val, 15), (m.val, 19)]
  | .vpcmpGt d a b m => packed 0x800003c [(d.val, 7), (a.val, 11), (b.val, 15), (m.val, 19)]
  | .vpcmpGe d a b m => packed 0x900003c [(d.val, 7), (a.val, 11), (b.val, 15), (m.val, 19)]
  | .vpsll d a c m => packed 0xa00003c [(d.val, 7), (a.val, 11), (c.val, 15), (m.val, 19)]
  | .vpsrl d a c m => packed 0xb00003c [(d.val, 7), (a.val, 11), (c.val, 15), (m.val, 19)]
  | .vpsra d a c m => packed 0xc00003c [(d.val, 7), (a.val, 11), (c.val, 15), (m.val, 19)]
  | .vpcnt d a m => packed 0xd00003c [(d.val, 7), (a.val, 11), (m.val, 19)]
  | .vtrp d a p m => packed 0x1000003c [(d.val, 7), (a.val, 11), (p.val, 15), (m.val, 19)]
  | .vtrw d a p m => packed 0x1100003c [(d.val, 7), (a.val, 11), (p.val, 15), (m.val, 19)]
  | .mzero t => packed 0x40 [(t.val, 7)]
  | .mopa t a b m ck => packed 0x1000040 [(t.val, 7), (a.val, 11), (b.val, 15), (m.val, 19), (bnat ck, 23)]
  | .mops t a b m ck => packed 0x2000040 [(t.val, 7), (a.val, 11), (b.val, 15), (m.val, 19), (bnat ck, 23)]
  | .mopaMX s t a b => packed 0x3000040 [(s.val, 19), (t.val, 7), (a.val, 11), (b.val, 15)]
  | .mopsMX s t a b => packed 0x4000040 [(s.val, 19), (t.val, 7), (a.val, 11), (b.val, 15)]
  | .mld t a b => packed 0x8000040 [(t.val, 7), (a.val, 11), (b.val, 15)]
  | .mldP t a b => packed 0x9000040 [(t.val, 7), (a.val, 11), (b.val, 15)]
  | .mst t a b => packed 0xa000040 [(t.val, 9), (a.val, 11), (b.val, 15)]
  | .mstP t a b => packed 0xb000040 [(t.val, 9), (a.val, 11), (b.val, 15)]
  | .mscale t a => packed 0x10000040 [(t.val, 7), (a.val, 11)]
  | .mchk t => packed 0x11000040 [(t.val, 7)]
  | .pexp d a i S m => packed 0x43 [(d.val, 7), (a.val, 11), (i.toNat, 56), (S.val, 53), (m.val, 19)]
  | .psplit d a c i S m => packed 0x1000043 [(d.val, 7), (a.val, 11), (c.val, 44), (i.toNat, 56), (S.val, 53), (m.val, 19)]
  | .pmma tp ti a b c e S full ck m => packed 0x2000043 [(bnat tp, 51), (ti.val, 48), (a.val, 11), (b.val, 15), (c.val, 44), (e.val, 40), (S.val, 53), (bnat full, 52), (bnat ck, 23), (m.val, 19)]
  | .pfold tp ti c e i => packed 0x3000043 [(bnat tp, 51), (ti.val, 48), (c.val, 44), (e.val, 40), (i.toNat, 56)]
  | .grot d a n m => packed 0x50 [(d.val, 7), (a.val, 11), (n.toNat, 15), (m.val, 23)]
  | .gbcast d a q m => packed 0x10000050 [(d.val, 7), (a.val, 11), (q.toNat, 15), (m.val, 23)]
  | .gperm d a x m => packed 0x20000050 [(d.val, 7), (a.val, 11), (x.val, 15), (m.val, 23)]
  | .gxch d a n m => packed 0x30000050 [(d.val, 7), (a.val, 11), (n.toNat, 15), (m.val, 23)]
  | .gredSum d a m => packed 0x40000050 [(d.val, 7), (a.val, 11), (m.val, 23)]
  | .gredMin d a m => packed 0x40008050 [(d.val, 7), (a.val, 11), (m.val, 23)]
  | .gredMax d a m => packed 0x40010050 [(d.val, 7), (a.val, 11), (m.val, 23)]
  | .gredAnd d a m => packed 0x40018050 [(d.val, 7), (a.val, 11), (m.val, 23)]
  | .gredOr d a m => packed 0x40020050 [(d.val, 7), (a.val, 11), (m.val, 23)]
  | .gredXor d a m => packed 0x40028050 [(d.val, 7), (a.val, 11), (m.val, 23)]
  | .cwb a b => packed 0x51 [(a.val, 13), (b.val, 19)]
  | .cwbi a b => packed 0x2000051 [(a.val, 13), (b.val, 19)]
  | .cinv a b => packed 0x4000051 [(a.val, 13), (b.val, 19)]
  | .farLd d x off esz ord sc m => packed 0x53 [(d.val, 7), (x.val, 59), (off.toNat, 32), (esz.val, 52), (ord.val, 54), (sc.val, 56), (m.val, 19)]
  | .farSt a x off esz ord sc nr m => packed 0x1000053 [(a.val, 11), (x.val, 59), (off.toNat, 32), (esz.val, 52), (ord.val, 54), (sc.val, 56), (bnat nr, 23), (m.val, 19)]
  | .farGather d x off b esz ord sc m => packed 0x2000053 [(d.val, 7), (x.val, 59), (off.toNat, 32), (b.val, 15), (esz.val, 52), (ord.val, 54), (sc.val, 56), (m.val, 19)]
  | .farScatter a x off b esz ord sc nr m => packed 0x3000053 [(a.val, 11), (x.val, 59), (off.toNat, 32), (b.val, 15), (esz.val, 52), (ord.val, 54), (sc.val, 56), (bnat nr, 23), (m.val, 19)]
  | .farScadd a x off b esz ord sc nr m => packed 0x4000053 [(a.val, 11), (x.val, 59), (off.toNat, 32), (b.val, 15), (esz.val, 52), (ord.val, 54), (sc.val, 56), (bnat nr, 23), (m.val, 19)]
  | .farAdd d a x off b esz ord sc nr m => packed 0x57 [(d.val, 7), (a.val, 11), (x.val, 59), (off.toNat, 32), (b.val, 15), (esz.val, 52), (ord.val, 54), (sc.val, 56), (bnat nr, 23), (m.val, 19)]
  | .farFadd d a x off b esz ord sc nr m => packed 0x1000057 [(d.val, 7), (a.val, 11), (x.val, 59), (off.toNat, 32), (b.val, 15), (esz.val, 52), (ord.val, 54), (sc.val, 56), (bnat nr, 23), (m.val, 19)]
  | .farMin d a x off b esz ord sc nr m => packed 0x2000057 [(d.val, 7), (a.val, 11), (x.val, 59), (off.toNat, 32), (b.val, 15), (esz.val, 52), (ord.val, 54), (sc.val, 56), (bnat nr, 23), (m.val, 19)]
  | .farMax d a x off b esz ord sc nr m => packed 0x3000057 [(d.val, 7), (a.val, 11), (x.val, 59), (off.toNat, 32), (b.val, 15), (esz.val, 52), (ord.val, 54), (sc.val, 56), (bnat nr, 23), (m.val, 19)]
  | .farMinu d a x off b esz ord sc nr m => packed 0x4000057 [(d.val, 7), (a.val, 11), (x.val, 59), (off.toNat, 32), (b.val, 15), (esz.val, 52), (ord.val, 54), (sc.val, 56), (bnat nr, 23), (m.val, 19)]
  | .farMaxu d a x off b esz ord sc nr m => packed 0x5000057 [(d.val, 7), (a.val, 11), (x.val, 59), (off.toNat, 32), (b.val, 15), (esz.val, 52), (ord.val, 54), (sc.val, 56), (bnat nr, 23), (m.val, 19)]
  | .farAnd d a x off b esz ord sc nr m => packed 0x6000057 [(d.val, 7), (a.val, 11), (x.val, 59), (off.toNat, 32), (b.val, 15), (esz.val, 52), (ord.val, 54), (sc.val, 56), (bnat nr, 23), (m.val, 19)]
  | .farOr d a x off b esz ord sc nr m => packed 0x7000057 [(d.val, 7), (a.val, 11), (x.val, 59), (off.toNat, 32), (b.val, 15), (esz.val, 52), (ord.val, 54), (sc.val, 56), (bnat nr, 23), (m.val, 19)]
  | .farXor d a x off b esz ord sc nr m => packed 0x8000057 [(d.val, 7), (a.val, 11), (x.val, 59), (off.toNat, 32), (b.val, 15), (esz.val, 52), (ord.val, 54), (sc.val, 56), (bnat nr, 23), (m.val, 19)]
  | .farSwap d a x off b esz ord sc nr m => packed 0x9000057 [(d.val, 7), (a.val, 11), (x.val, 59), (off.toNat, 32), (b.val, 15), (esz.val, 52), (ord.val, 54), (sc.val, 56), (bnat nr, 23), (m.val, 19)]
  | .farCas d a x off b esz ord sc nr m => packed 0xa000057 [(d.val, 7), (a.val, 11), (x.val, 59), (off.toNat, 32), (b.val, 15), (esz.val, 52), (ord.val, 54), (sc.val, 56), (bnat nr, 23), (m.val, 19)]
  | .add d a b => packed 0x1 [(d.val, 7), (a.val, 13), (b.val, 19)]
  | .sub d a b => packed 0x2000001 [(d.val, 7), (a.val, 13), (b.val, 19)]
  | .and d a b => packed 0x4000001 [(d.val, 7), (a.val, 13), (b.val, 19)]
  | .or d a b => packed 0x6000001 [(d.val, 7), (a.val, 13), (b.val, 19)]
  | .xor d a b => packed 0x8000001 [(d.val, 7), (a.val, 13), (b.val, 19)]
  | .andn d a b => packed 0xa000001 [(d.val, 7), (a.val, 13), (b.val, 19)]
  | .sll d a b => packed 0xc000001 [(d.val, 7), (a.val, 13), (b.val, 19)]
  | .srl d a b => packed 0xe000001 [(d.val, 7), (a.val, 13), (b.val, 19)]
  | .sra d a b => packed 0x10000001 [(d.val, 7), (a.val, 13), (b.val, 19)]
  | .ror d a b => packed 0x12000001 [(d.val, 7), (a.val, 13), (b.val, 19)]
  | .min d a b => packed 0x14000001 [(d.val, 7), (a.val, 13), (b.val, 19)]
  | .max d a b => packed 0x16000001 [(d.val, 7), (a.val, 13), (b.val, 19)]
  | .minu d a b => packed 0x18000001 [(d.val, 7), (a.val, 13), (b.val, 19)]
  | .maxu d a b => packed 0x1a000001 [(d.val, 7), (a.val, 13), (b.val, 19)]
  | .seq d a b => packed 0x20000001 [(d.val, 7), (a.val, 13), (b.val, 19)]
  | .sne d a b => packed 0x22000001 [(d.val, 7), (a.val, 13), (b.val, 19)]
  | .slt d a b => packed 0x24000001 [(d.val, 7), (a.val, 13), (b.val, 19)]
  | .sltu d a b => packed 0x26000001 [(d.val, 7), (a.val, 13), (b.val, 19)]
  | .sge d a b => packed 0x28000001 [(d.val, 7), (a.val, 13), (b.val, 19)]
  | .sgeu d a b => packed 0x2a000001 [(d.val, 7), (a.val, 13), (b.val, 19)]
  | .addi d a i => packed 0x2 [(d.val, 7), (a.val, 13), (i.toNat, 22)]
  | .andi d a i => packed 0x80002 [(d.val, 7), (a.val, 13), (i.toNat, 22)]
  | .ori d a i => packed 0x100002 [(d.val, 7), (a.val, 13), (i.toNat, 22)]
  | .xori d a i => packed 0x180002 [(d.val, 7), (a.val, 13), (i.toNat, 22)]
  | .slli d a i => packed 0x200002 [(d.val, 7), (a.val, 13), (i.toNat, 22)]
  | .srli d a i => packed 0x280002 [(d.val, 7), (a.val, 13), (i.toNat, 22)]
  | .srai d a i => packed 0x300002 [(d.val, 7), (a.val, 13), (i.toNat, 22)]
  | .slti d a i => packed 0x380002 [(d.val, 7), (a.val, 13), (i.toNat, 22)]
  | .li d imm => packed 0x3 [(d.val, 7), (imm.toNat, 32)]
  | .liu d imm => packed 0x20000003 [(d.val, 7), (imm.toNat, 32)]
  | .lih d imm => packed 0x40000003 [(d.val, 7), (imm.toNat, 32)]
  | .addil d imm => packed 0x60000003 [(d.val, 7), (imm.toNat, 32)]
  | .lea d i => packed 0x6 [(d.val, 7), (i.toNat, 13)]
  | .mul d a b => packed 0x4 [(d.val, 7), (a.val, 13), (b.val, 19)]
  | .mulh d a b => packed 0x2000004 [(d.val, 7), (a.val, 13), (b.val, 19)]
  | .mulhu d a b => packed 0x4000004 [(d.val, 7), (a.val, 13), (b.val, 19)]
  | .div d a b => packed 0x8000004 [(d.val, 7), (a.val, 13), (b.val, 19)]
  | .divu d a b => packed 0xa000004 [(d.val, 7), (a.val, 13), (b.val, 19)]
  | .rem d a b => packed 0xc000004 [(d.val, 7), (a.val, 13), (b.val, 19)]
  | .remu d a b => packed 0xe000004 [(d.val, 7), (a.val, 13), (b.val, 19)]
  | .clz d a => packed 0x20000004 [(d.val, 7), (a.val, 13)]
  | .ctz d a => packed 0x22000004 [(d.val, 7), (a.val, 13)]
  | .popc d a => packed 0x24000004 [(d.val, 7), (a.val, 13)]
  | .lb d a i => packed 0x8 [(d.val, 7), (a.val, 13), (i.toNat, 22)]
  | .lh d a i => packed 0x80008 [(d.val, 7), (a.val, 13), (i.toNat, 22)]
  | .lw d a i => packed 0x100008 [(d.val, 7), (a.val, 13), (i.toNat, 22)]
  | .ld d a i => packed 0x180008 [(d.val, 7), (a.val, 13), (i.toNat, 22)]
  | .lbu d a i => packed 0x200008 [(d.val, 7), (a.val, 13), (i.toNat, 22)]
  | .lhu d a i => packed 0x280008 [(d.val, 7), (a.val, 13), (i.toNat, 22)]
  | .lwu d a i => packed 0x300008 [(d.val, 7), (a.val, 13), (i.toNat, 22)]
  | .sb s a i => packed 0x9 [(s.val, 7), (a.val, 13), (i.toNat, 22)]
  | .sh s a i => packed 0x80009 [(s.val, 7), (a.val, 13), (i.toNat, 22)]
  | .sw s a i => packed 0x100009 [(s.val, 7), (a.val, 13), (i.toNat, 22)]
  | .sd s a i => packed 0x180009 [(s.val, 7), (a.val, 13), (i.toNat, 22)]
  | .acqld d a p => packed 0xa [(d.val, 7), (a.val, 13), (p.val, 25)]
  | .relst a b p => packed 0x1000000a [(a.val, 13), (b.val, 19), (p.val, 25)]
  | .rmwAdd d a b p => packed 0x2000000a [(d.val, 7), (a.val, 13), (b.val, 19), (p.val, 25)]
  | .rmwSwap d a b p => packed 0x3000000a [(d.val, 7), (a.val, 13), (b.val, 19), (p.val, 25)]
  | .rmwCas d a b p => packed 0x4000000a [(d.val, 7), (a.val, 13), (b.val, 19), (p.val, 25)]
  | .rmwAnd d a b p => packed 0x5000000a [(d.val, 7), (a.val, 13), (b.val, 19), (p.val, 25)]
  | .rmwOr d a b p => packed 0x6000000a [(d.val, 7), (a.val, 13), (b.val, 19), (p.val, 25)]
  | .rmwXor d a b p => packed 0x7000000a [(d.val, 7), (a.val, 13), (b.val, 19), (p.val, 25)]
  | .rmwMin d a b p => packed 0x8000000a [(d.val, 7), (a.val, 13), (b.val, 19), (p.val, 25)]
  | .rmwMax d a b p => packed 0x9000000a [(d.val, 7), (a.val, 13), (b.val, 19), (p.val, 25)]
  | .rmwMinu d a b p => packed 0xa000000a [(d.val, 7), (a.val, 13), (b.val, 19), (p.val, 25)]
  | .rmwMaxu d a b p => packed 0xb000000a [(d.val, 7), (a.val, 13), (b.val, 19), (p.val, 25)]
  | .beq a b o => packed 0xc [(a.val, 7), (b.val, 13), (o.toNat, 22)]
  | .bne a b o => packed 0x8000c [(a.val, 7), (b.val, 13), (o.toNat, 22)]
  | .blt a b o => packed 0x10000c [(a.val, 7), (b.val, 13), (o.toNat, 22)]
  | .bge a b o => packed 0x18000c [(a.val, 7), (b.val, 13), (o.toNat, 22)]
  | .bltu a b o => packed 0x20000c [(a.val, 7), (b.val, 13), (o.toNat, 22)]
  | .bgeu a b o => packed 0x28000c [(a.val, 7), (b.val, 13), (o.toNat, 22)]
  | .jmp d o => packed 0xd [(d.val, 7), (o.toNat, 13)]
  | .jreg d a i => packed 0xe [(d.val, 7), (a.val, 13), (i.toNat, 22)]
  | .loop c o => packed 0x10 [(c.val, 7), (o.toNat, 13)]
  | .crr d r => packed 0x11 [(d.val, 7), (r.toNat, 19)]
  | .crw d a r => packed 0x80000011 [(d.val, 7), (a.val, 13), (r.toNat, 19)]
  | .wait d a b => packed 0x2000012 [(d.val, 7), (a.val, 13), (b.val, 19)]
  | .pause a => packed 0x4000012 [(a.val, 13)]
  | .trap a => packed 0x6000012 [(a.val, 13)]
  | .fence s => packed 0x14 [(s.val, 25)]
  | .launch d a => packed 0x15 [(d.val, 7), (a.val, 13)]
  | .split a => packed 0x2000015 [(a.val, 13)]
  | .vfetch a b => packed 0x6000015 [(a.val, 13), (b.val, 19)]
  | .tlbiVA a b => packed 0x18 [(a.val, 13), (b.val, 19)]
  | .tlbiAS a => packed 0x2000018 [(a.val, 13)]
  | .wayset d a => packed 0x10000018 [(d.val, 7), (a.val, 13)]
  | .qpush a q => packed 0x16 [(a.val, 13), (bnat q, 25)]
  | .qpop d q => packed 0x4000016 [(d.val, 7), (bnat q, 25)]
  | .qpopNB d q => packed 0x8000016 [(d.val, 7), (bnat q, 25)]
  | .qstat d q => packed 0xc000016 [(d.val, 7), (bnat q, 25)]
  | .sfaddF32 d a b => packed 0x5 [(d.val, 7), (a.val, 13), (b.val, 19)]
  | .sfsubF32 d a b => packed 0x2000005 [(d.val, 7), (a.val, 13), (b.val, 19)]
  | .sfmulF32 d a b => packed 0x4000005 [(d.val, 7), (a.val, 13), (b.val, 19)]
  | .sfdivF32 d a b => packed 0x6000005 [(d.val, 7), (a.val, 13), (b.val, 19)]
  | .sfsqrtF32 d a => packed 0x8000005 [(d.val, 7), (a.val, 13)]
  | .sfminF32 d a b => packed 0xa000005 [(d.val, 7), (a.val, 13), (b.val, 19)]
  | .sfmaxF32 d a b => packed 0xc000005 [(d.val, 7), (a.val, 13), (b.val, 19)]
  | .sfcmpEqF32 d a b => packed 0xe000005 [(d.val, 7), (a.val, 13), (b.val, 19)]
  | .sfcmpLtF32 d a b => packed 0x10000005 [(d.val, 7), (a.val, 13), (b.val, 19)]
  | .sfcmpLeF32 d a b => packed 0x12000005 [(d.val, 7), (a.val, 13), (b.val, 19)]
  | .sfcvtF32I64 d a => packed 0x14000005 [(d.val, 7), (a.val, 13)]
  | .sfcvtI64F32 d a => packed 0x16000005 [(d.val, 7), (a.val, 13)]
  | .sfcvtF32F64 d a => packed 0x20000005 [(d.val, 7), (a.val, 13)]
  | .sfcvtF64F32 d a => packed 0x22000005 [(d.val, 7), (a.val, 13)]
  | .sfaddF64 d a b => packed 0x40000005 [(d.val, 7), (a.val, 13), (b.val, 19)]
  | .sfsubF64 d a b => packed 0x42000005 [(d.val, 7), (a.val, 13), (b.val, 19)]
  | .sfmulF64 d a b => packed 0x44000005 [(d.val, 7), (a.val, 13), (b.val, 19)]
  | .sfdivF64 d a b => packed 0x46000005 [(d.val, 7), (a.val, 13), (b.val, 19)]
  | .sfsqrtF64 d a => packed 0x48000005 [(d.val, 7), (a.val, 13)]
  | .sfminF64 d a b => packed 0x4a000005 [(d.val, 7), (a.val, 13), (b.val, 19)]
  | .sfmaxF64 d a b => packed 0x4c000005 [(d.val, 7), (a.val, 13), (b.val, 19)]
  | .sfcmpEqF64 d a b => packed 0x4e000005 [(d.val, 7), (a.val, 13), (b.val, 19)]
  | .sfcmpLtF64 d a b => packed 0x50000005 [(d.val, 7), (a.val, 13), (b.val, 19)]
  | .sfcmpLeF64 d a b => packed 0x52000005 [(d.val, 7), (a.val, 13), (b.val, 19)]
  | .sfcvtF64I64 d a => packed 0x54000005 [(d.val, 7), (a.val, 13)]
  | .sfcvtI64F64 d a => packed 0x56000005 [(d.val, 7), (a.val, 13)]
  | .endTask => packed 0x12 []
  | .eret => packed 0x8000012 []
  | .uiret => packed 0xa000012 []
  | .halt => packed 0xc000012 []
  | .fenceSv => packed 0x10000014 []
  | .fenceVs => packed 0x12000014 []
  | .bsync => packed 0x14000014 []
  | .barb => packed 0x20000014 []
  | .join => packed 0x4000015 []
  | .tlbiAll => packed 0x4000018 []
  | .nop => packed 0x70 []
  | .hintBt => packed 0x200000f0 []
  | .hintBn => packed 0x20000070 []
  | .prea => packed 0x40000020 []
  | .fenceArray => packed 0x80000020 []
  | .fenceArrayW => packed 0x90000020 []
  | .cwball => packed 0x6000051 []
  | .cwbiall => packed 0x8000051 []
  | .registerWrite _ _ _ => 0
  | .flagsRead _ => 0
  | .flagsWrite _ => 0
  | .srseedWrite _ => 0
  | .rmodeWrite _ => 0
  | .vlcfgWrite _ => 0
  | .bpartWrite _ => 0
  | .vstartWrite _ => 0
  | .vmodeWrite _ => 0
  | .trapstatWrite _ => 0
  | .trappcWrite _ => 0
  | .uistatWrite _ => 0
  | .waitReread _ _ => 0
  | .waitLimitExpiry _ _ => 0
  | .pauseExpiry _ _ => 0
  | .bankThreadTrap _ _ => 0
  | .latchValid _ _ _ => 0
  | .writeBackCommit _ _ _ => 0
  | .arrayDemand _ _ _ => 0
  | .crownLineEviction _ _ _ => 0
  | .farElementApply _ => 0
  | .farAcknowledgement _ => 0
  | .copy _ _ => 0
  | .copyNode _ _ => 0
  | .precopy _ _ => 0
  | .coll _ _ => 0
  | .rungel _ _ => 0
  | .waitnzTimeout _ _ => 0
  | .waitcw _ _ => 0
  | .waitcwReread _ _ => 0
  | .waitcwTimeout _ _ => 0
  | .engineCommandCompletion _ _ => 0
  | .completionInterrupt _ _ => 0
  | .remotePacketArrival _ => 0
  | .collFlagRelease _ => 0
  | .remoteAcknowledgement _ _ _ _ _ _ => 0
  | .linkTimeout _ _ => 0
  | .portFailure _ => 0
  | .hostAccess _ _ _ _ => 0
  | .tailWrite _ _ _ => 0
  | .hostQueueEntryRead _ _ => 0
  | .launchExpansion _ => 0
  | .depwordRead _ _ => 0
  | .schedulerPlacement _ _ => 0
  | .softlimExpiry _ _ => 0
  | .hardPreemption _ _ => 0
  | .preemptionDeferralExpiry _ _ => 0
  | .gangStartAttempt _ _ => 0
  | .gangStart _ _ => 0
  | .gangStartAbandoned _ _ => 0
  | .gangResume _ _ => 0
  | .gangDiscard _ _ => 0
  | .bindingRequest _ _ => 0
  | .unbindingRequest _ _ => 0
  | .parkWrite _ _ => 0
  | .retirementRequest _ _ => 0
  | .pwrctlWrite _ _ => 0
  | .columnVote _ _ _ => 0
  | .resyncComplete _ _ => 0
  | .pageWalk _ _ _ => 0
  | .retentionTick _ _ => 0
  | .retentionDeadline _ _ _ _ => 0
  | .forcedRefresh _ _ _ => 0
  | .backgroundRefresh _ _ _ => 0
  | .rowRepair _ _ _ _ => 0
  | .laneQuarantine _ _ => 0
  | .bankRetirement _ _ _ => 0
  | .bankCopyComplete _ _ => 0
  | .uncorrectableError _ _ _ _ => 0
  | .frontEndFailure _ _ => 0
  | .objectSubmission _ _ _ => 0
  | .gelInstall _ _ _ => 0
  | .keyset _ _ => 0
  | .fuseadv => 0
  | .colreset _ _ => 0
  | .blkreset _ _ => 0
  | .maincycle => 0
  | .tamperAlarm => 0
  | .glitchAlarm => 0
  | .overTemperatureAlarm => 0
  | .powerMeasurement _ _ _ => 0
  | .coolantFault => 0
  | .powerOn => 0
  | .bringupPhaseComplete _ => 0
  | .repairCopyComplete _ _ _ _ => 0

/-- The instruction has an encoding of its own (02:R38, R39). -/
def Instr.hasWord : Instr → Bool
  | .illegalInstruction _ => false
  | .complementPair _ _ => false
  | .registerWrite _ _ _ => false
  | .flagsRead _ => false
  | .flagsWrite _ => false
  | .srseedWrite _ => false
  | .rmodeWrite _ => false
  | .vlcfgWrite _ => false
  | .bpartWrite _ => false
  | .vstartWrite _ => false
  | .vmodeWrite _ => false
  | .trapstatWrite _ => false
  | .trappcWrite _ => false
  | .uistatWrite _ => false
  | .waitReread _ _ => false
  | .waitLimitExpiry _ _ => false
  | .pauseExpiry _ _ => false
  | .bankThreadTrap _ _ => false
  | .latchValid _ _ _ => false
  | .writeBackCommit _ _ _ => false
  | .arrayDemand _ _ _ => false
  | .crownLineEviction _ _ _ => false
  | .farElementApply _ => false
  | .farAcknowledgement _ => false
  | .copy _ _ => false
  | .copyNode _ _ => false
  | .precopy _ _ => false
  | .coll _ _ => false
  | .rungel _ _ => false
  | .waitnzTimeout _ _ => false
  | .waitcw _ _ => false
  | .waitcwReread _ _ => false
  | .waitcwTimeout _ _ => false
  | .engineCommandCompletion _ _ => false
  | .completionInterrupt _ _ => false
  | .remotePacketArrival _ => false
  | .collFlagRelease _ => false
  | .remoteAcknowledgement _ _ _ _ _ _ => false
  | .linkTimeout _ _ => false
  | .portFailure _ => false
  | .hostAccess _ _ _ _ => false
  | .tailWrite _ _ _ => false
  | .hostQueueEntryRead _ _ => false
  | .launchExpansion _ => false
  | .depwordRead _ _ => false
  | .schedulerPlacement _ _ => false
  | .softlimExpiry _ _ => false
  | .hardPreemption _ _ => false
  | .preemptionDeferralExpiry _ _ => false
  | .gangStartAttempt _ _ => false
  | .gangStart _ _ => false
  | .gangStartAbandoned _ _ => false
  | .gangResume _ _ => false
  | .gangDiscard _ _ => false
  | .bindingRequest _ _ => false
  | .unbindingRequest _ _ => false
  | .parkWrite _ _ => false
  | .retirementRequest _ _ => false
  | .pwrctlWrite _ _ => false
  | .columnVote _ _ _ => false
  | .resyncComplete _ _ => false
  | .pageWalk _ _ _ => false
  | .retentionTick _ _ => false
  | .retentionDeadline _ _ _ _ => false
  | .forcedRefresh _ _ _ => false
  | .backgroundRefresh _ _ _ => false
  | .rowRepair _ _ _ _ => false
  | .laneQuarantine _ _ => false
  | .bankRetirement _ _ _ => false
  | .bankCopyComplete _ _ => false
  | .uncorrectableError _ _ _ _ => false
  | .frontEndFailure _ _ => false
  | .objectSubmission _ _ _ => false
  | .gelInstall _ _ _ => false
  | .keyset _ _ => false
  | .fuseadv => false
  | .colreset _ _ => false
  | .blkreset _ _ => false
  | .maincycle => false
  | .tamperAlarm => false
  | .glitchAlarm => false
  | .overTemperatureAlarm => false
  | .powerMeasurement _ _ _ => false
  | .coolantFault => false
  | .powerOn => false
  | .bringupPhaseComplete _ => false
  | .repairCopyComplete _ _ _ _ => false
  | _ => true

/-- The length in bytes of one instruction: 8 when bits [1:0] of its major are 0b11, else 4 (02:R33). -/
def Instr.wordLen (i : Instr) : Nat := if encode i % 4 = 3 then 8 else 4

/-- The length of an instruction in bytes; a complement pair ends at J's last word (02:R43). -/
def Instr.len : Instr → Nat
  | .complementPair i j => i.wordLen + j.wordLen
  | i => i.wordLen

/-- The words of a well-formed instruction, as bytes in the order they lie in memory. -/
def encodeBytes (i : Instr) : List Byte := natToBytes i.len (encode i)

end Sys2Proof
end

