-- ==== Sys2Proof/Machine/State.lean ====
section
/-!
DEFINITION. The state of one module as plain data, and the state after reset (power-on). Register names and field names are the
spec's; each field's docstring names its rule. Collections that are mostly at rest are lists of (key, value) pairs in rising key
order; what an unlisted key holds is the `reset` value of its type.
-/

namespace Sys2Proof.Machine

/-- Memory: the bytes that are not zero, in rising address order. An unlisted byte reads 0. -/
abbrev Memory := List Host.Cell

/-- Privilege level of code on the device (00:R3). -/
inductive Level where
  | user | supervisor
  deriving DecidableEq, Repr

/-- A scalar register and its carried residue code (15:R353). -/
structure SReg where
  val : Word
  res : BitVec 4
  deriving DecidableEq, Repr

/-- One level of the loop stack: LOOPn (COUNT, END, V) and LOOPBn (START) (15:R344). -/
structure LoopLevel where
  count : BitVec 32
  fin : BitVec 30
  v : Bool
  start : BitVec 50
  deriving DecidableEq, Repr

/-- VLCFG (07:R149). -/
structure VlCfg where
  live : BitVec 15
  vl : BitVec 15
  blk : BitVec 5
  fmt : BitVec 4
  deriving DecidableEq, Repr

/-- VPOISON (21:R451). -/
structure VPoison where
  v : Bool
  reg : BitVec 4
  opnd : BitVec 2
  elem : BitVec 15
  deriving DecidableEq, Repr

/-- RMODE (07:R155). -/
structure RMode where
  ftz : Bool
  rm : BitVec 3
  deriving DecidableEq, Repr

/-- PCFG (09:R217). -/
structure PCfg where
  sgn : Bool
  wd : BitVec 4
  wa : BitVec 4
  wb : BitVec 4
  deriving DecidableEq, Repr

/-- SPROG (10:R241). -/
structure SProg where
  active : Bool
  s : BitVec 3
  full : Bool
  ck : Bool
  tp : Bool
  ti : BitVec 2
  weight : BitVec 4
  pair : BitVec 3
  kstep : BitVec 6
  deriving DecidableEq, Repr

/-- What a control thread and a bank thread each hold of their own: pc, loop stack, vector configuration and progress, rounding
mode, counters (15:R344-R352, 16:R367, 20:R434, 21:R455). -/
structure Front where
  pc : Word
  loops : Vector LoopLevel 4
  vlcfg : VlCfg
  vstart : BitVec 15
  vpoison : VPoison
  rmode : RMode
  pcfg : PCfg
  sprog : SProg
  lost : Option (Nat × Word)   -- lowest element that a far instruction stopped before its end lost to poison, with its address (13:R296)
  verify : Bool
  stalls : Vector Word 64
  instret : Word
  owed : Bool           -- a resumed instruction has not gone on yet: the hart is not pre-empted before it has (16:R371)
  deriving DecidableEq, Repr

/-- BPART without PEND, which is 1 exactly when REQ differs from COUNT (16:R361). -/
structure BPart where
  req : BitVec 8
  min : BitVec 8
  count : BitVec 8
  base : BitVec 8
  deriving DecidableEq, Repr

/-- What a vector-side instruction captures when it enters the issue queue (16:R363): s operands, VLCFG, VSTART, PCFG, BMASK, BPART; and the
level it was issued at, which its accesses keep under an asynchronous trap (20:R435; DEDUCED, log 18); BANKVA, whose write waits for nothing
(15:R351). -/
structure VCtx where
  sa : Word
  sb : Word
  vlcfg : VlCfg
  vstart : BitVec 15
  pcfg : PCfg
  bmask : Word
  base : BitVec 8
  count : BitVec 8
  level : Level
  bankva : BitVec 25
  deriving DecidableEq, Repr

/-- The progress, beside VSTART, that ERET stores into the first held entry (20:R436): VPOISON and SPROG. -/
structure Progress where
  vpoison : VPoison
  sprog : SProg
  deriving DecidableEq, Repr

/-- An entry of the vector issue queue or of the resume list: address, instruction, captured operands, stored progress (16:R363, R365), the element
that a far instruction stopped before its end has lost to poison (13:R296), and the words where the host wrote others into the saved record
(20:R443). -/
structure QEntry where
  addr : Word
  instr : Instr
  ctx : VCtx
  prog : Option Progress
  lost : Option (Nat × Word)
  words : Option Nat
  deriving DecidableEq, Repr

/-- A trap's cause, value and origin (20:R432, R435). `next`: TRAPPC takes the address of the next instruction. -/
structure TrapInfo where
  cause : BitVec 8
  val : Word
  vec : Bool
  next : Bool
  deriving DecidableEq, Repr

/-- What a bank thread is doing (16:R367, 17:R379, R384). -/
inductive BtStatus where
  | running
  | atBarrier
  | joined
  | stopped (t : TrapInfo)
  deriving DecidableEq, Repr

/-- A bank thread: its copies, the number of BARB instructions executed, its condition. -/
structure BankThread where
  front : Front
  level : Level         -- the control thread's level at SPLIT
  barb : Nat
  status : BtStatus
  deriving DecidableEq, Repr

/-- What a control thread is doing. -/
inductive Cond where
  | idle                                                    -- holds no task
  | ready (split : Bool)                                    -- gang member placed, not started; `split`: its start takes it to SPLIT (18:R408)
  | running
  | waitWord (d : Fin 64) (va : Word) (limit : BitVec 32)    -- in WAIT (17:R387)
  | paused                                                  -- in PAUSE (17:R388)
  | splitWait                                               -- at SPLIT, bank threads running (16:R367)
  deriving DecidableEq, Repr

/-- The trap registers (20:R433) and SSCRATCH (15:R352). RL is the length of the held resume list. -/
structure TrapRegs where
  cause : BitVec 8
  pc : BitVec 50
  val : Word
  busy : Bool
  ppl : Level
  vec : Bool
  bt : Bool
  bank : BitVec 8
  bpc : BitVec 15
  handler : BitVec 50
  sscratch : Word
  deriving DecidableEq, Repr

/-- UIVEC and UISTAT (12:R283). -/
structure UiRegs where
  handler : BitVec 50
  en : Bool
  active : Bool
  pend1 : Bool
  pend0 : Bool
  epc : BitVec 50
  deriving DecidableEq, Repr

/-- Which task: the stack whose launch unit accepted its launch, the launch's number there, the task number (16:R358). -/
structure TaskId where
  stack : Nat
  launch : Nat
  num : Nat
  deriving DecidableEq, Repr

/-- The owner of a command word: the task, the address space and the level its QPUSH ran at (12:R279, R286). -/
structure QOwner where
  task : TaskId
  root : Word
  level : Level
  deriving DecidableEq, Repr

/-- The task a control thread holds (16:R358, 18:R402). -/
structure TaskInfo where
  id : TaskId
  ctx : BitVec 8
  root : Word
  prio : Nat
  age : Nat             -- scyc waited while eligible (18:R405)
  ran : Nat             -- scyc run since the last placement (18:R407)
  need : Nat
  pref : Nat
  secver : Nat
  rowdep : Bool
  gang : Bool
  order : Nat           -- order of acceptance in its stack (18:R405)
  deriving DecidableEq, Repr

/-- A control thread: registers, residues, control registers, queue, resume list, condition (15:R350, 16:R359-R365). -/
structure Thread where
  sregs : Vector SReg 64
  shadow : Vector SReg 16
  front : Front
  level : Level
  flags : BitVec 5
  srseed : BitVec 32
  bmask : Word
  bpart : BPart
  bankva : BitVec 25
  scrbase : BitVec 30
  tr : TrapRegs
  ui : UiRegs
  cycle : Word
  queue : List QEntry
  resume : List QEntry
  heldPc : Word
  drain : Bool          -- the scalar side waits for the vector side (16:R363)
  cond : Cond
  handlers : List (Option Word) -- trap handlers entered and not yet ended by ERET, the newest first; the SPLIT that each interrupted (20:R438)
  softReq : Bool        -- a pre-emption request is pending (18:R407)
  reqBy : Option TaskId -- the waiting task that raised it (18:R407)
  hardReq : Bool        -- SOFTLIM passed, or a hard pre-emption was ordered (18:R407, 20:R438)
  ueReq : Option Word   -- a pending uncorrectable error's TRAPVAL (21:R463)
  bts : List (Nat × BankThread)
  ploss : Bool          -- poison loss gathered from banks given up (16:R362, 13:R296)
  results : Vector (List Word) 2   -- result FIFOs of queues 0 and 1 (12:R277, R281)
  lostBind : Option Word -- TRAPVAL of the binding that a restore lost, for a gang member that has not started (20:R442)
  task : Option TaskInfo
  deriving DecidableEq, Repr

/-- The five states of a row register (04:R82). -/
inductive WState where
  | free | openClean | openDirty | heldClean | heldDirty
  deriving DecidableEq, Repr

/-- A row register: state, tag, bound row number, physical row, write permission, latch, poison flags of its 8-byte parts, and the
leaf entry that its binding ACT recorded (04:R82, 05:R113, 19:R428, 21:R449). `valid` is the tRCD interlock (05:R113). -/
structure WReg where
  state : WState
  tag : BitVec 4
  row : BitVec 12
  prow : BitVec 12
  writable : Bool
  latch : RowBits
  poison : BitVec 256
  leaf : Option Nat
  valid : Bool
  deriving DecidableEq, Repr

/-- A write-back that has started and not committed: the image it carries (04:R84, R104). `live` says that no write has reached the
latch since its start; `act` what the register does at the commit: 0 stays as it is, 1 precharges, 2 unbinds (05:R116). `errs` are the words of the
image that carry an error, correctable (false) or not, which nothing has read yet (21:R445). -/
structure PendWb where
  grp : Nat
  prow : Nat
  data : RowBits
  poison : BitVec 256
  leaf : Option Nat
  live : Bool
  act : Nat
  errs : List (Nat × Bool)
  deriving DecidableEq, Repr

/-- A crown line: 128 bytes, dirty, the poison flags of its 8-byte parts, and the leaf entry that first dirtied it (12:R267,
19:R428, 21:R449). -/
structure Line where
  data : BitVec 1024
  dirty : Bool
  poison : BitVec 16
  leaf : Option Nat
  deriving DecidableEq, Repr

/-- What a save slot holds of one register (20:R441). -/
structure SavedW where
  state : WState
  tag : BitVec 4
  row : BitVec 12
  prow : BitVec 12
  writable : Bool
  latch : RowBits
  poison : BitVec 256
  deriving DecidableEq, Repr

/-- A bank's save slot (20:R441). `bad` marks a poisoned word other than a FREE latch image (21:R450). -/
structure SaveSlot where
  hard : Bool
  regs : Vector SavedW 16
  m : Vector MaskBits 16
  x : Vector SReg 32
  t : Vector TileBits 4
  q : Vector MaskBits 4
  lfsr : BitVec 32
  flags : BitVec 5
  ploss : Bool
  bad : Bool
  deriving DecidableEq, Repr

/-- A bank: registers of its block, its controller's and its crown slice's state. -/
structure Bank where
  w : Vector WReg 16
  m : Vector MaskBits 16
  x : Vector SReg 32
  t : Vector TileBits 4
  q : Vector MaskBits 4             -- checksum rows, 64 x INT32 (10:R244)
  lfsr : BitVec 32
  flags : BitVec 5
  ploss : Bool                      -- posted poison loss (13:R296)
  debt : Vector (BitVec 4) 16       -- 04:R97
  ptr : Vector (BitVec 8) 16        -- 04:R97
  deadline : BitVec 16              -- groups whose retention-deadline trap waits (04:R100)
  pend : List PendWb
  presence : List Nat               -- rows with the crown-presence bit set, as 4096 x group + row (04:R95)
  lines : List (Nat × Line)         -- by offset in the bank / 128
  mode : BitVec 2                   -- how its ways are parted: WAYPART.MODE and COUNT as last written over it (12:R269, 01:R25)
  ways : BitVec 4
  scratch : Memory                  -- scratch ways, at way x 32 KiB + byte (12:R270)
  scratchPoison : List (Nat × BitVec 4)   -- by word / 32
  repairs : List (Nat × Nat)        -- row ↦ spare of its group (03:R71)
  xgroup : List (Nat × Nat)         -- cross-group table, at most 16 (03:R72)
  pendRepair : List Nat             -- bound rows whose mapping waits (03:R74)
  copying : List Nat                -- rows under a repair copy (03:R74)
  corrected : List Nat              -- rows whose cells have needed correction at one precharge (21:R447)
  repairDue : List Nat              -- rows that needed it at two, and wait for their repair mapping
  slots : Vector (Option SaveSlot) 2
  count : Nat                       -- vector-side instructions executed (21:R458)
  blames : List (Nat × Nat)         -- (physical lane group, count at the blame) (21:R458)
  quarantined : List Nat            -- physical lane groups out of service (21:R458)
  ckMiss : List Nat                 -- counts at checksum mismatches (21:R459)
  suspect : Bool                    -- matrix array suspect (21:R459)
  spare : Bool                      -- served by the slab's spare bank (01:R30)
  retired : Bool                    -- its block is out of service (01:R31, 21:R462)
  gone : Bool                       -- its addresses are unpopulated (21:R462)
  moving : Bool                     -- the copy to the spare is running (21:R461)
  deriving DecidableEq, Repr

/-- A launch record of 17:R380 as copied by the launch unit, and its context. -/
structure LaunchRec where
  kernel : Word
  cword : Word
  dep : Word
  prio : Nat
  gang : Bool
  args : Vector Word 16
  ctx : BitVec 8
  root : Word
  deriving DecidableEq, Repr

/-- An entry of the launch table (18:R413). -/
structure Launch where
  id : Nat
  rcd : LaunchRec
  ns : Nat
  nf : Nat
  nb : Nat
  need : Nat
  pref : Nat
  entry : Word
  nargs : Nat
  secver : Nat
  rowdep : Bool
  eligible : Bool
  ended : Nat
  finished : Nat        -- tasks that have ended in any way
  status : BitVec 8     -- 0 while no failure has been seen
  failTask : Nat
  flags : BitVec 5
  ploss : Bool
  started : Bool        -- a gang has started
  attempts : Nat
  failed : Bool         -- a started gang has failed and waits for GANGACT (18:R410)
  wordDue : Bool        -- its completion word waits for a launch unit that is STOPPED (18:R411)
  deriving DecidableEq, Repr

/-- What a task that has not started yet takes from its launch (16:R359). -/
structure Fresh where
  rcd : LaunchRec
  a : Nat
  b : Nat
  total : Nat
  nb : Nat
  entry : Word
  nargs : Nat
  deriving DecidableEq, Repr

/-- A saved task: its thread, its physical banks (stack x 256 + bank) with their slots in logical order, hard or soft save (20:R439-R443). -/
structure SavedTask where
  thread : Thread
  map : List (Nat × Nat)
  hard : Bool
  deriving DecidableEq, Repr

/-- A task that waits to be placed: a fresh one or a saved one (18:R405, R406). -/
structure Waiting where
  info : TaskInfo
  fresh : Option Fresh
  saved : Option SavedTask
  reserved : Option Nat               -- thread reserved for a gang start (18:R408)
  hold : Bool                         -- kept for the host or a GANGACT: not placed
  counted : Bool                      -- the launch unit has counted it as ended (16:R369)
  loose : Bool                        -- saved by a front-end failure or a stopped column: its front end may be rebound (01:R32, 18:R412)
  double : Option (BitVec 8 × Word)   -- double trap's cause and value (20:R437)
  deriving DecidableEq, Repr

/-- A host launch queue (18:R401). -/
structure HostQ where
  base : Word
  cfg : Word
  head : BitVec 32
  rejected : BitVec 16
  tail : Word
  deriving DecidableEq, Repr

/-- Column states (18:R411). -/
inductive ColState where
  | triple | resync | stopped
  deriving DecidableEq, Repr

/-- A voted column: state and saturating dissent count (18:R411). -/
structure Column where
  state : ColState
  dissents : BitVec 6
  deriving DecidableEq, Repr

/-- The command an engine queue is running (12:R278-R286, 23:R484-R488); `id` tells it from the queue's other commands in its packets. -/
structure Running where
  id : Nat
  op : BitVec 8
  hdr : Word
  ops : List Word
  done : Nat            -- units or steps completed
  pos : Nat             -- bytes handled so far of the step or transfer
  sent : Nat            -- remote units sent
  acked : List Nat      -- remote units acknowledged (23:R488)
  got : List (Nat × List (Byte × Bool)) -- remote units that have arrived ahead of their turn
  status : Option (BitVec 8)
  pages : List Nat      -- harvested units still to send (23:R486)
  carry : List (Byte × Bool) -- bytes read with the last source word, or received, that go into a word not complete yet (14:R323, R324)
  own : QOwner
  deriving DecidableEq, Repr

/-- A spore-engine queue (12:R277): command FIFO, the running command, a completed result held back for want of room, commands started so far. -/
structure EngQ where
  fifo : List (Word × QOwner)
  run : Option Running
  held : Option (Word × TaskId)
  started : Nat
  deriving DecidableEq, Repr

/-- A bound frond (01:R23-R28). -/
structure Frond where
  fe : Nat
  halves : BitVec 8     -- bit 2c + h: half-slab h of column c of the front end's row
  pairs : Nat
  spareFe : Bool
  mode : BitVec 2       -- WAYPART.MODE (12:R269)
  ways : BitVec 4       -- WAYPART.COUNT as requested under MODE 2
  degr : Nat            -- BINDSTAT.DEGR, SPAREBK, SPLITC as last taken (01:R28, 21:R458)
  spareBk : Bool
  splitC : Bool
  nbanks : Nat
  deriving DecidableEq, Repr

/-- A window of a bank instruction buffer (16:R368). -/
structure BibWin where
  bytes : Memory
  valid : BitVec 128
  poison : List Nat     -- poisoned 32-byte words (21:R448)
  deriving DecidableEq, Repr

/-- An error-log record (21:R464). -/
structure ErrRec where
  severity : BitVec 8
  unit : BitVec 8
  stack : Nat
  bank : BitVec 16
  fe : BitVec 16
  pa : Word
  task : BitVec 32
  detail : BitVec 32
  seq : Nat
  seen : Bool           -- some read has returned a part of it
  deriving DecidableEq, Repr

/-- What the column journal holds (18:R413): the entries of its three areas, as words, and the sequence number of the last write. -/
structure Journal where
  devq : List (List Word)
  table : List (List Word)
  tasks : List (List Word)
  seq : Word
  deriving DecidableEq, Repr

/-- One stack's control units. -/
structure Stack where
  ganglim : BitVec 16
  softlim : BitVec 16
  ageshift : BitVec 5
  cols : Vector Column 6            -- launch unit, scheduler, walkers 0-3
  park : BitVec 40
  ctxbase : Word
  bindGo : Bool                     -- BINDREQ.GO: a request waits for the column (18:R398)
  bindStatus : BitVec 3
  bindFe : BitVec 5
  bindHalves : BitVec 8
  gangact : Word
  retStatus : BitVec 3
  retBank : BitVec 8
  retGo : Bool                      -- RETIREREQ.GO: the tasks that own the bank have not all stopped (21:R460, R461)
  limit : BitVec 16
  duty : BitVec 4
  hot : Bool
  hostq : Vector HostQ 16
  devq : List LaunchRec
  table : List Launch
  nextLaunch : Nat
  waiting : List Waiting
  order : Nat
  journal : Bool                    -- a column has written its journal since it was cleared (18:R413)
  frozen : Option Journal           -- the journal when the launch unit or the scheduler stopped (18:R411, R413)
  jlast : Journal                   -- the journal as last read, with the number it then had
  fronds : List Frond
  failedFe : BitVec 20
  spareUsed : BitVec 16
  bib : List (Nat × BibWin)         -- by 2 x half-slab + control thread
  gel : List (Nat × List (Nat × Word))   -- slot ↦ registers by offset
  gelRev : List (Nat × BitVec 32)
  engines : Vector EngQ 64          -- 16 x engine + queue
  log : List ErrRec
  logCount : BitVec 64
  logLost : BitVec 32
  errcfg : BitVec 8
  sectors : List (Nat × List (Nat × Byte))   -- what the host wrote into save sectors: 2 x bank + s ↦ bytes by offset (20:R443)
  sectorBad : List (Nat × BitVec 4)   -- poisoned words of save sectors, by 256 x sector + word, with the flags of their parts (21:R449, R450)
  residueMiss : List (Nat × Nat)    -- (front end, instruction count) of residue mismatches (21:R454)
  excluded : Bool
  deriving DecidableEq, Repr

/-- Where a translation is cached (19:R421): a stack's TLB, a bank controller's row cache, the fetch cache of a front end (stack x 20 + front end)
or of a bank sequencer. A bank is stack x 256 + bank. -/
inductive Cache where
  | tlb (st : Nat)
  | row (b : Nat)
  | front (fe : Nat)
  | seq (b : Nat)
  deriving DecidableEq, Repr

/-- A cached translation: root, 64 KiB page number, leaf address and the leaf as read; `hashed` is the verified mark of 22:R476
(19:R421). A BIG run is cached as one translation, with the run head's 2 MiB base and leaf in `run` (19:R417). -/
structure Xlat where
  cache : Cache
  root : Word
  page : Nat
  leafAddr : Nat
  leaf : Word
  base : Nat            -- physical address of the 64 KiB the page number names
  run : Option (Nat × Word)
  hashed : Bool
  deriving DecidableEq, Repr

/-- A pointer entry in a walker cache (19:R421): stack, walker column, the address space's root, the pages below the entry as a page number and
its low bits left out, the entry's address and value. -/
structure Ptr where
  st : Nat
  col : Nat
  root : Word
  page : Nat
  low : Nat
  addr : Nat
  val : Nat
  deriving DecidableEq, Repr

/-- The leaf entry of the translation a write goes through, none for a write without one; `set` says that the write sets its dirty bit, which
the cached DIRTY does not hold yet (19:R428). -/
structure Mark where
  leaf : Option Nat
  set : Bool
  deriving DecidableEq, Repr

/-- The leaf entry whose dirty bit a write sets. -/
def Mark.due (m : Mark) : Option Nat := if m.set then m.leaf else none

/-- A write without a translation. -/
def Mark.none : Mark := ⟨Option.none, false⟩

/-- A far element that has been sent and not acknowledged (13:R295-R298): where it came from, where it goes, what it does. -/
structure Posted where
  thread : Nat          -- stack x 40 + thread
  group : Nat           -- which instruction sent it
  bank : Nat            -- issuing bank
  pa : Nat
  leaf : Mark
  bytes : Nat
  op : Nat              -- 0 store, 1 scatter-add, 16 + func8 atomic
  v : Word
  c : Word
  fmt : BitVec 4
  applied : Bool
  flags : BitVec 5
  lost : Bool
  deriving DecidableEq, Repr

/-- A plain scalar store that has taken effect for its own thread's scalar side and not elsewhere yet (14:R315, R316). -/
structure Delayed where
  tid : Nat             -- stack x 40 + thread
  pa : Nat
  bytes : Nat
  v : Nat
  alloc : Bool
  leaf : Mark
  deriving DecidableEq, Repr

/-- A registered kernel descriptor (22:R466, 02:R62). -/
structure Kernel where
  root : Word
  handle : Word
  entry : Word
  need : Nat
  pref : Nat
  nargs : Nat
  loops : List (Nat × Nat × Nat)   -- kind, source, count or argument index
  secver : Nat
  rowdep : Bool
  hashes : List (Nat × BitVec 256) -- page number ↦ hash of a hashed code page
  deriving DecidableEq, Repr

/-- An export window (23:R483). -/
structure Export where
  w0 : Word
  base : Word
  size : Word
  deriving DecidableEq, Repr

/-- BOOTSTAT (24:R493). -/
structure Boot where
  on : Bool             -- bring-up has started (24:R492)
  ready : Bool
  phase : BitVec 8
  fail : BitVec 16
  stkout : BitVec 32
  deriving DecidableEq, Repr

/-- What manufacture fixed: defective half-slabs and manufacture pairs (stack x 32 + half-slab), the key-slot hashes (01:R22, 22:R473). -/
structure Fuses where
  defective : List Nat
  pairs : List (Nat × Nat)
  edKeys : List (BitVec 384)
  mlKeys : List (BitVec 384)
  deriving DecidableEq, Repr

/-- Which hart's instruction the next step runs: stack, thread 2 x fe + c, and a logical bank when it is a bank thread. -/
structure Cur where
  st : Nat
  th : Nat
  bank : Option Nat
  deriving DecidableEq, Repr

/-- Where a 32-byte word with ECC lies outside the cells (21:R445): a latch, a crown line, a scratch way, a save slot's registers or its image of
a FREE latch, a save sector, a bank instruction buffer. `b` is stack x 256 + bank. -/
inductive Place where
  | latch (b k word : Nat)
  | line (b line word : Nat)
  | scratch (b word : Nat)
  | slot (b n : Nat)
  | slotLatch (b n k word : Nat)
  | sector (st home word : Nat)
  | bib (st key word : Nat)
  deriving DecidableEq, Repr

/-- Physical lane groups that err in verify mode (21:R456, R457): in which of the executing banks by position, in which chunk, 0-7, of the result beat
that holds which element. -/
structure LaneFault where
  bad : List Nat
  chunk : Nat
  pos : Nat
  elem : Nat
  deriving DecidableEq, Repr

/-- What happens next where the spec leaves the choice to the device, or the outside acts (DESIGN CHOICE, log 2). -/
inductive Input where
  | event (i : Instr)                     -- a step of the opcode table that has no encoding
  | switch (st : Fin 32) (th : Fin 40) (bank : Option (Fin 64))   -- another hart runs
  | runAhead                              -- the scalar side enters its next vector-side instruction in the queue
  | drainOne                              -- the vector side runs the oldest queued instruction
  | evictXlat (n : Nat)                   -- a cached translation leaves its cache
  | evictPtr (n : Nat)                    -- a pointer entry leaves its walker cache
  | upset (word : Nat) (fatal : Bool) (flip : Nat)     -- a word in the cells takes an error: correctable, or not, and then these bits of it flip
  | upsetAt (p : Place) (fatal : Bool) (flip : Nat)    -- a word outside the cells does
  | laneFault (f : LaneFault)             -- lane groups err in verify mode (21:R457)
  | regFault (st : Fin 32) (th : Fin 40) (r : Fin 64) (shadow : Bool) (val : Word) (res : BitVec 4)  -- bits of an s register and its residue flip
  | xFault (b : Nat) (r : Fin 32) (val : Word) (res : BitVec 4)     -- the same for an x register (21:R445)
  | tileFault (b : Nat) (t : Fin 4) (elem : Nat) (val : BitVec 32)  -- bits of a tile's element flip (21:R445)
  | ackFor (cmd unit : Nat)               -- the next acknowledgement answers this unit of this command (23:R488)
  | farStop (n : Nat)                     -- an invalidation stops the next far instruction after `n` elements (13:R295)
  | cut (n : Nat)                         -- the hard pre-emption that is due stops the next vector-side instruction after `n` units (16:R365)
  | delayStore                            -- the next plain scalar store is delayed (14:R315, R316)
  | landStore (n : Nat)                   -- a delayed store takes effect everywhere
  | dieFail (d : Fin 4)                   -- an edge die fails (01:R17)
  | clearAlarms                           -- the lantern clears its alarm record (24:R498)
  | hostStore (addr : Nat) (v : Byte)       -- the host writes a byte of its own memory (03:R78)
  deriving DecidableEq, Repr

/-- The machine. -/
structure State where
  cur : Cur
  thr : Thread                       -- the control thread of `cur`
  threads : List (Nat × Thread)       -- the others, by stack x 40 + thread
  banks : List (Nat × Bank)           -- by stack x 256 + physical bank
  stks : List (Nat × Stack)
  dram : Memory
  cellPoison : List Nat               -- poisoned 32-byte words in the cells, by address / 32 (21:R448)
  latent : List (Nat × Bool)          -- words ECC has yet to see: correctable (false) or not (21:R446)
  upsets : List (Place × Bool)        -- the same for words outside the cells (21:R445)
  hostMem : Memory
  xlat : List Xlat
  ptrs : List Ptr                     -- the walker caches
  vrun : Bool                         -- the instruction being executed is the head of the queue
  cut : Option Nat                    -- units after which the next vector-side instruction is stopped (16:R365)
  farStop : Option Nat                -- elements after which an invalidation stops the next far instruction (13:R295)
  ackFor : Option (Nat × Nat)         -- the command and the unit that the next acknowledgement names, the oldest one due if none (23:R488)
  delay : Bool                        -- the next plain scalar store is delayed
  stores : List Delayed               -- delayed stores, oldest first
  posted : List Posted
  nodecfg : Word
  linkto : Word
  boot : Boot
  exports : Vector Export 64
  hwin : Vector (Word × Word) 16
  keys : Vector (Option (BitVec 256)) 16
  fuseCount : Nat
  alarms : BitVec 3
  kernels : List Kernel
  ports : List Nat                    -- failed ports (23:R481)
  outbox : List Packet                -- packets sent to other modules
  flagsOut : List Packet              -- COLL flags due here; `len` counts the elements still to apply (23:R487)
  notices : List ErrRec               -- reports made to the host (21:R465)
  lanternNotices : List ErrRec        -- reports made to the lantern (21:R465)
  replies : List (Nat × Word)         -- answers to host reads and submissions
  fuses : Fuses
  laneFault : Option LaneFault
  feCount : List (Nat × Nat)          -- instructions completed by each front end, by stack x 20 + front end (21:R454)
  inputs : List Input
  tick : Nat                          -- MODEL'S OWN: where the next free value is drawn (log 4)
  deriving DecidableEq, Repr

/-- Reasons for a stop where the spec gives no effect. No meaning of this model ends in one. -/
inductive Fault where
  deriving DecidableEq, Repr

/-- Reasons for refusing an instruction. -/
inductive Refusal where
  /-- Raised by an arm of `exec` whose meaning is not written; safe: the run stops. -/
  | notModelled (mnemonic : String)
  deriving DecidableEq, Repr

/-- What a step answers. -/
abbrev Out := Host.Outcome State Fault Refusal

/-! ### Reset values -/

def SReg.zero : SReg := ⟨0, 0⟩
def LoopLevel.reset : LoopLevel := ⟨0, 0, false, 0⟩
def VlCfg.reset : VlCfg := ⟨0, 0, 0, 0⟩
def VPoison.reset : VPoison := ⟨false, 0, 0, 0⟩
def RMode.reset : RMode := ⟨false, 1⟩
def PCfg.reset : PCfg := ⟨false, 0, 0, 0⟩
def SProg.reset : SProg := ⟨false, 0, false, false, false, 0, 0, 0, 0⟩

/-- Task-start values of a front (16:R359, 20:R443). -/
def Front.reset : Front :=
  ⟨0, Vector.replicate 4 LoopLevel.reset, VlCfg.reset, 0, VPoison.reset, RMode.reset, PCfg.reset, SProg.reset, none, false,
   Vector.replicate 64 0, 0, false⟩

def BankThread.reset : BankThread := ⟨Front.reset, .user, 0, .joined⟩
def BPart.reset : BPart := ⟨0, 0, 0, 0⟩
def TrapRegs.reset : TrapRegs := ⟨0, 0, 0, false, .user, false, false, 0, 0, 0, 0⟩
def UiRegs.reset : UiRegs := ⟨0, false, false, false, false, 0⟩

/-- A control thread that holds no task. -/
def Thread.reset : Thread :=
  { sregs := Vector.replicate 64 SReg.zero, shadow := Vector.replicate 16 SReg.zero, front := Front.reset, level := .user,
    flags := 0, srseed := 1, bmask := 0, bpart := BPart.reset, bankva := 0, scrbase := 0, tr := TrapRegs.reset,
    ui := UiRegs.reset, cycle := 0, queue := [], resume := [], heldPc := 0, drain := false, cond := .idle,
    handlers := [], softReq := false, reqBy := none, hardReq := false, ueReq := none, bts := [], ploss := false, results := Vector.replicate 2 [], lostBind := none, task := none }

/-- A FREE register with tag 0 and a zero latch (16:R359). -/
def WReg.reset : WReg := ⟨.free, 0, 0, 0, false, 0, 0, none, true⟩

/-- A bank after bring-up's zeroing (24:R492). The LFSR's value before any task start is not given (log 3). -/
def Bank.reset : Bank :=
  { w := Vector.replicate 16 WReg.reset, m := Vector.replicate 16 0, x := Vector.replicate 32 SReg.zero,
    t := Vector.replicate 4 0, q := Vector.replicate 4 0, lfsr := 1, flags := 0, ploss := false,
    debt := Vector.replicate 16 0, ptr := Vector.replicate 16 0, deadline := 0, pend := [], presence := [], lines := [],
    mode := 0, ways := 0, scratch := [], scratchPoison := [], repairs := [], xgroup := [], pendRepair := [], copying := [], corrected := [], repairDue := [],
    slots := Vector.replicate 2 none, count := 0, blames := [], quarantined := [], ckMiss := [], suspect := false,
    spare := false, retired := false, gone := false, moving := false }

def HostQ.reset : HostQ := ⟨0, 0, 0, 0, 0⟩
def Column.reset : Column := ⟨.triple, 0⟩
def Journal.reset : Journal := ⟨[], [], [], 0⟩
def EngQ.reset : EngQ := ⟨[], none, none, 0⟩

/-- A stack at reset: SCHCTL, ERRCFG and PWRCTL as 18:R397, 21:R465 and 24:R502 give them. -/
def Stack.reset : Stack :=
  { ganglim := 0x0100, softlim := 0x0040, ageshift := 20, cols := Vector.replicate 6 Column.reset, park := 0, ctxbase := 0,
    bindGo := false, bindStatus := 0, bindFe := 0, bindHalves := 0, gangact := 0, retStatus := 0, retBank := 0, retGo := false, limit := 420, duty := 0,
    hot := false, hostq := Vector.replicate 16 HostQ.reset, devq := [], table := [], nextLaunch := 0, waiting := [], order := 0, journal := false, frozen := none, jlast := Journal.reset,
    fronds := [], failedFe := 0, spareUsed := 0, bib := [], gel := [], gelRev := [], engines := Vector.replicate 64 EngQ.reset,
    log := [], logCount := 0, logLost := 0, errcfg := 0xEE, sectors := [], sectorBad := [], residueMiss := [], excluded := false }

def Boot.reset : Boot := ⟨false, false, 0, 0, 0⟩

/-- The module at power-on, before bring-up has started (24:R492, R493): no binding, no task, no key, nothing loaded. -/
def State.reset : State :=
  { cur := ⟨0, 0, none⟩, thr := Thread.reset, threads := [], banks := [], stks := [], dram := [], cellPoison := [],
    latent := [], upsets := [], hostMem := [], xlat := [], ptrs := [], vrun := false, cut := none, farStop := none, ackFor := none, delay := false, stores := [], posted := [], nodecfg := 0, linkto := 2000, boot := Boot.reset,
    exports := Vector.replicate 64 ⟨0, 0, 0⟩, hwin := Vector.replicate 16 (0, 0), keys := Vector.replicate 16 none,
    fuseCount := 0, alarms := 0, kernels := [], ports := [], outbox := [], flagsOut := [], notices := [], lanternNotices := [], replies := [],
    fuses := ⟨[], [], [], []⟩, laneFault := none, feCount := [], inputs := [], tick := 0 }

end Sys2Proof.Machine
end

