-- ==== Sys2Proof/Machine/Maps.lean ====
section
/-!
DEFINITION. Lists of (key, value) pairs in rising key order, and byte memory in its canonical form: keys strictly rising, no byte
equal to 0, which is what an unlisted address reads as (log 1).
-/

namespace Sys2Proof.Machine

/-- The value at a key of a list in rising key order. -/
def mapGet {α : Type} : List (Nat × α) → Nat → Option α
  | [], _ => none
  | (k, v) :: t, a => if a < k then none else if a = k then some v else mapGet t a

/-- The value at a key, or `d`. -/
def mapGetD {α : Type} (m : List (Nat × α)) (a : Nat) (d : α) : α := (mapGet m a).getD d

/-- Sets the value at a key. -/
def mapSet {α : Type} : List (Nat × α) → Nat → α → List (Nat × α)
  | [], a, x => [(a, x)]
  | (k, v) :: t, a, x =>
    if a < k then (a, x) :: (k, v) :: t
    else if a = k then (a, x) :: t
    else (k, v) :: mapSet t a x

/-- Removes a key. -/
def mapErase {α : Type} : List (Nat × α) → Nat → List (Nat × α)
  | [], _ => []
  | (k, v) :: t, a => if a < k then (k, v) :: t else if a = k then t else (k, v) :: mapErase t a

/-- Every key lies above `lo`, and keys rise strictly. -/
def keysAbove {α : Type} : Option Nat → List (Nat × α) → Bool
  | _, [] => true
  | lo, (k, _) :: t => (match lo with | none => true | some l => decide (l < k)) && keysAbove (some k) t

/-- The canonical form of byte memory. -/
def Memory.wf (m : Memory) : Bool := keysAbove none m && m.all (fun c => decide (c.2 ≠ 0))

/-- One byte of memory. -/
def memRead (m : Memory) (a : Nat) : Byte := mapGetD m a 0

/-- Writes one byte, keeping the canonical form. -/
def memWrite (m : Memory) (a : Nat) (b : Byte) : Memory := if b = 0 then mapErase m a else mapSet m a b

/-- `n` bytes from address `a`, little-endian (00:R7). -/
def memReadN (m : Memory) : Nat → Nat → Nat
  | _, 0 => 0
  | a, n + 1 => (memRead m a).toNat + 256 * memReadN m (a + 1) n

/-- Writes the low `n` bytes of `v` at `a`, little-endian (00:R7). -/
def memWriteN (m : Memory) : Nat → Nat → Nat → Memory
  | _, 0, _ => m
  | a, n + 1, v => memWriteN (memWrite m a (BitVec.ofNat 8 v)) (a + 1) n (v / 256)

/-- Adds a number to a list of numbers kept in rising order without repeats. -/
def setInsert : List Nat → Nat → List Nat
  | [], a => [a]
  | k :: t, a => if a < k then a :: k :: t else if a = k then k :: t else k :: setInsert t a

/-- Removes a number. -/
def setErase (l : List Nat) (a : Nat) : List Nat := l.filter (fun k => k != a)

/-- Element `n` of a list replaced. -/
def listSet {α : Type} : List α → Nat → α → List α
  | [], _, _ => []
  | _ :: t, 0, x => x :: t
  | h :: t, n + 1, x => h :: listSet t n x

/-- Element `n` of a list removed. -/
def listDrop {α : Type} : List α → Nat → List α
  | [], _ => []
  | _ :: t, 0 => t
  | h :: t, n + 1 => h :: listDrop t n

/-- The elements of a list with their positions. -/
def enumFrom {α : Type} : Nat → List α → List (Nat × α)
  | _, [] => []
  | n, h :: t => (n, h) :: enumFrom (n + 1) t

/-- A function applied to every element of a vector. -/
def vecMap {α β : Type} {n : Nat} (f : α → β) (v : Vector α n) : Vector β n :=
  ⟨⟨v.toList.map f⟩, by simp⟩

/-- The vector of `f 0` to `f (n - 1)`. -/
def vecGen {α : Type} (n : Nat) (f : Nat → α) : Vector α n :=
  ⟨⟨(List.range n).map f⟩, by simp⟩

end Sys2Proof.Machine
end

