-- ==== Sys2Proof/Machine/Bits.lean ====
section
/-!
DEFINITION. Bit fields, sign extension, residues, and the elements of latches, masks, tiles and checksum rows.
-/

namespace Sys2Proof.Machine

/-- Bits [hi:lo] of a word, as a number (00:R6). -/
def fieldOf (w : Word) (hi lo : Nat) : Nat := w.toNat / 2 ^ lo % 2 ^ (hi + 1 - lo)

/-- Bit `n` of a word (00:R6). -/
def bitOf (w : Word) (n : Nat) : Bool := decide (w.toNat / 2 ^ n % 2 = 1)

/-- A flag as the number 0 or 1. -/
def b2n (b : Bool) : Nat := if b then 1 else 0

/-- The signed value of the low `w` bits of a number. -/
def toSigned (w n : Nat) : Int :=
  let m := n % 2 ^ w
  if w = 0 then 0 else if m < 2 ^ (w - 1) then (m : Int) else (m : Int) - (2 ^ w : Nat)

/-- An integer modulo 2^w. -/
def wrapInt (w : Nat) (x : Int) : Nat := (x % ((2 ^ w : Nat) : Int)).toNat

/-- The residue of a value: its unsigned value modulo 15 (15:R353). -/
def rho (v : Word) : BitVec 4 := BitVec.ofNat 4 (v.toNat % 15)

/-- A register holding a value with that value's own residue (15:R354, the writers that form it from the value). -/
def mkS (v : Word) : SReg := ⟨v, rho v⟩

/-- Element `i` of width `b` (06:R129). -/
def getEl {n : Nat} (v : BitVec n) (b i : Nat) : Nat := v.toNat / 2 ^ (b * i) % 2 ^ b

/-- Element `i` of width `b` replaced (06:R129). -/
def setEl {n : Nat} (v : BitVec n) (b i : Nat) (x : Nat) : BitVec n :=
  BitVec.ofNat n
    (v.toNat % 2 ^ (b * i) + (x % 2 ^ b) * 2 ^ (b * i) + v.toNat / 2 ^ (b * i + b) * 2 ^ (b * i + b))

/-- Several elements replaced, from a list of (index, value). -/
def setEls {n : Nat} (v : BitVec n) (b : Nat) : List (Nat × Nat) → BitVec n
  | [] => v
  | (i, x) :: t => setEls (setEl v b i x) b t

/-- Bit `i` of a mask. -/
def maskBit (m : MaskBits) (i : Nat) : Bool := decide (getEl m 1 i = 1)

/-- Element width of a format tag other than 0 (06:R127). Tag 0 has none of its own. -/
def tagWidth (t : BitVec 4) : Nat :=
  match t.toNat with
  | 1 => 8 | 2 => 8 | 3 => 16 | 4 => 32 | 5 => 64 | 6 => 8 | 7 => 8 | 8 => 4 | 9 => 16 | 10 => 16 | 11 => 32 | 12 => 64
  | 13 => 8 | 14 => 4 | 15 => 1 | _ => 0

/-- Element width of the configuration's format, where bits counts 8 (06:R128). -/
def fmtWidth (t : BitVec 4) : Nat := if t = 0 then 8 else tagWidth t

/-- The number of elements of width `b` that a row holds (06:R127). -/
def capOf (b : Nat) : Nat := 16384 / b

/-- Integer tags 1-5 and 14 (06:R127). -/
def isIntTag (t : BitVec 4) : Bool := (1 ≤ t.toNat ∧ t.toNat ≤ 5) || t.toNat = 14

/-- Floating tags 6-12 (06:R127). -/
def isFloatTag (t : BitVec 4) : Bool := decide (6 ≤ t.toNat ∧ t.toNat ≤ 12)

/-- Mask granule for elements of width `b` (07:R152). -/
def granule (b : Nat) : Nat := if b = 1 then 8 else if b = 4 then 2 else 1

/-- The integer an element code stands for under an integer tag: UINT8 unsigned, every other signed (06:R130). -/
def intValue (t : BitVec 4) (code : Nat) : Int :=
  if t.toNat = 2 then ((code % 256 : Nat) : Int) else toSigned (tagWidth t) code

end Sys2Proof.Machine
end

