-- ==== Sys2Proof/Machine/Access.lean ====
section
/-!
DEFINITION. Reading and writing the pieces of the state: threads, banks, stacks, the running hart's front, scalar registers. s0, x0 and
m0 are hard-wired here and nowhere else (00:R11, 15:R328).
-/

namespace Sys2Proof.Machine

/-- The key of a control thread. -/
def tidOf (st th : Nat) : Nat := st * 40 + th

/-- The running control thread's key. -/
def State.tid (s : State) : Nat := tidOf s.cur.st s.cur.th

def State.thread (s : State) (tid : Nat) : Thread := if tid = s.tid then s.thr else mapGetD s.threads tid Thread.reset

def State.setThread (s : State) (tid : Nat) (t : Thread) : State :=
  if tid = s.tid then { s with thr := t } else { s with threads := mapSet s.threads tid t }

def State.bank (s : State) (b : Nat) : Bank := mapGetD s.banks b Bank.reset
def State.setBank (s : State) (b : Nat) (x : Bank) : State := { s with banks := mapSet s.banks b x }
def State.stack (s : State) (n : Nat) : Stack := mapGetD s.stks n Stack.reset
def State.setStack (s : State) (n : Nat) (x : Stack) : State := { s with stks := mapSet s.stks n x }

/-- Makes another hart the running one. -/
def State.switchTo (s : State) (st th : Nat) (bank : Option Nat) : State :=
  if tidOf st th = s.tid then { s with cur := ⟨st, th, bank⟩ }
  else
    { s with cur := ⟨st, th, bank⟩, thr := s.thread (tidOf st th), threads := mapSet (mapErase s.threads (tidOf st th)) s.tid s.thr }

/-- The running bank thread's record. -/
def State.bt (s : State) (j : Nat) : BankThread := mapGetD s.thr.bts j BankThread.reset

def State.setBt (s : State) (j : Nat) (b : BankThread) : State :=
  { s with thr := { s.thr with bts := mapSet s.thr.bts j b } }

/-- The running hart's own registers: the control thread's, or the bank thread's copies (16:R367). -/
def State.front (s : State) : Front :=
  match s.cur.bank with
  | none => s.thr.front
  | some j => (s.bt j).front

def State.setFront (s : State) (f : Front) : State :=
  match s.cur.bank with
  | none => { s with thr := { s.thr with front := f } }
  | some j => s.setBt j { s.bt j with front := f }

/-- The frond bound to a front end of a stack. -/
def Stack.frond (k : Stack) (fe : Nat) : Option Frond := k.fronds.find? (fun f => f.fe == fe)

/-- The physical half-slab (2 x slab + half) of bit `i` of a frond's mask: column i / 2 of the front end's slab row (03:R65, 18:R398). -/
def halfSlab (fe i : Nat) : Nat := 2 * (4 * (fe / 5) + i / 2) + i % 2

/-- The half-slabs of a frond in the order of 01:R27. -/
def Frond.halfList (f : Frond) : List Nat :=
  ((List.range 8).filter (fun i => f.halves.getLsbD i)).map (halfSlab f.fe)

/-- Bank numbers of a half-slab: 16 x slab + position, the lower half first (03:R65). -/
def halfBanks (h : Nat) : List Nat := (List.range 8).map (fun p => 16 * (h / 2) + 8 * (h % 2) + p)

/-- A frond's physical banks in logical order; a bank whose block is out of service is left out (01:R27, R31). -/
def frondBanks (s : State) (st : Nat) (f : Frond) : List Nat :=
  (f.halfList.flatMap halfBanks).filter (fun b => !(s.bank (st * 256 + b)).retired)

/-- The front end of a thread number, and which of its two threads it is. -/
def feOf (th : Nat) : Nat := th / 2

/-- The physical banks of a front end's frond, in logical order, as stack x 256 + bank (01:R27). -/
def banksOf (s : State) (st fe : Nat) : List Nat :=
  match (s.stack st).frond fe with
  | none => []
  | some f => (frondBanks s st f).map (fun b => st * 256 + b)

/-- The physical banks of the running thread's frond. -/
def State.bankList (s : State) : List Nat := banksOf s s.cur.st (feOf s.cur.th)

/-- Physical bank (stack x 256 + bank) of a logical bank of the running frond; a number past the frond's banks names none. -/
def State.phys (s : State) (j : Nat) : Option Nat := s.bankList[j]?

/-- The bank a scalar access of a bank thread runs in. -/
def State.ownBank (s : State) (j : Nat) : Nat := (s.phys j).getD (32 * 256 + j)

/-- Reads an x register: x0 reads zero with residue 0 (15:R328, R353). -/
def Bank.getX (b : Bank) (r : Fin 32) : SReg := if r = 0 then SReg.zero else b.x[r]

/-- Writes an x register: x0 ignores writes (15:R328). -/
def Bank.setX (b : Bank) (r : Fin 32) (v : SReg) : Bank := if r = 0 then b else { b with x := b.x.set r v }

/-- Reads a mask register: m0 reads all ones (00:R11). -/
def Bank.getM (b : Bank) (r : Fin 16) : MaskBits := if r = 0 then BitVec.allOnes 2048 else b.m[r]

/-- Writes a mask register: m0 ignores writes (00:R11). -/
def Bank.setM (b : Bank) (r : Fin 16) (v : MaskBits) : Bank := if r = 0 then b else { b with m := b.m.set r v }

/-- The x register that a six-bit scalar field names in a bank thread: bits [4:0] (02:R37). -/
def xOf (r : Fin 64) : Fin 32 := ⟨r.val % 32, Nat.mod_lt _ (by decide)⟩

/-- Reads the scalar register a six-bit field names: s0-s63 on a control thread, x0-x31 in a bank thread (02:R37). s0 reads zero (00:R11). -/
def State.getS (s : State) (r : Fin 64) : SReg :=
  match s.cur.bank with
  | none => if r = 0 then SReg.zero else s.thr.sregs[r]
  | some j => (s.bank (s.ownBank j)).getX (xOf r)

/-- Writes the scalar register a six-bit field names; s0 and x0 discard the write (00:R11). -/
def State.setS (s : State) (r : Fin 64) (v : SReg) : State :=
  match s.cur.bank with
  | none => if r = 0 then s else { s with thr := { s.thr with sregs := s.thr.sregs.set r v } }
  | some j => s.setBank (s.ownBank j) ((s.bank (s.ownBank j)).setX (xOf r) v)

/-- The value of a scalar register. -/
def State.sval (s : State) (r : Fin 64) : Word := (s.getS r).val

/-- Writes a value with the residue of the value written (15:R354). -/
def State.setV (s : State) (r : Fin 64) (v : Word) : State := s.setS r (mkS v)

/-- Draws the counter of free values and moves it on (log 4). -/
def State.draw (s : State) : Nat × State := (s.tick, { s with tick := s.tick + 1 })

/-- WAYPART as CRR reads it (12:R269): COUNT reads 8 under MODE 1 and 0 under MODE 0. -/
def Frond.waypart (f : Frond) : Word :=
  BitVec.ofNat 64 (f.mode.toNat * 16 + (if f.mode = 1 then 8 else if f.mode = 2 then f.ways.toNat else 0))

/-- Which ways are scratch under a partition (12:R269). -/
def scratchWay (mode : BitVec 2) (ways : BitVec 4) (way : Nat) : Bool :=
  match mode.toNat with
  | 1 => decide (8 ≤ way)
  | 2 => decide (16 - ways.toNat ≤ way)
  | _ => false

/-- Which ways are scratch under a frond's WAYPART. -/
def Frond.isScratch (f : Frond) (way : Nat) : Bool := scratchWay f.mode f.ways way

/-- Which ways of a bank's slice are scratch: as its frond's WAYPART last set them; a change of binding leaves them (01:R25). -/
def Bank.isScratch (x : Bank) (way : Nat) : Bool := scratchWay x.mode x.ways way

/-- How many ways of a bank's slice cache lines (12:R267, R269). -/
def Bank.cacheWays (x : Bank) : Nat := ((List.range 16).filter (fun w => !x.isScratch w)).length

/-- The slot of a frond: fronds of a stack in ascending front end (18:R399). -/
def Stack.slotOf (k : Stack) (fe : Nat) : Nat := (k.fronds.filter (fun f => decide (f.fe < fe))).length

/-- The frond that holds a physical bank of a stack. -/
def frondOfBank (s : State) (st b : Nat) : Option Frond :=
  (s.stack st).fronds.find? (fun f => (f.halfList.flatMap halfBanks).contains b)

/-- The owned banks of a range under a mask: (logical, stack x 256 + physical), ascending (16:R360). -/
def ownedIn (banks : List Nat) (base count : Nat) (mask : Word) : List (Nat × Nat) :=
  (enumFrom 0 banks).filter (fun p => decide (base ≤ p.1 ∧ p.1 < base + count) && bitOf mask p.1)

/-- Every bank a thread owns, whatever its BMASK: (logical, physical). -/
def ownedBy (s : State) (st th : Nat) : List (Nat × Nat) :=
  let t := s.thread (tidOf st th)
  ownedIn (banksOf s st (feOf th)) t.bpart.base.toNat t.bpart.count.toNat (BitVec.allOnes 64)

/-- Every bank the running control thread owns. -/
def State.ownedAll (s : State) : List (Nat × Nat) := ownedBy s s.cur.st s.cur.th

/-- The key of the front end's thread that owns a physical bank, if a task of the frond does (16:R360). -/
def ownerOf (s : State) (st b : Nat) : Option (Nat × Nat) :=
  match frondOfBank s st b with
  | none => none
  | some f =>
    match (frondBanks s st f).findIdx? (· == b) with
    | none => none
    | some j =>
      let own (c : Nat) : Bool :=
        let t := s.thread (tidOf st (2 * f.fe + c))
        t.task.isSome && decide (t.bpart.base.toNat ≤ j ∧ j < t.bpart.base.toNat + t.bpart.count.toNat)
      if own 0 then some (2 * f.fe, j) else if own 1 then some (2 * f.fe + 1, j) else none

/-! ### Windows -/

/-- The window of a physical address (03:R78). -/
inductive Window where
  | dram | scratch | control | host
  deriving DecidableEq, Repr

/-- Bits [41:40] select the window (03:R78). -/
def windowOf (pa : Nat) : Window :=
  match pa / 2 ^ 40 % 4 with
  | 0 => .dram
  | 1 => .scratch
  | 2 => .control
  | _ => .host

/-- The host address that a valid HWIN gives a host-window offset, whatever its SIZE (23:R482). -/
def hostPlace (s : State) (pa : Nat) : Option Nat :=
  let off := pa % 2 ^ 40
  match s.hwin.toList[off / 2 ^ 36]? with
  | some w => if bitOf w.2 63 then some (fieldOf w.1 51 12 * 4096 + off % 2 ^ 36) else none
  | none => none

/-- The host address behind a host-window offset, if a valid HWIN covers it (23:R482). Without the host link, port 64, it covers none (01:R17;
DESIGN CHOICE, log 118). -/
def hostAddr (s : State) (pa : Nat) : Option Nat :=
  let off := pa % 2 ^ 40
  match s.hwin.toList[off / 2 ^ 36]? with
  | some w =>
    if bitOf w.2 63 ∧ off % 2 ^ 36 < fieldOf w.2 39 0 ∧ !s.ports.contains 64 then some (fieldOf w.1 51 12 * 4096 + off % 2 ^ 36) else none
  | none => none

/-- A cached translation's 64 KiB page holds a physical address; a page of the host window holds every address that names the same host byte. -/
def Xlat.covers (s : State) (x : Xlat) (pa : Nat) : Bool :=
  decide (x.base = pa / 2 ^ 16 * 2 ^ 16) ||
  (decide (windowOf pa = .host ∧ windowOf x.base = .host) && match hostPlace s x.base, hostPlace s pa with
    | some b, some h => decide (b ≤ h ∧ h < b + 2 ^ 16)
    | _, _ => false)

/-- Removes the verified mark of every translation that `sel` selects. -/
def clearMarks (s : State) (sel : Xlat → Bool) : State :=
  if s.xlat.any (fun x => x.hashed && sel x) then
    { s with xlat := s.xlat.map (fun x => if sel x then { x with hashed := false } else x) }
  else s

/-- A write removes the verified mark of every translation of the page it goes into (22:R476). -/
def clearHashed (s : State) (pa : Nat) : State := clearMarks s (fun x => x.covers s pa)

/-- The same for a write of the host into its own memory. -/
def clearHosted (s : State) (h : Nat) : State :=
  clearMarks s (fun x => decide (windowOf x.base = .host) && match hostPlace s x.base with
    | some b => decide (b ≤ h ∧ h < b + 2 ^ 16)
    | none => false)

end Sys2Proof.Machine
end

