-- ==== Sys2Proof/Machine/Flow.lean ====
section
/-!
DEFINITION. The loop stack and what follows an instruction that completes (15:R344-R347).
-/

namespace Sys2Proof.Machine

/-- The depth of the loop stack: one more than the highest active level (15:R344). -/
def Front.depth (f : Front) : Nat :=
  if f.loops[3].v then 4 else if f.loops[2].v then 3 else if f.loops[1].v then 2 else if f.loops[0].v then 1 else 0

/-- Start of a level's body (15:R344). -/
def LoopLevel.startAddr (l : LoopLevel) : Nat := l.start.toNat * 4

/-- End address of a level: START[51:32] joined with END and 0b00 (15:R344). -/
def LoopLevel.endAddr (l : LoopLevel) : Nat := l.start.toNat / 2 ^ 30 * 2 ^ 32 + l.fin.toNat * 4

/-- A number as a loop level. -/
def lvl4 (n : Nat) : Fin 4 := ⟨n % 4, Nat.mod_lt _ (by decide)⟩

/-- Continues at `q`, the address after an instruction that completed without a jump: loops back or ends levels (15:R346). -/
def Front.loopBack (f : Front) (q : Word) : Nat → Front
  | 0 => { f with pc := q }
  | n + 1 =>
    let d := f.depth
    if d = 0 then { f with pc := q }
    else
      let i := lvl4 (d - 1)
      let l := f.loops[i]
      if q.toNat ≠ l.endAddr then { f with pc := q }
      else if 1 < l.count.toNat then
        { f with loops := f.loops.set i { l with count := l.count - 1 }, pc := BitVec.ofNat 64 l.startAddr }
      else Front.loopBack { f with loops := f.loops.set i { l with v := false } } q n

/-- Falls through to `q` (15:R346). -/
def Front.fallTo (f : Front) (q : Word) : Front := f.loopBack q 5

/-- Ends the levels that a jump from `a` to `t` leaves (15:R347). -/
def Front.leave (f : Front) (a t : Nat) : Nat → Front
  | 0 => f
  | n + 1 =>
    let d := f.depth
    if d = 0 then f
    else
      let i := lvl4 (d - 1)
      let l := f.loops[i]
      if l.startAddr ≤ a ∧ a < l.endAddr ∧ !(decide (l.startAddr ≤ t) && decide (t < l.endAddr)) then
        Front.leave { f with loops := f.loops.set i { l with v := false } } a t n
      else f

/-- A taken branch or plain jump from the pc to `t` (15:R347). -/
def Front.jumpTo (f : Front) (t : Word) : Front := { f.leave f.pc.toNat t.toNat 4 with pc := t }

/-- Counts a completed instruction (15:R352). -/
def Front.retire (f : Front) : Front := { f with instret := f.instret + 1 }

end Sys2Proof.Machine
end

