-- ==== Sys2Proof/Machine/Layout.lean ====
section
/-!
DEFINITION. Control registers as words: fields of each layout joined and taken apart (07:R149, R155, 09:R217, 10:R241, 12:R283, 15:R344, 16:R361,
20:R433, R434, 21:R451).
-/

namespace Sys2Proof.Machine

/-- Joins fields given as (value, lowest bit). -/
def joinWord (l : List (Nat × Nat)) : Word := BitVec.ofNat 64 (l.foldl (fun acc p => acc + p.1 * 2 ^ p.2) 0)


/-- VLCFG as a word (07:R149). -/
def VlCfg.word (c : VlCfg) : Word := joinWord [(c.fmt.toNat, 0), (c.blk.toNat, 8), (c.vl.toNat, 15), (c.live.toNat, 32)]

/-- VPOISON as a word (21:R451). -/
def VPoison.word (p : VPoison) : Word := joinWord [(p.elem.toNat, 0), (p.opnd.toNat, 18), (p.reg.toNat, 20), (b2n p.v, 63)]

/-- PCFG as a word (09:R217). -/
def PCfg.word (p : PCfg) : Word := joinWord [(p.wb.toNat, 0), (p.wa.toNat, 4), (p.wd.toNat, 8), (b2n p.sgn, 12)]

/-- LOOPn and LOOPBn as words (15:R344). -/
def LoopLevel.word (l : LoopLevel) : Word := joinWord [(b2n l.v, 0), (l.fin.toNat, 2), (l.count.toNat, 32)]
def LoopLevel.baseWord (l : LoopLevel) : Word := joinWord [(l.start.toNat, 2)]

/-- BPART as a word (16:R361): PEND is 1 exactly when REQ differs from COUNT. -/
def BPart.word (p : BPart) : Word :=
  joinWord [(p.base.toNat, 0), (p.count.toNat, 8), (p.min.toNat, 32), (p.req.toNat, 48), (b2n (decide (p.req ≠ p.count)), 63)]

/-- UIVEC and UISTAT as words (12:R283). -/
def UiRegs.vecWord (u : UiRegs) : Word := joinWord [(b2n u.en, 0), (u.handler.toNat, 2)]
def UiRegs.statWord (u : UiRegs) : Word := joinWord [(u.epc.toNat, 2), (b2n u.pend0, 61), (b2n u.pend1, 62), (b2n u.active, 63)]

/-- SPROG as a word (10:R241). -/
def SProg.word (p : SProg) : Word :=
  BitVec.ofNat 64 (b2n p.active * 2 ^ 63 + p.s.toNat * 2 ^ 27 + b2n p.full * 2 ^ 26 + b2n p.ck * 2 ^ 25 + b2n p.tp * 2 ^ 24 +
    p.ti.toNat * 2 ^ 22 + p.weight.toNat * 2 ^ 16 + p.pair.toNat * 2 ^ 8 + p.kstep.toNat)

/-- TRAPSTAT as a word (20:R433). -/
def trapstat (t : Thread) : Word :=
  joinWord [(t.tr.bpc.toNat, 0), (t.resume.length, 40), (t.tr.bank.toNat, 52), (b2n t.tr.bt, 60), (b2n t.tr.vec, 61),
    (b2n (decide (t.tr.ppl = .supervisor)), 62), (b2n t.tr.busy, 63)]

/-- RMODE as a word (07:R155). -/
def RMode.word (r : RMode) : Word := joinWord [(r.rm.toNat, 0), (b2n r.ftz, 4)]

/-- Fields [hi:lo] of a word as a value of `w` bits. -/
def bits (w : Nat) (v : Word) (hi lo : Nat) : BitVec w := BitVec.ofNat w (fieldOf v hi lo)

/-- A word's fields as VLCFG (07:R149). -/
def VlCfg.ofWord (v : Word) : VlCfg := ⟨bits 15 v 46 32, bits 15 v 29 15, bits 5 v 12 8, bits 4 v 3 0⟩

/-- VLCFG's fields obey its rule (07:R149). -/
def VlCfg.ok (c : VlCfg) : Bool :=
  decide (c.vl.toNat % 2 ^ c.blk.toNat = 0 ∧ c.vl.toNat ≤ capOf (fmtWidth c.fmt) ∧ c.live.toNat ≤ c.vl.toNat ∧ c.blk.toNat ≤ 11)

/-- A word's fields as VPOISON (21:R451). -/
def VPoison.ofWord (v : Word) : VPoison := ⟨bitOf v 63, bits 4 v 23 20, bits 2 v 19 18, bits 15 v 14 0⟩

/-- A word's fields as PCFG (09:R217). -/
def PCfg.ofWord (v : Word) : PCfg := ⟨bitOf v 12, bits 4 v 11 8, bits 4 v 7 4, bits 4 v 3 0⟩

/-- A word's fields as SPROG (10:R241). -/
def SProg.ofWord (v : Word) : SProg :=
  ⟨bitOf v 63, bits 3 v 29 27, bitOf v 26, bitOf v 25, bitOf v 24, bits 2 v 23 22, bits 4 v 19 16, bits 3 v 10 8, bits 6 v 5 0⟩

/-- RMODE after a write (07:R155): an RM of 0, 6 or 7 leaves RM unchanged. -/
def RMode.put (r : RMode) (v : Word) : RMode := ⟨bitOf v 4, if fieldOf v 2 0 = 0 ∨ 6 ≤ fieldOf v 2 0 then r.rm else bits 3 v 2 0⟩

/-- The fields of LOOPn (15:R344). -/
def LoopLevel.put (l : LoopLevel) (v : Word) : LoopLevel := { l with count := bits 32 v 63 32, fin := bits 30 v 31 2, v := bitOf v 0 }

/-- The field of LOOPBn (15:R344). -/
def LoopLevel.putBase (l : LoopLevel) (v : Word) : LoopLevel := { l with start := bits 50 v 51 2 }

end Sys2Proof.Machine
end

