-- ==== Sys2Proof/Machine/NumFmt.lean ====
section
/-!
DEFINITION. Floating formats and rounding (06:R131-R144, 07:R156, R157): values as exact reals, one rounding function for every format,
conversions between any two formats.
-/

namespace Sys2Proof.Machine

/-- Sticky flags as bits (07:R159). -/
def fNV : BitVec 5 := 16
def fDZ : BitVec 5 := 8
def fOF : BitVec 5 := 4
def fUF : BitVec 5 := 2
def fNX : BitVec 5 := 1

/-- Rounding modes (07:R155). -/
def rmRNE : Nat := 1
def rmRTZ : Nat := 2
def rmRDN : Nat := 3
def rmRUP : Nat := 4
def rmSR : Nat := 5

/-- An extended real: NaN, signalling or not; infinity; or (-1)^neg (m + d) 2^e with 0 < d < 1 when `sticky`, d = 0 otherwise. -/
inductive FReal where
  | nan (s : Bool)
  | inf (neg : Bool)
  | fin (neg : Bool) (m : Nat) (e : Int) (sticky : Bool)
  deriving DecidableEq, Repr

/-- Exponent bits, fraction bits, bias, and whether there are infinities, of a floating format (06:R131). -/
structure FParm where
  eb : Nat
  mb : Nat
  bias : Nat
  hasInf : Bool
  deriving DecidableEq, Repr

def fparm (t : BitVec 4) : FParm :=
  match t.toNat with
  | 6 => ⟨4, 3, 7, false⟩
  | 7 => ⟨5, 2, 15, true⟩
  | 8 => ⟨2, 1, 1, false⟩
  | 9 => ⟨5, 10, 15, true⟩
  | 10 => ⟨8, 7, 127, true⟩
  | 11 => ⟨8, 23, 127, true⟩
  | _ => ⟨11, 52, 1023, true⟩

/-- The canonical NaN; E2M1 has none and takes +0 (06:R131, R132). -/
def canonNaN (t : BitVec 4) : Nat :=
  match t.toNat with
  | 6 => 0x7F
  | 7 => 0x7E
  | 8 => 0
  | 9 => 0x7E00
  | 10 => 0x7FC0
  | 11 => 0x7FC00000
  | _ => 0x7FF8000000000000

/-- The code of the largest finite value (06:R131). -/
def maxFinite (t : BitVec 4) : Nat :=
  match t.toNat with
  | 6 => 0x7E
  | 7 => 0x7B
  | 8 => 7
  | 9 => 0x7BFF
  | 10 => 0x7F7F
  | 11 => 0x7F7FFFFF
  | _ => 0x7FEFFFFFFFFFFFFF

/-- A magnitude code with a sign. -/
def withSign (t : BitVec 4) (neg : Bool) (c : Nat) : Nat := if neg then c + 2 ^ (tagWidth t - 1) else c

/-- The infinity of a format that has one. -/
def infCode (t : BitVec 4) (neg : Bool) : Nat := withSign t neg (maxFinite t + 1)

/-- The value of a floating code (06:R131, R132); FTZ reads an FP32 or FP64 subnormal as zero (06:R133). -/
def fdecode (t : BitVec 4) (ftz : Bool) (code : Nat) : FReal :=
  let p := fparm t
  let neg := decide (code / 2 ^ (p.eb + p.mb) % 2 = 1)
  let e := code / 2 ^ p.mb % 2 ^ p.eb
  let f := code % 2 ^ p.mb
  let mag := code % 2 ^ (p.eb + p.mb)
  if mag > maxFinite t then
    if p.hasInf ∧ f = 0 then .inf neg
    else .nan (p.hasInf && decide (f < 2 ^ (p.mb - 1)))
  else if e = 0 then
    if ftz ∧ 11 ≤ t.toNat then .fin neg 0 0 false else .fin neg f (1 - (p.bias : Int) - p.mb) false
  else .fin neg (2 ^ p.mb + f) ((e : Int) - p.bias - p.mb) false

/-- The grid multiple below (m + d) 2^e at quantum 2^q, and the fraction left, as (n, low, width): low / 2^width. -/
def splitAt (m : Nat) (e q : Int) : Nat × Nat × Nat :=
  if q ≤ e then (m * 2 ^ (e - q).toNat, 0, 0)
  else
    let d := (q - e).toNat
    (m / 2 ^ d, m % 2 ^ d, d)

/-- Whether rounding goes away from zero (07:R156). `r` is the LFSR value under SR. -/
def roundUp (mode : Nat) (neg : Bool) (r n low width : Nat) (sticky : Bool) : Bool :=
  if low = 0 ∧ !sticky then false
  else if mode = rmRTZ then false
  else if mode = rmRDN then neg
  else if mode = rmRUP then !neg
  else if mode = rmSR then decide (r * 2 ^ width < low * 2 ^ 32) || (sticky && decide (r * 2 ^ width = low * 2 ^ 32))
  else decide (2 ^ width < 2 * low) || (decide (2 ^ width = 2 * low) && (sticky || decide (n % 2 = 1)))

/-- What a rounding gives: the code, the flags it raises, the LFSR after it. -/
structure Rounded where
  code : Nat
  flags : BitVec 5
  lfsr : BitVec 32
  deriving DecidableEq, Repr

/-- One step of the LFSR (07:R157). -/
def lfsrStep (l : BitVec 32) : BitVec 32 :=
  let s := l >>> 1
  if l.toNat % 2 = 1 then s ^^^ 0x80200003 else s

/-- How a value is rounded: mode, flush, saturation (07:R155, R156, 06:R143). -/
structure RCtl where
  mode : Nat
  ftz : Bool
  sat : Bool
  deriving DecidableEq, Repr

/-- The result of an overflow (06:R143); SR overflows as RNE does. -/
def overflowCode (t : BitVec 4) (c : RCtl) (neg : Bool) : Nat :=
  let toward := c.mode = rmRTZ ∨ (c.mode = rmRDN ∧ !neg) ∨ (c.mode = rmRUP ∧ neg)
  if c.sat ∨ t = 8 ∨ toward then withSign t neg (maxFinite t)
  else if (fparm t).hasInf then infCode t neg
  else canonNaN t

/-- Rounds a finite value into a floating format: code and flags (06:R133, R134, R143, 07:R156). `r` is the LFSR value. -/
def roundFin (t : BitVec 4) (c : RCtl) (r : Nat) (neg : Bool) (m : Nat) (e : Int) (sticky : Bool) : Nat × BitVec 5 :=
  if m = 0 then (withSign t neg 0, 0)
  else
    let p := fparm t
    let emin : Int := 1 - (p.bias : Int)
    let ex : Int := (Nat.log2 m : Int) + e
    let q := (if ex < emin then emin else ex) - p.mb
    let s := splitAt m e q
    let n := s.1 + b2n (roundUp c.mode neg r s.1 s.2.1 s.2.2 sticky)
    let code := (q - (emin - p.mb)).toNat * 2 ^ p.mb + n
    let inexact := decide (s.2.1 ≠ 0) || sticky
    if code > maxFinite t then (overflowCode t c neg, fOF ||| fNX)
    else
      let u := splitAt m e (ex - p.mb)
      let tiny := decide (ex < emin - 1) ||
        (decide (ex = emin - 1) && decide (u.1 + b2n (roundUp c.mode neg r u.1 u.2.1 u.2.2 sticky) < 2 ^ (p.mb + 1)))
      if c.ftz ∧ 11 ≤ t.toNat ∧ 0 < code ∧ code < 2 ^ p.mb then (withSign t neg 0, fUF ||| fNX)
      else (withSign t neg code, if inexact then (if tiny then fUF ||| fNX else fNX) else 0)

/-- Round(x, F, mode) for a floating target (07:R156, 06:R132, R143). -/
def roundTo (t : BitVec 4) (c : RCtl) (l : BitVec 32) (x : FReal) : Rounded :=
  match x with
  | .nan s => ⟨canonNaN t, if s ∨ t = 8 then fNV else 0, l⟩
  | .inf neg =>
    let l' := if c.mode = rmSR then lfsrStep l else l
    if (fparm t).hasInf ∧ !c.sat then ⟨infCode t neg, 0, l'⟩
    else ⟨if c.sat ∨ t = 8 then withSign t neg (maxFinite t) else canonNaN t, fOF ||| fNX, l'⟩
  | .fin neg m e sticky =>
    let l' := if c.mode = rmSR then lfsrStep l else l
    let z := roundFin t c l'.toNat neg m e sticky
    ⟨z.1, z.2, l'⟩

/-- The least and greatest value of an integer format (06:R130). -/
def intMin (t : BitVec 4) : Int := if t = 2 then 0 else -((2 ^ (tagWidth t - 1) : Nat) : Int)
def intMax (t : BitVec 4) : Int := if t = 2 then 255 else ((2 ^ (tagWidth t - 1) : Nat) : Int) - 1

/-- The code of an integer in a format, modulo its width. -/
def intCode (t : BitVec 4) (v : Int) : Nat := wrapInt (tagWidth t) v

/-- A value rounded to an integer format (06:R143). -/
def roundInt (t : BitVec 4) (c : RCtl) (l : BitVec 32) (x : FReal) : Rounded :=
  let bad (neg : Bool) : Nat :=
    if c.sat then intCode t (if neg then intMin t else intMax t) else if t = 2 then 255 else intCode t (intMin t)
  match x with
  | .nan _ => ⟨if c.sat then 0 else intCode t (intMax t), fNV, l⟩
  | .inf neg => ⟨bad neg, fNV, if c.mode = rmSR then lfsrStep l else l⟩
  | .fin neg m e sticky =>
    let l' := if c.mode = rmSR then lfsrStep l else l
    let s := splitAt m e 0
    let n := s.1 + b2n (roundUp c.mode neg l'.toNat s.1 s.2.1 s.2.2 sticky)
    let v : Int := if neg then -(n : Int) else n
    if intMin t ≤ v ∧ v ≤ intMax t then ⟨intCode t v, if s.2.1 ≠ 0 ∨ sticky then fNX else 0, l'⟩
    else ⟨bad neg, fNV, l'⟩

/-- A value converted to an E8M0 scale code (06:R144). -/
def toE8M0 (c : RCtl) (x : FReal) : Nat × BitVec 5 :=
  match x with
  | .nan s => (255, if s then fNV else 0)
  | .inf _ => (if c.sat then 254 else 255, fOF ||| fNX)
  | .fin _ m e _ =>
    if m = 0 then (0, 0)
    else
      let k : Int := (Nat.log2 m : Int) + e
      if 127 < k then (if c.sat then 254 else 255, fOF ||| fNX)
      else ((if k + 127 < 0 then 0 else k + 127).toNat, if m = 2 ^ Nat.log2 m then 0 else fNX)

/-- An exact integer as a real. -/
def realOfInt (v : Int) : FReal := .fin (decide (v < 0)) v.natAbs 0 false

/-- The value of a code under any format but bits and plane (06:R130, R131, R138). -/
def valueOf (t : BitVec 4) (ftz : Bool) (code : Nat) : FReal :=
  if t = 13 then (if code % 256 = 255 then .nan false else .fin false 1 (((code % 256 : Nat) : Int) - 127) false)
  else if isFloatTag t then fdecode t ftz code
  else realOfInt (intValue t code)

/-- An integer to a wider integer is extended; to another one it is clamped under sat and keeps its low bits otherwise; no flag (06:R143). Between
INT8 and UINT8, which the rule does not name, it acts as to a narrower one (DESIGN CHOICE, log 104). -/
def intToInt (src dst : BitVec 4) (sat : Bool) (code : Nat) : Nat :=
  let v := intValue src code
  if sat ∧ tagWidth dst ≤ tagWidth src then intCode dst (if v < intMin dst then intMin dst else if intMax dst < v then intMax dst else v) else intCode dst v

/-- A conversion into a format (06:R143, R144), of equal formats too: the value is rounded into the target. -/
def convertVal (src dst : BitVec 4) (c : RCtl) (l : BitVec 32) (code : Nat) : Rounded :=
  let x := valueOf src c.ftz code
  if isIntTag src ∧ isIntTag dst then ⟨intToInt src dst c.sat code, 0, l⟩
  else if dst = 13 then
    let z := toE8M0 c x
    ⟨z.1, z.2, l⟩
  else if isIntTag dst then roundInt dst c l x
  else roundTo dst c l x

/-- The copy that VCVT makes between equal formats (08:R195): a NaN becomes canonical, a signalling one raises NV, and FTZ applies to the element
read and written (06:R133); any other pair converts. -/
def convert (src dst : BitVec 4) (c : RCtl) (l : BitVec 32) (code : Nat) : Rounded :=
  if src = dst ∧ !isIntTag src then
    match valueOf src c.ftz code with
    | .nan s => ⟨if src = 13 then 255 else canonNaN dst, if s then fNV else 0, l⟩
    | .fin neg 0 _ _ => ⟨if src = 13 then code else withSign dst neg 0, 0, l⟩
    | _ => ⟨code, 0, l⟩
  else convertVal src dst c l code

/-- An exact widening of the mixing rule (06:R139): flags none, a signalling NaN stays signalling, no FTZ. -/
def widen (src dst : BitVec 4) (code : Nat) : Nat :=
  if src = 0 ∨ src = dst then code % 2 ^ tagWidth dst
  else if isIntTag src then intCode dst (intValue src code)
  else
    match fdecode src false code with
    | .nan true => canonNaN dst - 2 ^ ((fparm dst).mb - 1) + 1
    | x => (roundTo dst ⟨rmRNE, false, false⟩ 0 x).code

end Sys2Proof.Machine
end

