-- ==== Sys2Proof/Machine/Arith.lean ====
section
/-!
DEFINITION. Arithmetic on elements of one format: exact operations on reals, rounded results with flags, integer operations, comparisons
(08:R180-R193, 15:R334). Vector, scalar, matrix and far instructions share them.
-/

namespace Sys2Proof.Machine

/-- A result before rounding: its value and the flags the operation itself raises. -/
structure Exact where
  val : FReal
  flags : BitVec 5
  deriving DecidableEq, Repr

def FReal.isNaN : FReal → Bool
  | .nan _ => true
  | _ => false

/-- A signalling NaN operand raises NV (06:R132). -/
def FReal.sig : FReal → BitVec 5
  | .nan true => fNV
  | _ => 0

def FReal.isZero : FReal → Bool
  | .fin _ 0 _ _ => true
  | _ => false

def FReal.neg : FReal → FReal
  | .nan s => .nan s
  | .inf n => .inf (!n)
  | .fin n m e s => .fin (!n) m e s

/-- The signed integer multiple of 2^e of a finite value whose exponent is at least `e`. -/
def scaled (neg : Bool) (m : Nat) (e0 e : Int) : Int :=
  let v : Int := ((m * 2 ^ (e0 - e).toNat : Nat) : Int)
  if neg then -v else v

def quiet (f : BitVec 5) : Exact := ⟨.nan false, f⟩

/-- a + b exactly (08:R181): Inf - Inf raises NV; the sign of an exact zero sum follows the mode. -/
def addX (mode : Nat) (a b : FReal) : Exact :=
  match a, b with
  | .nan _, _ => quiet (a.sig ||| b.sig)
  | _, .nan _ => quiet (a.sig ||| b.sig)
  | .inf x, .inf y => if x = y then ⟨.inf x, 0⟩ else quiet fNV
  | .inf x, _ => ⟨.inf x, 0⟩
  | _, .inf y => ⟨.inf y, 0⟩
  | .fin n1 m1 e1 _, .fin n2 m2 e2 _ =>
    if m1 = 0 ∧ m2 = 0 then ⟨.fin (if n1 = n2 then n1 else decide (mode = rmRDN)) 0 0 false, 0⟩
    else
      let e := if m1 = 0 then e2 else if m2 = 0 then e1 else if e1 ≤ e2 then e1 else e2
      let v := (if m1 = 0 then 0 else scaled n1 m1 e1 e) + (if m2 = 0 then 0 else scaled n2 m2 e2 e)
      if v = 0 then ⟨.fin (decide (mode = rmRDN)) 0 0 false, 0⟩ else ⟨.fin (decide (v < 0)) v.natAbs e false, 0⟩

/-- a × b exactly (08:R181): 0 × Inf raises NV. -/
def mulX (a b : FReal) : Exact :=
  match a, b with
  | .nan _, _ => quiet (a.sig ||| b.sig)
  | _, .nan _ => quiet (a.sig ||| b.sig)
  | .inf x, .inf y => ⟨.inf (x != y), 0⟩
  | .inf x, .fin y m _ _ => if m = 0 then quiet fNV else ⟨.inf (x != y), 0⟩
  | .fin x m _ _, .inf y => if m = 0 then quiet fNV else ⟨.inf (x != y), 0⟩
  | .fin n1 m1 e1 _, .fin n2 m2 e2 _ => ⟨.fin (n1 != n2) (m1 * m2) (e1 + e2) false, 0⟩

/-- a × b + c with one rounding to come (08:R184): an invalid product raises NV whatever c is. -/
def fmaX (mode : Nat) (a b c : FReal) : Exact :=
  let p := mulX a b
  let r := addX mode p.val c
  ⟨r.val, p.flags ||| r.flags⟩

/-- The integer square root of `n` when it is below 2^k, bit by bit. -/
def isqrt (n : Nat) : Nat → Nat → Nat
  | 0, r => r
  | k + 1, r => isqrt n k (if (r + 2 ^ k) * (r + 2 ^ k) ≤ n then r + 2 ^ k else r)

/-- a ÷ b (08:R187), to 128 bits with the rest as a sticky bit. -/
def divX (a b : FReal) : Exact :=
  match a, b with
  | .nan _, _ => quiet (a.sig ||| b.sig)
  | _, .nan _ => quiet (a.sig ||| b.sig)
  | .inf _, .inf _ => quiet fNV
  | .inf x, .fin y _ _ _ => ⟨.inf (x != y), 0⟩
  | .fin x _ _ _, .inf y => ⟨.fin (x != y) 0 0 false, 0⟩
  | .fin n1 m1 e1 _, .fin n2 m2 e2 _ =>
    if m2 = 0 then (if m1 = 0 then quiet fNV else ⟨.inf (n1 != n2), fDZ⟩)
    else if m1 = 0 then ⟨.fin (n1 != n2) 0 0 false, 0⟩
    else
      let k := 128 + Nat.log2 m2
      let n := m1 * 2 ^ k
      ⟨.fin (n1 != n2) (n / m2) (e1 - e2 - k) (decide (n % m2 ≠ 0)), 0⟩

/-- √a (08:R187). -/
def sqrtX (a : FReal) : Exact :=
  match a with
  | .nan _ => quiet a.sig
  | .inf neg => if neg then quiet fNV else ⟨.inf false, 0⟩
  | .fin neg m e _ =>
    if m = 0 then ⟨.fin neg 0 0 false, 0⟩
    else if neg then quiet fNV
    else
      let odd := decide (e % 2 ≠ 0)
      let m' := (if odd then 2 * m else m) * 2 ^ 256
      let e' := (if odd then e - 1 else e) - 256
      let r := isqrt m' (Nat.log2 m' / 2 + 1) 0
      ⟨.fin false r (e' / 2) (decide (r * r ≠ m')), 0⟩

/-- 1 ÷ √a truncated to 12 significant bits (08:R188): the greatest T with T² a ≤ 1. -/
def rsqrtX (a : FReal) : Exact :=
  match a with
  | .nan _ => quiet a.sig
  | .inf neg => if neg then quiet fNV else ⟨.fin false 0 0 false, 0⟩
  | .fin neg m e _ =>
    if m = 0 then ⟨.inf neg, fDZ⟩
    else if neg then quiet fNV
    else
      -- with e even, 1/√(m 2^e) = √(2^(2k) / m) 2^(-k - e/2)
      let odd := decide (e % 2 ≠ 0)
      let m' := if odd then 2 * m else m
      let e' := if odd then e - 1 else e
      let k := Nat.log2 m' + 16
      let t := isqrt (2 ^ (2 * k) / m') (k + 1) 0
      let b := Nat.log2 t
      ⟨.fin false (t / 2 ^ (b - 11)) (-(e' / 2) - k + (b - 11 : Nat)) false, 0⟩

/-- 2^f from below, for f = p ÷ 2^q in [0, 1), scaled by 2^prec: the bits of p from the least up, a square root for each. -/
def exp2Low (prec : Nat) : Nat → Nat → Nat → Nat
  | 0, _, r => r
  | q + 1, p, r => exp2Low prec q (p / 2) (isqrt ((if p % 2 = 1 then 2 * r else r) * 2 ^ prec) (prec + 2) 0)

/-- 2^a truncated to 12 significant bits (08:R188). The fraction is carried to 160 bits, far below the gap between 2^a and a
12-bit value. -/
def exp2X (a : FReal) : Exact :=
  match a with
  | .nan _ => quiet a.sig
  | .inf neg => if neg then ⟨.fin false 0 0 false, 0⟩ else ⟨.inf false, 0⟩
  | .fin neg m e _ =>
    if m = 0 then ⟨.fin false 1 0 false, 0⟩
    else if 12 ≤ (Nat.log2 m : Int) + e then (if neg then ⟨.fin false 1 (-5000) false, 0⟩ else ⟨.fin false 1 5000 false, 0⟩)
    else if (Nat.log2 m : Int) + e < -64 then
      -- |a| < 2^-64: 2^a is just above 1, or just below it
      (if neg then ⟨.fin false 4095 (-12) false, 0⟩ else ⟨.fin false 2048 (-11) false, 0⟩)
    else
      let q := if e < 0 then (-e).toNat else 0
      let v : Int := if neg then -((m * 2 ^ (e + q).toNat : Nat) : Int) else ((m * 2 ^ (e + q).toNat : Nat) : Int)
      let i := v / ((2 ^ q : Nat) : Int)
      let f := (v % ((2 ^ q : Nat) : Int)).toNat
      if f = 0 then ⟨.fin false 2048 (i - 11) false, 0⟩
      else
        ⟨.fin false (exp2Low 160 q f (2 ^ 160) / 2 ^ 149) (i - 11) false, 0⟩

/-- Compares two reals that are not NaN: less, equal (-0 = +0), greater as -1, 0, 1. -/
def cmpReal (a b : FReal) : Int :=
  match a, b with
  | .inf x, .inf y => if x = y then 0 else if x then -1 else 1
  | .inf x, _ => if x then -1 else 1
  | _, .inf y => if y then 1 else -1
  | .fin n1 m1 e1 _, .fin n2 m2 e2 _ =>
    let e := if e1 ≤ e2 then e1 else e2
    let d := scaled n1 m1 e1 e - scaled n2 m2 e2 e
    if d < 0 then -1 else if d = 0 then 0 else 1
  | _, _ => 0

/-- The lesser or the greater (08:R182): -0 below +0; one NaN gives the other operand; two give NaN; exact. -/
def minmaxX (max : Bool) (a b : FReal) : Exact :=
  let f := a.sig ||| b.sig
  match a, b with
  | .nan _, .nan _ => quiet f
  | .nan _, y => ⟨y, f⟩
  | x, .nan _ => ⟨x, f⟩
  | x, y =>
    let c := cmpReal x y
    let negA := match x with | .fin n _ _ _ => n | .inf n => n | _ => false
    let aLess := decide (c < 0) || (decide (c = 0) && negA)
    ⟨if aLess = max then y else x, f⟩

/-- Floating operations with one rounding. -/
inductive FOp where
  | add | sub | rsub | mul | div | min | max
  deriving DecidableEq, Repr

def FOp.exact (o : FOp) (mode : Nat) (a b : FReal) : Exact :=
  match o with
  | .add => addX mode a b
  | .sub => addX mode a b.neg
  | .rsub => addX mode b a.neg
  | .mul => mulX a b
  | .div => divX a b
  | .min => minmaxX false a b
  | .max => minmaxX true a b

/-- Rounds an exact result in a format, adding the operation's flags. -/
def finishF (t : BitVec 4) (c : RCtl) (l : BitVec 32) (x : Exact) : Rounded :=
  let r := roundTo t c l x.val
  ⟨r.code, r.flags ||| x.flags, r.lfsr⟩

/-- A floating binary operation on codes of one format (08:R181, R182, R187). VMIN and VMAX are exact: no rounding step, no LFSR step. An infinity
that a division by zero makes in a format without one follows the sat = 0 column of 06:R143. -/
def fbin (o : FOp) (t : BitVec 4) (c : RCtl) (l : BitVec 32) (a b : Nat) : Rounded :=
  let x := o.exact c.mode (fdecode t c.ftz a) (fdecode t c.ftz b)
  match o with
  | .min => { finishF t ⟨rmRNE, c.ftz, false⟩ l x with lfsr := l }
  | .max => { finishF t ⟨rmRNE, c.ftz, false⟩ l x with lfsr := l }
  | _ => finishF t c l x

/-- Fused multiply-add or multiply-subtract of codes (08:R184). -/
def ffma (sub : Bool) (t : BitVec 4) (c : RCtl) (l : BitVec 32) (a b d : Nat) : Rounded :=
  let z := fdecode t c.ftz d
  finishF t c l (fmaX c.mode (fdecode t c.ftz a) (fdecode t c.ftz b) (if sub then z.neg else z))

/-- VABS and VNEG (08:R181): the sign bit cleared or inverted; a NaN gives the canonical NaN; exact, but FTZ flushes a subnormal (06:R133). -/
def fsign (isNeg : Bool) (t : BitVec 4) (ftz : Bool) (l : BitVec 32) (a : Nat) : Rounded :=
  let w := tagWidth t
  let flip := if isNeg then (if a / 2 ^ (w - 1) % 2 = 1 then a % 2 ^ (w - 1) else a % 2 ^ w + 2 ^ (w - 1)) else a % 2 ^ (w - 1)
  match fdecode t ftz a with
  | .nan s => ⟨canonNaN t, if s then fNV else 0, l⟩
  | .fin _ 0 _ _ => ⟨withSign t (decide (flip / 2 ^ (w - 1) % 2 = 1)) 0, 0, l⟩
  | _ => ⟨flip, 0, l⟩

/-- VRSQRTE and VEXP2E: Round(T, F, RNE), and only the flags of 08:R188: NV, DZ, OF. -/
def fapprox (exp2 : Bool) (t : BitVec 4) (ftz : Bool) (l : BitVec 32) (a : Nat) : Rounded :=
  let x := fdecode t ftz a
  let r := finishF t ⟨rmRNE, ftz, false⟩ l (if exp2 then exp2X x else rsqrtX x)
  ⟨r.code, r.flags &&& (fNV ||| fDZ ||| fOF), l⟩

/-- Comparison conditions (08:R189). -/
inductive FCond where
  | eq | ne | lt | le | gt | ge | un | or
  deriving DecidableEq, Repr

/-- Which conditions raise NV for a quiet NaN (08:R190). -/
def FCond.signals : FCond → Bool
  | .lt => true
  | .le => true
  | .gt => true
  | .ge => true
  | _ => false

/-- The truth of a condition, given the comparison of two values that are not NaN. -/
def FCond.holds (k : FCond) (c : Int) : Bool :=
  match k with
  | .eq => decide (c = 0)
  | .ne => decide (c ≠ 0)
  | .lt => decide (c < 0)
  | .le => decide (c ≤ 0)
  | .gt => decide (0 < c)
  | .ge => decide (0 ≤ c)
  | .un => false
  | .or => true

/-- A floating comparison (08:R190): the truth and the flags. -/
def fcmp (k : FCond) (a b : FReal) : Bool × BitVec 5 :=
  if a.isNaN || b.isNaN then (k = .ne ∨ k = .un, if k.signals then fNV else a.sig ||| b.sig)
  else (k.holds (cmpReal a b), 0)

/-- A comparison of two codes of a format (08:R190). -/
def cmpCode (k : FCond) (t : BitVec 4) (ftz : Bool) (a b : Nat) : Bool × BitVec 5 :=
  if isFloatTag t then fcmp k (fdecode t ftz a) (fdecode t ftz b)
  else
    let d := intValue t a - intValue t b
    (k.holds (if d < 0 then -1 else if d = 0 then 0 else 1), 0)

/-- Integer operations on elements (08:R180, R187). -/
inductive IOp where
  | add | sub | rsub | mul | min | max | adds | subs | div | rem
  deriving DecidableEq, Repr

/-- A value clamped to an integer format. -/
def clampInt (t : BitVec 4) (v : Int) : Nat := intCode t (if v < intMin t then intMin t else if intMax t < v then intMax t else v)

/-- An integer operation on codes of one format (08:R180, R187); no flag. -/
def ibin (o : IOp) (t : BitVec 4) (a b : Nat) : Nat :=
  let x := intValue t a
  let y := intValue t b
  match o with
  | .add => intCode t (x + y)
  | .sub => intCode t (x - y)
  | .rsub => intCode t (y - x)
  | .mul => intCode t (x * y)
  | .min => intCode t (if x ≤ y then x else y)
  | .max => intCode t (if x ≤ y then y else x)
  | .adds => clampInt t (x + y)
  | .subs => clampInt t (x - y)
  | .div => if y = 0 then 2 ^ tagWidth t - 1 else intCode t (Int.tdiv x y)
  | .rem => if y = 0 then intCode t x else intCode t (Int.tmod x y)

/-- A bitwise operation (08:R191). -/
inductive BOp where
  | and | or | xor | andn | not
  deriving DecidableEq, Repr

def BOp.run (o : BOp) (w a b : Nat) : Nat :=
  match o with
  | .and => a &&& b
  | .or => a ||| b
  | .xor => a ^^^ b
  | .andn => a &&& (2 ^ w - 1 - b % 2 ^ w)
  | .not => 2 ^ w - 1 - a % 2 ^ w

/-- Shifts of an element of width `w` by `c` (08:R193). `neg` says that the element is negative as the format reads it. -/
inductive ShOp where
  | sll | srl | sra
  deriving DecidableEq, Repr

def ShOp.run (o : ShOp) (w a c : Nat) (neg : Bool) : Nat :=
  match o with
  | .sll => if w ≤ c then 0 else a * 2 ^ c % 2 ^ w
  | .srl => if w ≤ c then 0 else a / 2 ^ c
  | .sra =>
    if w ≤ c then (if neg then 2 ^ w - 1 else 0)
    else a / 2 ^ c + (if neg then 2 ^ w - 2 ^ (w - c) else 0)

/-- The operation format of two sources (06:R139); none is a tag mismatch. -/
def opFormat (a b : BitVec 4) : Option (BitVec 4) :=
  let ok (t : BitVec 4) : Bool := (1 ≤ t.toNat ∧ t.toNat ≤ 12) || t.toNat = 14
  let x := a.toNat
  let y := b.toNat
  if a = b then (if ok a then some a else none)
  else if a = 0 then (if ok b then some b else none)
  else if b = 0 then (if ok a then some a else none)
  else if isIntTag a ∧ isIntTag b then
    if x = 5 ∨ y = 5 then some 5
    else if x = 4 ∨ y = 4 then some 4
    else if x = 3 ∨ y = 3 then some 3
    else if x = 2 ∨ y = 2 then some 3
    else some 1
  else if isFloatTag a ∧ isFloatTag b then
    if x = 12 ∨ y = 12 then some 12
    else if x = 11 ∨ y = 11 then some 11
    else if (x = 9 ∧ y = 10) ∨ (x = 10 ∧ y = 9) then some 11
    else if x = 10 ∨ y = 10 then some 10
    else if x = 9 ∨ y = 9 then some 9
    else if (x = 6 ∧ y = 7) ∨ (x = 7 ∧ y = 6) then some 9
    else some (if x = 8 then b else a)
  else none

/-- Comb of two present values of one format, for the sums and far adds: Round(a + b), or wrapping addition (07:R161, 12:R275). -/
def combAdd (t : BitVec 4) (c : RCtl) (l : BitVec 32) (a b : Nat) : Rounded :=
  if isFloatTag t then fbin .add t c l a b else ⟨ibin .add t a b, 0, l⟩

end Sys2Proof.Machine
end

