-- ==== Sys2Proof/Machine/Rows.lean ====
section
/-!
DEFINITION. Row registers and the array below them: error log, cells and ECC, write-backs, array demands, closes, and every access to a
DRAM address, served by the latch, the crown line or the cells (04:R82-R105, 12:R267, R268, 21:R446-R449).
-/

namespace Sys2Proof.Machine

/-- Appends an error record to a stack's log and sends the notices that ERRCFG selects (21:R464, R465). The log keeps the newest 256. -/
def logErr (s : State) (st : Nat) (sev unit bank fe : Nat) (pa : Word) (task detail : Nat) : State :=
  let k := s.stack st
  let r : ErrRec := ⟨BitVec.ofNat 8 sev, BitVec.ofNat 8 unit, st, BitVec.ofNat 16 bank, BitVec.ofNat 16 fe, pa,
    BitVec.ofNat 32 task, BitVec.ofNat 32 detail, k.logCount.toNat + 1, false⟩
  let full := decide (256 ≤ k.log.length)
  let log := if full then k.log.drop 1 ++ [r] else k.log ++ [r]
  let s1 := s.setStack st { k with log := log, logCount := k.logCount + 1,
                                    logLost := if full && (k.log.take 1).all (fun x => !x.seen) then k.logLost + 1 else k.logLost }
  { s1 with notices := if k.errcfg.getLsbD sev then s1.notices ++ [r] else s1.notices
            lanternNotices := if k.errcfg.getLsbD (4 + sev) then s1.lanternNotices ++ [r] else s1.lanternNotices }

/-- Error units of 21:R463. -/
def unitArray : Nat := 0x01
def unitCrown : Nat := 0x02
def unitBib : Nat := 0x03
def unitLane : Nat := 0x04
def unitMatrix : Nat := 0x05
def unitResidue : Nat := 0x06
def unitSave : Nat := 0x09
def unitColumn : Nat := 0x0A
def unitWalk : Nat := 0x0B

/-- A number as a register index. -/
def idx16 (k : Nat) : Fin 16 := ⟨k % 16, Nat.mod_lt _ (by decide)⟩

/-- The DRAM address of a row: bank (stack x 256 + bank), group, row (03:R64). -/
def rowAddr (b k row : Nat) : Nat := b * 2 ^ 27 + k * 2 ^ 23 + row * 2 ^ 11

/-- A row's bits in the cells. -/
def cellsRow (s : State) (base : Nat) : RowBits := BitVec.ofNat 16384 (memReadN s.dram base 2048)

/-- The poison flags a row brings into a latch: all four flags of each poisoned word (21:R448, R449). -/
def rowPoison (s : State) (base : Nat) : BitVec 256 :=
  ((List.range 64).filter (fun i => s.cellPoison.contains (base / 32 + i))).foldl
    (fun acc i => acc ||| BitVec.ofNat 256 (15 * 2 ^ (4 * i))) 0

/-- A row that needed correction: at its second precharge with a correction its repair falls due (21:R447). -/
def noteCorrection (s : State) (word : Nat) : State :=
  let b := word / 2 ^ 22
  let x := s.bank b
  let key := word / 64 % 2 ^ 16
  if x.corrected.contains key then s.setBank b { x with repairDue := setInsert x.repairDue key }
  else s.setBank b { x with corrected := setInsert x.corrected key }

/-- Checks `n` words as they leave the cells in one activation (21:R446-R448): a correctable error is corrected, logged and written back at the
precharge, an uncorrectable one poisons its word and is logged where the poison arises. -/
def eccLeave (s : State) (word n : Nat) : State :=
  let hit := s.latent.filter (fun e => decide (word ≤ e.1 ∧ e.1 < word + n))
  let s := hit.foldl (fun acc e =>
    let st := e.1 / 2 ^ 30
    let acc := logErr acc st (if e.2 then 1 else 0) unitArray (e.1 / 2 ^ 22 % 256) 0xFFFF (BitVec.ofNat 64 (e.1 * 32)) 0xFFFFFFFF
      (e.1 / 2 ^ 18 % 16 * 4096 + e.1 / 64 % 4096)
    { acc with latent := mapErase acc.latent e.1, cellPoison := if e.2 then setInsert acc.cellPoison e.1 else acc.cellPoison }) s
  if hit.any (fun e => !e.2) then noteCorrection s word else s

/-- Takes the errors that `sel` selects among the words outside the cells, with each one's severity in the log (21:R446-R448); the answer names
the uncorrectable ones. -/
def eccTake (s : State) (sel : Place → Bool) (unit bank : Nat) (pa : Word) : State × List Place :=
  let hit := s.upsets.filter (fun e => sel e.1)
  let s := hit.foldl (fun acc e => logErr acc (bank / 256) (if e.2 then 1 else 0) unit (bank % 256) 0xFFFF pa 0xFFFFFFFF 0) s
  ({ s with upsets := s.upsets.filter (fun e => !sel e.1) }, (hit.filter (fun e => e.2)).map (fun e => e.1))

/-- The lanes read words of a latch (07:R146, 21:R446): their errors are corrected in place or become poison. -/
def eccLatch (s : State) (b k : Nat) (sel : Nat → Bool) : State :=
  if s.upsets.isEmpty then s
  else
    let z := eccTake s (fun p => match p with | .latch b' k' w => decide (b' = b ∧ k' = k) && sel (w % 64) | _ => false) unitArray b 0
    let x := z.1.bank b
    let r := x.w[idx16 k]
    let p := z.2.foldl (fun (f : BitVec 256) e => match e with | .latch _ _ w => setEl f 4 (w % 64) 15 | _ => f) r.poison
    if z.2.isEmpty then z.1 else z.1.setBank b { x with w := x.w.set (idx16 k) { r with poison := p } }

/-- Words that are written whole carry fresh check bits: their errors are gone. -/
def dropUpsets (s : State) (sel : Place → Bool) : State :=
  if s.upsets.isEmpty then s else { s with upsets := s.upsets.filter (fun e => !sel e.1) }

/-- A word of a latch, of those that `sel` selects. -/
def Place.inLatch (p : Place) (b k : Nat) (sel : Nat → Bool) : Bool :=
  match p with
  | .latch b' k' w => decide (b' = b ∧ k' = k) && sel (w % 64)
  | _ => false

/-- Every word of a register's latch is written. -/
def freshLatch (s : State) (b k : Nat) : State := dropUpsets s (fun p => p.inLatch b k (fun _ => true))

/-- A word of a crown line is read (21:R446), `w` at its byte offset / 32, or every word. -/
def eccLine (s : State) (b line : Nat) (w : Option Nat) : State :=
  let z := eccTake s (fun p => match p with | .line b' l' w' => decide (b' = b ∧ l' = line) && (w.isNone || decide (w = some w')) | _ => false)
    unitCrown b (BitVec.ofNat 64 (b * 2 ^ 27 + line * 128))
  let x := z.1.bank b
  match mapGet x.lines line with
  | none => z.1
  | some l =>
    let p := z.2.foldl (fun (f : BitVec 16) e => match e with | .line _ _ w => setEl f 4 (w % 4) 15 | _ => f) l.poison
    if z.2.isEmpty then z.1 else z.1.setBank b { x with lines := mapSet x.lines line { l with poison := p } }

/-- A word of a scratch way is read (21:R446). -/
def eccScratch (s : State) (b w : Nat) : State :=
  let z := eccTake s (fun p => decide (p = .scratch b w)) unitCrown b 0
  if z.2.isEmpty then z.1
  else z.1.setBank b { z.1.bank b with scratchPoison := mapSet (z.1.bank b).scratchPoison w 15 }

/-- A bank's save slot `n`. -/
def Bank.slot (x : Bank) (n : Nat) : Option SaveSlot := if h : n < 2 then x.slots[n] else none

/-- Replaces a bank's save slot `n`. -/
def Bank.setSlot (x : Bank) (n : Nat) (z : Option SaveSlot) : Bank := { x with slots := if h : n < 2 then x.slots.set n z h else x.slots }

/-- A word of save slot `n` of a bank. -/
def Place.inSlot (p : Place) (b n : Nat) : Bool :=
  match p with
  | .slot b' n' => decide (b' = b ∧ n' = n)
  | .slotLatch b' n' _ _ => decide (b' = b ∧ n' = n)
  | _ => false

/-- Save slot `n` of a bank is read (21:R446-R448, R450): an uncorrectable word in the image of a FREE latch is poison there, any other spoils the
slot. -/
def eccSlot (s : State) (b n : Nat) : State :=
  let z := eccTake s (fun p => p.inSlot b n) unitSave b 0
  match (z.1.bank b).slot n with
  | none => z.1
  | some y =>
    let y := z.2.foldl (fun (y : SaveSlot) p => match p with
      | .slotLatch _ _ k w => { y with regs := y.regs.set (idx16 k) { y.regs[idx16 k] with poison := setEl (y.regs[idx16 k]).poison 4 (w % 64) 15 } }
      | _ => { y with bad := true }) y
    if z.2.isEmpty then z.1 else z.1.setBank b ((z.1.bank b).setSlot n (some y))

/-- Writes a row into the cells; a word with any poison flag left stores full poison, and its flags are lost (21:R448, R449). -/
def writeCells (s : State) (base : Nat) (data : RowBits) (poison : BitVec 256) : State :=
  let bad := (List.range 64).filter (fun i => decide (getEl poison 4 i ≠ 0))
  let keep := s.cellPoison.filter (fun w => decide (w < base / 32 ∨ base / 32 + 64 ≤ w))
  { s with
    dram := memWriteN s.dram base 2048 data.toNat
    latent := s.latent.filter (fun e => decide (e.1 < base / 32 ∨ base / 32 + 64 ≤ e.1))
    cellPoison := bad.foldl (fun l i => setInsert l (base / 32 + i)) keep }

/-- Register `k` of bank `b`. -/
def State.wreg (s : State) (b : Nat) (k : Fin 16) : WReg := (s.bank b).w[k]

def State.setW (s : State) (b : Nat) (k : Fin 16) (r : WReg) : State :=
  let x := s.bank b
  s.setBank b { x with w := x.w.set k r }

def WState.isOpen : WState → Bool
  | .openClean => true
  | .openDirty => true
  | _ => false

def WState.isDirty : WState → Bool
  | .openDirty => true
  | .heldDirty => true
  | _ => false

def WState.bound : WState → Bool
  | .free => false
  | _ => true

/-- The state a write into the latch leaves (04:R85). -/
def WState.written : WState → WState
  | .openClean => .openDirty
  | .heldClean => .heldDirty
  | x => x

/-- The state a clean write-back leaves (04:R85). -/
def WState.cleaned : WState → WState
  | .openDirty => .openClean
  | .heldDirty => .heldClean
  | x => x

/-- The state a precharge leaves (04:R85). -/
def WState.held : WState → WState
  | .openClean => .heldClean
  | .openDirty => .heldDirty
  | x => x

/-- The register unbound, keeping its bits and tag (04:R86). -/
def WReg.unbind (r : WReg) : WReg := { r with state := .free, row := 0, prow := 0, writable := false, leaf := none }

/-- Starts a write-back of a dirty register, copying the latch as it stands (04:R84); `act` says what follows the commit. -/
def startWb (s : State) (b : Nat) (k : Fin 16) (act : Nat) : State :=
  let r := s.wreg b k
  let x := s.bank b
  let errs := s.upsets.filterMap (fun e => match e.1 with | .latch b' k' w => if b' = b ∧ k' = k.val then some (w % 64, e.2) else none | _ => none)
  s.setBank b { x with pend := x.pend ++ [⟨k.val, r.prow.toNat, r.latch, r.poison, r.leaf, true, act, errs⟩] }

/-- Marks the pending write-backs of a register as overtaken by a write into its latch (04:R84). -/
def touchPend (x : Bank) (k : Nat) : Bank :=
  { x with pend := x.pend.map (fun p => if p.grp = k then { p with live := false } else p) }

/-- A write-back of register `k` has started and not committed. -/
def Bank.pending (x : Bank) (k : Nat) : Bool := x.pend.any (fun p => p.grp == k)

/-- A started unbinding of register `k` has not committed (05:R116). -/
def Bank.unbinding (x : Bank) (k : Nat) : Bool := x.pend.any (fun p => p.grp == k && p.act == 2)

/-- An array demand on group `k` (04:R85, R88): what is pending there commits, then an OPEN register is written back if dirty and precharged, all
before the party that needs the array goes on. `settle` commits the pending write-backs of a register; where it leaves one, that write-back is the
party itself, and has the array. -/
def demandWith (settle : State → Nat → Fin 16 → State) (s : State) (b : Nat) (k : Fin 16) : State :=
  let s := settle s b k
  let r := s.wreg b k
  if (s.bank b).pending k.val then s
  else
    match r.state with
    | .openClean => s.setW b k { r with state := .heldClean }
    | .openDirty => settle (startWb s b k 1) b k
    | _ => s

/-- The array demand of the spare's group where the row is a cross-group one (03:R73). -/
def crossWith (settle : State → Nat → Fin 16 → State) (s : State) (b key : Nat) : State :=
  match mapGet (s.bank b).xgroup key with
  | some e => demandWith settle s b (idx16 (e / 24))
  | none => s

/-- ORs `v` into the aligned 8-byte word at a DRAM address wherever it is held: latch, line or cells (19:R428). Neither starts a
write-back of its own word; one in the cells demands its array (04:R88, R89). `settle` completes a pending unbinding of the word's register first
(04:R86); where that is itself under way, the word is still in its image. -/
def orWordWith (settle : State → Nat → Fin 16 → State) (s : State) (pa : Nat) (v : Nat) : State :=
  let b := pa / 2 ^ 27
  let k := idx16 (pa / 2 ^ 23)
  let row := pa / 2 ^ 11 % 4096
  let i := pa / 8 % 256
  let s := if (s.bank b).unbinding k.val then settle s b k else s
  let s := clearHashed s pa
  let r := s.wreg b k
  if r.state.bound ∧ r.prow.toNat = row then
    let x := s.bank b
    if x.unbinding k.val then
      s.setBank b { x with pend := x.pend.map (fun p =>
        if p.grp = k.val ∧ p.act = 2 then { p with data := setEl p.data 64 i (getEl p.data 64 i ||| v) } else p) }
    else
      let s1 := s.setW b k { r with latch := setEl r.latch 64 i (getEl r.latch 64 i ||| v), state := r.state.written }
      s1.setBank b (touchPend (s1.bank b) k.val)
  else
    let line := pa / 128 % 2 ^ 20
    if (mapGet (s.bank b).lines line).isSome then
      let s := eccLine s b line (some (pa / 32 % 4))
      let x := s.bank b
      match mapGet x.lines line with
      | some l =>
        let i := pa / 8 % 16
        s.setBank b { x with lines := mapSet x.lines line { l with data := setEl l.data 64 i (getEl l.data 64 i ||| v), dirty := true } }
      | none => s
    else
      let s := demandWith settle s b k
      let s := eccLeave s (pa / 32) 1
      { s with dram := memWriteN s.dram (pa / 8 * 8) 8 (memReadN s.dram (pa / 8 * 8) 8 ||| v) }

/-- Sets the dirty bit of the 4 KiB unit that holds a physical address, in a leaf entry (19:R428). No leaf, no bit. -/
def setDirtyWith (settle : State → Nat → Fin 16 → State) (s : State) (leaf : Option Nat) (pa : Nat) : State :=
  match leaf with
  | none => s
  | some l => orWordWith settle s l (2 ^ (48 + pa / 4096 % 16))

/-- What a committed write-back leaves of its register (04:R84, R85, 05:R117): clean if no write has reached the latch since the start; then as it
is, HELD, or FREE with the image written. -/
def committed (s : State) (b : Nat) (p : PendWb) : State :=
  let k := idx16 p.grp
  let r := s.wreg b k
  if r.state.bound ∧ r.prow.toNat = p.prow then
    let st := if p.live then r.state.cleaned else r.state
    let st := if p.act = 0 then st else st.held
    if p.act = 2 then s.setW b k { r.unbind with latch := p.data, poison := p.poison } else s.setW b k { r with state := st }
  else s

/-- The oldest pending write-back of register `k`. -/
def Bank.headWb (x : Bank) (k : Nat) : Option PendWb := x.pend.find? (fun p => p.grp == k)

/-- Puts a write-back into effect: the image reaches the cells with the errors of its words, a waiting repair mapping takes effect, the register
takes its new state (04:R84, R104, 03:R74). -/
def commitImage (s : State) (b : Nat) (p : PendWb) : State :=
  let base := rowAddr b p.grp p.prow
  let s := writeCells s base p.data p.poison
  let s := { s with latent := p.errs.foldl (fun l (e : Nat × Bool) => mapSet l (base / 32 + e.1) e.2) s.latent }
  let x := s.bank b
  committed (s.setBank b { x with pend := x.pend.erase p, pendRepair := setErase x.pendRepair (p.grp * 4096 + p.prow) }) b p

/-- Commits the oldest write-back of register `k`, which is pending until its image is in the cells (04:R84): a cross-group row's array is demanded
first (03:R73, `inner`), the unit's dirty bit is set last (04:R105, `outer`). -/
def commitHead (inner outer : State → Nat → Fin 16 → State) (s : State) (b : Nat) (k : Fin 16) : State :=
  match (s.bank b).headWb k.val with
  | none => s
  | some p =>
    let s := crossWith inner s b (p.grp * 4096 + p.prow)
    match (s.bank b).headWb k.val with
    | none => s
    | some p => setDirtyWith outer (commitImage s b p) p.leaf (rowAddr b p.grp p.prow)

/-- Commits every pending write-back of register `k`, oldest first. A commit may need another register's first: `busy` names the registers whose
commit waits for this one, `n` bounds how deep such needs are followed. -/
def settleN : Nat → List (Nat × Nat) → State → Nat → Fin 16 → State
  | 0, _, s, _, _ => s
  | n + 1, busy, s, b, k =>
    if busy.contains (b, k.val) then s
    else
      ((s.bank b).pend.filter (fun p => p.grp == k.val)).foldl
        (fun acc _ => commitHead (settleN n ((b, k.val) :: busy)) (settleN n busy) acc b k) s

/-- Commits every pending write-back of register `k`, oldest first. -/
def settle (s : State) (b : Nat) (k : Fin 16) : State := if (s.bank b).pending k.val then settleN 64 [] s b k else s

def orWord (s : State) (pa : Nat) (v : Nat) : State := orWordWith settle s pa v

def setDirty (s : State) (leaf : Option Nat) (pa : Nat) : State := setDirtyWith settle s leaf pa

/-- The array demand on group `k` (04:R88). -/
def arrayDemand (s : State) (b : Nat) (k : Fin 16) : State := demandWith settle s b k

/-- The transfer of a cross-group row needs the array of the spare's group: an array demand there first (03:R72, R73). -/
def crossDemand (s : State) (b key : Nat) : State := crossWith settle s b key

/-- Commits the oldest pending write-back of a register. -/
def commitOne (s : State) (b : Nat) (k : Fin 16) : State := commitHead (settleN 64 [(b, k.val)]) settle s b k

/-- Commits every pending write-back of a bank one by one, oldest first (05:R125). -/
def settleAll (s : State) (b : Nat) : State := (s.bank b).pend.foldl (fun acc p => commitOne acc b (idx16 p.grp)) s

/-- A pending unbinding of register `k` holds other accesses until it is done (04:R86). -/
def settleUnbind (s : State) (b : Nat) (k : Fin 16) : State :=
  if (s.bank b).unbinding k.val then settle s b k else s

/-- Close: a write-back if dirty, a precharge, the unbinding, all committed (04:R85, R87). -/
def closeReg (s : State) (b : Nat) (k : Fin 16) : State :=
  let s := settle s b k
  let r := s.wreg b k
  if r.state.isDirty then settle (startWb s b k 2) b k
  else if r.state.bound then s.setW b k r.unbind
  else s

/-- PRE of one register (05:R116), after what is pending there. -/
def preReg (s : State) (b : Nat) (k : Fin 16) : State :=
  let s := settle s b k
  let r := s.wreg b k
  match r.state with
  | .openClean => s.setW b k { r with state := .heldClean }
  | .openDirty => startWb s b k 1
  | .heldDirty => startWb s b k 0
  | _ => s

/-- PRE.D of one register (05:R116, R117), after what is pending there. A clean register unbinds without a write-back, so a repair mapping of its row
that waits for one goes on waiting (03:R74; DEDUCED, log 131). -/
def preDropReg (s : State) (b : Nat) (k : Fin 16) : State :=
  let s := settle s b k
  let r := s.wreg b k
  match r.state with
  | .openClean => s.setW b k r.unbind
  | .heldClean => s.setW b k r.unbind
  | .openDirty => startWb s b k 2
  | .heldDirty => startWb s b k 2
  | .free => s

/-- WBK of one bound register (05:R116), after what is pending there. -/
def wbkReg (s : State) (b : Nat) (k : Fin 16) : State :=
  let s := settle s b k
  if (s.wreg b k).state.isDirty then startWb s b k 0 else s

/-- Closes every register of a bank and clears the bank as at task end (04:R87, 10:R224): latches, tiles, checksum rows zero. A retention deadline
that has not been taken is dropped with the bank's owner (DEDUCED, log 132). -/
def clearBank (s : State) (b : Nat) : State :=
  let s := (List.range 16).foldl (fun acc k => closeReg acc b (idx16 k)) s
  let s := dropUpsets s (fun p => match p with | .latch b' _ _ => decide (b' = b) | _ => false)
  let x := s.bank b
  s.setBank b { x with w := vecMap (fun r => { r with latch := 0, poison := 0, state := .free }) x.w,
                       t := Vector.replicate 4 0, q := Vector.replicate 4 0, deadline := 0 }

/-- The local write of a whole new latch into register `k` (04:R85): the register becomes dirty if bound, and its row's page loses its verified mark
(22:R476). `poison` gives the new flags. -/
def localWrite (s : State) (b : Nat) (k : Fin 16) (latch : RowBits) (poison : BitVec 256) : State :=
  let s := settleUnbind s b k
  let r := s.wreg b k
  let s := if r.state.bound then clearHashed s (rowAddr b k.val r.prow.toNat) else s
  let s := s.setW b k { r with latch := latch, poison := poison, state := r.state.written, valid := true }
  s.setBank b (touchPend (s.bank b) k.val)

/-- Clears the flags of the 8-byte parts that a write of `n` bytes at byte `off` covers whole (21:R449). -/
def clearParts {w : Nat} (flags : BitVec w) (off n : Nat) : BitVec w :=
  ((List.range (n / 8 + 1)).filter (fun i => decide (off ≤ 8 * ((off + 7) / 8 + i) ∧ 8 * ((off + 7) / 8 + i) + 8 ≤ off + n))).foldl
    (fun f i => f &&& ~~~ (BitVec.ofNat w (2 ^ ((off + 7) / 8 + i)))) flags

/-- The word that holds a byte is poisoned while any of its four flags is set (21:R449). -/
def wordPoisoned {w : Nat} (flags : BitVec w) (off : Nat) : Bool := decide (getEl flags 4 (off / 32) ≠ 0)

/-- The key of the crown line that holds an address, within its bank. -/
def lineKey (pa : Nat) : Nat := pa / 128 % 2 ^ 20

/-- Bytes `off` to `off + n - 1` of `v` replaced. -/
def setBytes {w : Nat} (v : BitVec w) (off n x : Nat) : BitVec w :=
  BitVec.ofNat w (v.toNat % 2 ^ (8 * off) + (x % 2 ^ (8 * n)) * 2 ^ (8 * off) + v.toNat / 2 ^ (8 * (off + n)) * 2 ^ (8 * (off + n)))

/-- Writes a crown line back into its row: the cells, or the latch of a row bound meanwhile (12:R268). -/
def writeLine (s : State) (b line : Nat) (l : Line) : State :=
  let pa := b * 2 ^ 27 + line * 128
  let k := idx16 (pa / 2 ^ 23)
  let s := settleUnbind s b k
  let r := s.wreg b k
  if r.state.bound ∧ r.prow.toNat = pa / 2 ^ 11 % 4096 then
    let part := pa % 2048 / 8
    let fl := BitVec.ofNat 256 (r.poison.toNat % 2 ^ part + l.poison.toNat * 2 ^ part + r.poison.toNat / 2 ^ (part + 16) * 2 ^ (part + 16))
    let s := dropUpsets s (fun p => p.inLatch b k.val (fun w => decide (w / 4 = pa % 2048 / 128)))
    let s := s.setW b k { r with latch := setBytes r.latch (pa % 2048) 128 l.data.toNat, poison := fl, state := r.state.written }
    s.setBank b (touchPend (s.bank b) k.val)
  else
    let s := arrayDemand s b k
    let bad := (List.range 4).filter (fun i => decide (getEl l.poison 4 i ≠ 0))
    let keep := s.cellPoison.filter (fun w => decide (w < pa / 32 ∨ pa / 32 + 4 ≤ w))
    { s with dram := memWriteN s.dram pa 128 l.data.toNat
             latent := s.latent.filter (fun e => decide (e.1 < pa / 32 ∨ pa / 32 + 4 ≤ e.1))
             cellPoison := bad.foldl (fun a i => setInsert a (pa / 32 + i)) keep }

/-- Writes back (if dirty and `wb`) and, if `inv`, invalidates a crown line (12:R268, 13:R301). The presence bit stays. -/
def dropLine (s : State) (b line : Nat) (wb inv : Bool) : State :=
  let s := eccLine s b line none
  match mapGet (s.bank b).lines line with
  | none => s
  | some l =>
    let s := if l.dirty && wb then writeLine s b line l else s
    let x := s.bank b
    if inv then s.setBank b { x with lines := mapErase x.lines line }
    else s.setBank b { x with lines := mapSet x.lines line { l with dirty := l.dirty && !wb } }

/-- A slice whose caching ways are full, 256 lines in each, evicts a line before it allocates another (01:R18, 12:R267, R268); which one is free.
-/
def makeRoom (s : State) (b : Nat) : State :=
  let x := s.bank b
  if x.lines.length < 256 * x.cacheWays then s
  else
    let d := s.draw
    match x.lines[Config.victim d.1 % x.lines.length]? with
    | some e => dropLine d.2 b e.1 true true
    | none => s

/-- Allocates the crown line of an address from the cells and sets the row's presence bit (04:R95, 12:R267). -/
def allocLine (s : State) (pa : Nat) : State :=
  let b := pa / 2 ^ 27
  let s := makeRoom s b
  let base := pa / 128 * 128
  let s := eccLeave s (base / 32) 4
  let s := dropUpsets s (fun p => match p with | .line b' l _ => decide (b' = b ∧ l = lineKey pa) | _ => false)
  let x := s.bank b
  let pz := ((List.range 4).filter (fun i => s.cellPoison.contains (base / 32 + i))).foldl
    (fun acc i => acc ||| BitVec.ofNat 16 (15 * 2 ^ (4 * i))) (0 : BitVec 16)
  s.setBank b { x with lines := mapSet x.lines (lineKey pa) ⟨BitVec.ofNat 1024 (memReadN s.dram base 128), false, pz, none⟩,
                       presence := setInsert x.presence (pa / 2 ^ 11 % 2 ^ 16) }

/-- The copy of a bank to its slab's spare ends, addressable and save rows corrected through ECC (21:R461): the spare answers to the bank's number, with lane
groups, map and counts of its own. -/
def copyComplete (s : State) (b : Nat) : State :=
  if !(s.bank b).moving then s
  else
    let s := eccSlot (eccSlot (eccLeave s (b * 2 ^ 22) (2 ^ 22)) b 0) b 1
    s.setBank b { s.bank b with moving := false, spare := true, quarantined := [], blames := [], ckMiss := [], suspect := false, repairs := [],
                                xgroup := [], pendRepair := [], copying := [], corrected := [], repairDue := [] }

/-- A foreign access reads or writes part of a word of a latch, which is checked as where a lane reads it (21:R446; DEDUCED, log 115). -/
def eccForeign (s : State) (pa : Nat) : State := eccLatch s (pa / 2 ^ 27) (pa / 2 ^ 23 % 16) (fun w => decide (w = pa / 32 % 64))

/-- How an access reaches its row: through the slice, which allocates a line (`alloc`), or not (12:R267, 13:R297). A bank on the move makes it wait
(21:R461). An access to a cross-group row demands group k alone, R73 naming the fill and the commit only (DEDUCED, log 130). -/
def dramPrepare (s : State) (pa : Nat) (alloc : Bool) : State :=
  let b := pa / 2 ^ 27
  let k := idx16 (pa / 2 ^ 23)
  let s := settleUnbind (copyComplete s b) b k
  let r := s.wreg b k
  if r.state.bound ∧ r.prow.toNat = pa / 2 ^ 11 % 4096 then eccForeign s pa
  else if (mapGet (s.bank b).lines (lineKey pa)).isSome then eccLine s b (lineKey pa) (some (pa / 32 % 4))
  else
    let s := arrayDemand s b k
    if alloc then allocLine s pa else eccLeave s (pa / 32) 1

/-- Reads `n` bytes inside one aligned 8-byte word of DRAM (04:R83, 12:R267): the value and whether its word is poisoned. -/
def dramRead (s0 : State) (pa n : Nat) (alloc : Bool) : State × Nat × Bool :=
  let s := dramPrepare s0 pa alloc
  let b := pa / 2 ^ 27
  let k := idx16 (pa / 2 ^ 23)
  let r := s.wreg b k
  if r.state.bound ∧ r.prow.toNat = pa / 2 ^ 11 % 4096 then
    (s, r.latch.toNat / 2 ^ (8 * (pa % 2048)) % 2 ^ (8 * n), wordPoisoned r.poison (pa % 2048))
  else
    match mapGet (s.bank b).lines (lineKey pa) with
    | some l => (s, l.data.toNat / 2 ^ (8 * (pa % 128)) % 2 ^ (8 * n), wordPoisoned l.poison (pa % 128))
    | none => (s, memReadN s.dram pa n, s.cellPoison.contains (pa / 32))

/-- Writes `n` bytes inside one aligned 8-byte word of DRAM as a foreign access (04:R83, R85, 12:R267, 21:R449). A write into a line or
the cells sets the dirty bit that `m` asks for; a write into a latch sets its own at the write-back (19:R428). -/
def dramWrite (s0 : State) (pa n : Nat) (v : Nat) (alloc : Bool) (m : Mark) : State :=
  let s := dramPrepare s0 pa alloc
  let b := pa / 2 ^ 27
  let k := idx16 (pa / 2 ^ 23)
  let r := s.wreg b k
  if r.state.bound ∧ r.prow.toNat = pa / 2 ^ 11 % 4096 then
    let s := s.setW b k { r with latch := setBytes r.latch (pa % 2048) n v, poison := clearParts r.poison (pa % 2048) n,
                                 state := r.state.written }
    s.setBank b (touchPend (s.bank b) k.val)
  else
    let x := s.bank b
    match mapGet x.lines (lineKey pa) with
    | some l =>
      let l' : Line := ⟨setBytes l.data (pa % 128) n v, true, clearParts l.poison (pa % 128) n, if l.dirty then l.leaf else m.leaf⟩
      setDirty (s.setBank b { x with lines := mapSet x.lines (lineKey pa) l' }) m.due pa
    | none => setDirty { s with dram := memWriteN s.dram pa n v } m.due pa

/-- The crown merge of an ACT (04:R96): dirty lines of the row overwrite the latch, every line of the row is invalidated, the presence bit
cleared. The flag says whether a dirty line merged. -/
def crownMerge (s : State) (b k prow : Nat) (latch : RowBits) (poison : BitVec 256) : State × RowBits × BitVec 256 × Bool :=
  let first := k * 2 ^ 16 + prow * 16
  let s := (List.range 16).foldl (fun acc i => eccLine acc b (first + i) none) s
  let x := s.bank b
  let mine := x.lines.filter (fun e => decide (first ≤ e.1 ∧ e.1 < first + 16))
  let s' := s.setBank b { x with lines := x.lines.filter (fun e => decide (e.1 < first ∨ first + 16 ≤ e.1)),
                                 presence := setErase x.presence (k * 4096 + prow) }
  let dirty := mine.filter (fun e => e.2.dirty)
  let merged := dirty.foldl (fun (acc : RowBits × BitVec 256) e =>
    let o := e.1 - first
    (setBytes acc.1 (128 * o) 128 e.2.data.toNat,
     BitVec.ofNat 256 (acc.2.toNat % 2 ^ (16 * o) + e.2.poison.toNat * 2 ^ (16 * o) + acc.2.toNat / 2 ^ (16 * o + 16) * 2 ^ (16 * o + 16))))
    (latch, poison)
  (s', merged.1, merged.2, !dirty.isEmpty)

/-- The copy of an unbound row to its spare finishes, corrected through ECC (03:R74). -/
def repairCopied (s : State) (b : Nat) (k : Fin 16) (row : Nat) : State :=
  let key := k.val * 4096 + row
  if !(s.bank b).copying.contains key then s
  else
    let s := eccLeave s (rowAddr b k.val row / 32) 64
    s.setBank b { s.bank b with copying := setErase (s.bank b).copying key }

/-- Binds a physical row into register `k` of bank `b` (05:R113): close, fill, merge, after a repair copy of the row
(03:R74); the register holds tag, bound row number and write
permission. `leaf` is the entry its translation came from. -/
def bindRow (s : State) (b : Nat) (k : Fin 16) (n prow : Nat) (tag : BitVec 4) (writable : Bool) (leaf : Option Nat) : State :=
  let s := crossDemand (repairCopied (closeReg s b k) b k prow) b (k.val * 4096 + prow)
  let base := rowAddr b k.val prow
  let s := eccLeave s (base / 32) 64
  let latch := cellsRow s base
  let pz := rowPoison s base
  let present := (s.bank b).presence.contains (k.val * 4096 + prow)
  let m := if present then crownMerge s b k.val prow latch pz else (s, latch, pz, false)
  let s := freshLatch m.1 b k.val
  s.setW b k { state := if m.2.2.2 then .openDirty else .openClean, tag := tag, row := BitVec.ofNat 12 n,
               prow := BitVec.ofNat 12 prow, writable := writable, latch := m.2.1, poison := m.2.2.1, leaf := leaf, valid := false }

/-- One REF step of group `k` (04:R97, 05:R119): an array demand first, then the debt falls by one (0 stays 0) and the pointer moves on. -/
def refreshStep (s : State) (b : Nat) (k : Fin 16) : State :=
  let s := arrayDemand s b k
  let x := s.bank b
  let d := x.debt[k]
  let d' := if d = 0 then 0 else d - 1
  s.setBank b { x with debt := x.debt.set k d', ptr := x.ptr.set k (x.ptr[k] + 1) }

end Sys2Proof.Machine
end

