-- ==== Sys2Proof/Machine/Xlate.lean ====
section
/-!
DEFINITION. Physical windows and accesses to them, translation, its caches and permissions (03:R78-R81, 19:R414-R428).
-/

namespace Sys2Proof.Machine

/-- Trap causes (20:R432). -/
def cIllegal : BitVec 8 := 0x01
def cPriv : BitVec 8 := 0x02
def cMisfetch : BitVec 8 := 0x03
def cFetch : BitVec 8 := 0x04
def cAlign : BitVec 8 := 0x05
def cPage : BitVec 8 := 0x06
def cWrite : BitVec 8 := 0x07
def cAccess : BitVec 8 := 0x08
def cRowRange : BitVec 8 := 0x09
def cRowLocal : BitVec 8 := 0x0A
def cRowUnbound : BitVec 8 := 0x0B
def cTag : BitVec 8 := 0x0C
def cVl : BitVec 8 := 0x0D
def cLoop : BitVec 8 := 0x0E
def cResidue : BitVec 8 := 0x0F
def cPoison : BitVec 8 := 0x10
def cCheck : BitVec 8 := 0x11
def cPinnate : BitVec 8 := 0x12
def cRetention : BitVec 8 := 0x13
def cSoft : BitVec 8 := 0x14
def cPreempt : BitVec 8 := 0x15
def cBindLost : BitVec 8 := 0x16
def cUncorrectable : BitVec 8 := 0x17

/-- The way of a scratch address is scratch under the partition of its bank's slice (03:R79, 12:R272). -/
def scratchOpen (s : State) (pa : Nat) : Bool :=
  (s.bank (pa / 2 ^ 27 % 32 * 256 + pa / 2 ^ 19 % 256)).isScratch (pa / 2 ^ 15 % 16)

/-- The address is populated (03:R64, R78, R79, 24:R493). -/
def populated (s : State) (pa : Nat) : Bool :=
  decide (pa < 2 ^ 42) &&
  match windowOf pa with
  | .dram => !(s.stack (pa / 2 ^ 35 % 32)).excluded && !(s.bank (pa / 2 ^ 27)).gone
  | .scratch => decide (pa / 2 ^ 32 % 256 = 0) && !(s.stack (pa / 2 ^ 27 % 32)).excluded && scratchOpen s pa
  | .control =>
    decide (pa % 2 ^ 40 < 2 ^ 30) && (decide (0x20000000 ≤ pa % 2 ^ 40) || !(s.stack (pa / 2 ^ 24 % 32)).excluded)
  | .host => (hostAddr s pa).isSome

/-- Every byte of an access of `n` bytes inside one aligned 8-byte word is populated (23:R482). -/
def populatedN (s : State) (pa n : Nat) : Bool := populated s pa && populated s (pa + (n - 1))

/-- Bank (stack x 256 + bank) and byte of a scratch address (03:R78). -/
def scratchBank (pa : Nat) : Nat := pa / 2 ^ 27 % 32 * 256 + pa / 2 ^ 19 % 256
def scratchByte (pa : Nat) : Nat := pa % 2 ^ 19

/-- Reads `n` bytes inside one aligned 8-byte word of the DRAM, scratch or host window: value and poison. The control window is read in
Ctrl. -/
def physRead (s : State) (pa n : Nat) (alloc : Bool) : State × Nat × Bool :=
  match windowOf pa with
  | .dram => dramRead s pa n alloc
  | .scratch =>
    let s := eccScratch s (scratchBank pa) (scratchByte pa / 32)
    let x := s.bank (scratchBank pa)
    (s, memReadN x.scratch (scratchByte pa) n, decide (mapGetD x.scratchPoison (scratchByte pa / 32) 0 ≠ 0))
  | .control => (s, 0, false)
  | .host =>
    match hostAddr s pa with
    | some h => (s, memReadN s.hostMem h n, false)
    | none => (s, 0, false)

/-- Writes `n` bytes inside one aligned 8-byte word of the DRAM, scratch or host window. -/
def physWrite (s : State) (pa n v : Nat) (alloc : Bool) (m : Mark) : State :=
  match windowOf pa with
  | .dram => dramWrite s pa n v alloc m
  | .scratch =>
    let b := scratchBank pa
    let key := scratchByte pa / 32
    let s := eccScratch s b key
    let x := s.bank b
    let fl := clearParts (mapGetD x.scratchPoison key 0) (pa % 32) n
    let s := s.setBank b { x with scratch := memWriteN x.scratch (scratchByte pa) n v,
                                  scratchPoison := if fl = 0 then mapErase x.scratchPoison key else mapSet x.scratchPoison key fl }
    setDirty s m.due pa
  | .control => s
  | .host =>
    match hostAddr s pa with
    | some h => setDirty { s with hostMem := memWriteN s.hostMem h n v } m.due pa
    | none => s

/-- Marks the aligned 32-byte word at a physical address poisoned, all flags set (21:R448, R452). -/
def poisonWord (s : State) (pa : Nat) : State :=
  match windowOf pa with
  | .dram =>
    let b := pa / 2 ^ 27
    let k := idx16 (pa / 2 ^ 23)
    let s := settleUnbind s b k
    let r := s.wreg b k
    if r.state.bound ∧ r.prow.toNat = pa / 2 ^ 11 % 4096 then
      s.setW b k { r with poison := setEl r.poison 4 (pa / 32 % 64) 15 }
    else
      match mapGet (s.bank b).lines (lineKey pa) with
      | some l => s.setBank b { s.bank b with lines := mapSet (s.bank b).lines (lineKey pa) { l with poison := setEl l.poison 4 (pa / 32 % 4) 15, dirty := true } }
      | none => { s with cellPoison := setInsert s.cellPoison (pa / 32) }
  | .scratch =>
    let b := scratchBank pa
    let x := s.bank b
    s.setBank b { x with scratchPoison := mapSet x.scratchPoison (scratchByte pa / 32) 15 }
  | _ => s

/-! ### Page tables -/

/-- A pointer entry is valid and its reserved bits are zero (19:R415, R418). -/
def ptrOk (e : Nat) : Bool := decide (e % 2 = 1 ∧ e / 2 % 2 = 0 ∧ e / 4 % 2 ^ 10 = 0 ∧ e / 2 ^ 42 = 0)

/-- A leaf entry is valid and its reserved bits are zero (19:R416, R418). -/
def leafOk (e : Nat) : Bool := decide (e % 4 = 3 ∧ e / 2 ^ 11 % 2 ^ 5 = 0 ∧ e / 2 ^ 42 % 2 ^ 6 = 0)

/-- The page a leaf names, as a physical address. -/
def leafPage (e : Nat) : Nat := e / 2 ^ 16 % 2 ^ 26 * 2 ^ 16

/-- A table may be read: it lies in the DRAM window at a populated address (19:R415, R418). -/
def tableOk (s : State) (pa : Nat) : Bool := decide (windowOf pa = .dram) && populated s pa

/-- What a walk ends in. -/
inductive WalkEnd where
  | found (x : Xlat)
  | fault (cause : BitVec 8)
  deriving DecidableEq, Repr

/-- A poisoned table word is logged with unit WALK (21:R450). -/
def walkPoison (s : State) (st pa : Nat) : State := logErr s st 1 unitWalk (pa / 2 ^ 27 % 256) 0xFFFF (BitVec.ofNat 64 pa) 0xFFFFFFFF 0

/-- Who asks for a translation (19:R421, R423): its stack, the cache it looks up first, its frond slot. -/
structure Asker where
  st : Nat
  cache : Cache
  slot : Nat
  deriving DecidableEq, Repr

/-- The walker columns of a stack are all STOPPED (19:R423). -/
def walkersDown (k : Stack) : Bool := (List.range 4).all (fun i => ((k.cols.toList[2 + i]?).map (fun c => c.state)) == some ColState.stopped)

/-- The walker column, 0-3, that serves a frond slot: slot mod 4, or the next that is not STOPPED (19:R423). -/
def walkerOf (k : Stack) (slot : Nat) : Nat :=
  ((((List.range 4).map (fun i => (slot + i) % 4)).find? (fun c => ((k.cols.toList[2 + c]?).map (fun x => x.state)) != some ColState.stopped))).getD (slot % 4)

/-- How many translations a cache holds (19:R421). -/
def Cache.size : Cache → Nat
  | .tlb _ => 4096
  | .row _ => 64
  | .front _ => 16
  | .seq _ => 16

/-- Enters a translation in a cache; from a full one a translation, freely chosen, leaves. One that the cache already holds for the page is
replaced. -/
def install (s : State) (x : Xlat) : State :=
  let rest := s.xlat.filter (fun y => !(decide (y.cache = x.cache ∧ y.root = x.root ∧ y.page = x.page)))
  let mine := rest.filter (fun y => decide (y.cache = x.cache))
  if mine.length < x.cache.size then { s with xlat := x :: rest }
  else
    let d := s.draw
    match mine[Config.victim d.1 % mine.length]? with
    | some v => { d.2 with xlat := x :: rest.filter (fun y => decide (y ≠ v)) }
    | none => { s with xlat := x :: rest }

/-- The two entries of a BIG run, an entry and its run head, agree as software must write them: the fields but A, and one 2 MiB range in order
(19:R417). -/
def runAlike (e head i : Nat) : Bool :=
  decide (e &&& 0x3BF = head &&& 0x3BF) && decide (leafPage head / 2 ^ 21 * 2 ^ 21 + i % 32 * 2 ^ 16 = leafPage e)

/-- The fields of a leaf's BIG run: PAGE and permissions, from the touched entry or the run head; where the run is not as software must
write it, both results are possible (19:R417). -/
def bigLeaf (s : State) (e head i : Nat) : State × Nat × Nat :=
  let fields := 0x3FF - 0x40
  let alike := decide (e &&& fields = head &&& fields)
  let d := s.draw
  let perm := if alike || Config.pick d.1 then e else e - (e &&& fields) + (head &&& fields)
  let viaHead := leafPage head / 2 ^ 21 * 2 ^ 21 + i % 32 * 2 ^ 16
  let d2 := d.2.draw
  if viaHead = leafPage e then (if alike then s else d.2, perm, leafPage e)
  else (d2.2, perm, if Config.pick d2.1 then viaHead else leafPage e)

/-- The last level of a walk: the leaf at index `i` of the table at `tbl` (19:R416-R418, R425). A run is cached as one translation
where it is as software must write it; of any other the touched entry alone is kept. -/
def walkLeaf (s : State) (a : Asker) (root : Word) (page tbl : Nat) : State × WalkEnd :=
  if !tableOk s tbl then (s, .fault cAccess)
  else
    let i := page % 512
    let la := tbl + 8 * i
    let r := dramRead s la 8 false
    let s := r.1
    let e := r.2.1
    if r.2.2 then (walkPoison s a.st la, .fault cPage)
    else if !leafOk e then (s, .fault cPage)
    else
      let big := decide (e / 2 ^ 10 % 2 = 1)
      let ha := tbl + 8 * (i / 32 * 32)
      let h := if big then dramRead s ha 8 false else (s, e, false)
      let s := h.1
      if h.2.2 then (walkPoison s a.st ha, .fault cPage)
      else if big && !(leafOk h.2.1 && decide (h.2.1 / 2 ^ 10 % 2 = 1)) then (s, .fault cPage)
      else
        let b := if big then bigLeaf s e h.2.1 i else (s, e, leafPage e)
        let s := b.1
        if windowOf b.2.2 = .control ∧ b.2.1 / 32 % 2 = 1 then (s, .fault cPage)          -- 03:R81
        else
          let s := if e / 64 % 2 = 1 then s else orWord s la 64                            -- 19:R425
          (s, .found { cache := a.cache, root := root, page := page, leafAddr := la, leaf := BitVec.ofNat 64 (b.2.1 ||| 64), base := b.2.2,
                       run := if big && runAlike e h.2.1 i then some (leafPage h.2.1 / 2 ^ 21 * 2 ^ 21, BitVec.ofNat 64 h.2.1) else none, hashed := false })

/-- Enters a pointer entry in its column's cache of 256; from a full one an entry, freely chosen, leaves (19:R421). -/
def keepPtr (s : State) (p : Ptr) : State :=
  let mine := s.ptrs.filter (fun y => decide (y.st = p.st ∧ y.col = p.col))
  if mine.length < 256 then { s with ptrs := p :: s.ptrs }
  else
    let d := s.draw
    match mine[Config.victim d.1 % mine.length]? with
    | some v => { d.2 with ptrs := p :: s.ptrs.filter (fun y => decide (y ≠ v)) }
    | none => s

/-- The pointer levels of a walk, from level `n` down; `page` is the 36-bit page number (19:R414-R418). An entry that the column's cache holds is
not read again. -/
def walkPtr (s : State) (a : Asker) (root : Word) (page : Nat) : Nat → Nat → State × WalkEnd
  | 0, tbl => walkLeaf s a root page tbl
  | n + 1, tbl =>
    if !tableOk s tbl then (s, .fault cAccess)
    else
      let ea := tbl + 8 * (page / 2 ^ (9 * (n + 1)) % 512)
      let col := walkerOf (s.stack a.st) a.slot
      let next (v : Nat) : Nat := v / 2 ^ 12 % 2 ^ 30 * 2 ^ 12
      match s.ptrs.find? (fun p => decide (p.st = a.st ∧ p.col = col ∧ p.root = root ∧ p.addr = ea)) with
      | some p => walkPtr s a root page n (next p.val)
      | none =>
        let r := dramRead s ea 8 false
        if r.2.2 then (walkPoison r.1 a.st ea, .fault cPage)
        else if !ptrOk r.2.1 then (r.1, .fault cPage)
        else walkPtr (keepPtr r.1 ⟨a.st, col, root, page, 9 * (n + 1), ea, r.2.1⟩) a root page n (next r.2.1)

/-- A walk of the four levels from the root (19:R414, R415). -/
def walk (s : State) (a : Asker) (root : Word) (page : Nat) : State × WalkEnd :=
  let r := root.toNat
  if r % 2 ^ 12 ≠ 0 ∨ r / 2 ^ 42 ≠ 0 then (s, .fault cPage) else walkPtr s a root page 3 r

/-- The bank, as stack x 256 + bank, whose row cache keeps a bank-private translation: the one that holds the page (19:R420). No bank holds a page
of the control or the host window. -/
def Xlat.holder (x : Xlat) : Option Nat :=
  match windowOf x.base with
  | .dram => some (x.base / 2 ^ 27)
  | .scratch => some (scratchBank x.base)
  | _ => none

/-- A cached translation serves a page of its BIG run (19:R417): the page's own leaf entry, the run head's fields, no DIRTY bit known. -/
def Xlat.forPage (x : Xlat) (page : Nat) (r : Nat × Word) : Xlat :=
  { x with page := page, leafAddr := x.leafAddr / 256 * 256 + page % 32 * 8, leaf := (r.2 &&& 0x0000FFFFFFFFFFFF) ||| 64,
           base := r.1 + page % 32 * 2 ^ 16, hashed := false }

/-- Looks a page up in one cache: a translation of the page, else one of its run, whose entry's A is then set (19:R417, R421). -/
def lookup (s : State) (c : Cache) (root : Word) (page : Nat) : State × Option Xlat :=
  match s.xlat.find? (fun x => decide (x.cache = c ∧ x.root = root ∧ x.page = page)) with
  | some x => (s, some x)
  | none =>
    match s.xlat.find? (fun x => decide (x.cache = c ∧ x.root = root ∧ x.page / 32 = page / 32) && x.run.isSome) with
    | some x =>
      match x.run with
      | some r =>
        let y := x.forPage page r
        (install (orWord s y.leafAddr 64) y, some y)
      | none => (s, none)
    | none => (s, none)

/-- Translates the page of a 52-bit virtual address: from the asker's cache, from the stack TLB, else by a walk whose result is cached
(19:R421, R422). A bank-private translation is kept in the row cache of the bank that holds it only (R420). -/
def translate (s : State) (a : Asker) (root : Word) (va : Nat) : State × WalkEnd :=
  let page := va / 2 ^ 16
  match lookup s a.cache root page with
  | (s, some x) => (s, .found x)
  | (s, none) =>
    match (if a.cache = .tlb a.st then (s, none) else lookup s (.tlb a.st) root page) with
    | (s, some x) => (install s { x with cache := a.cache }, .found x)
    | (s, none) =>
      let w := walk s a root page
      match w.2 with
      | .fault c => (w.1, .fault c)
      | .found x =>
        if bitOf x.leaf 9 then ((match x.holder with | some b => install w.1 { x with cache := .row b } | none => w.1), .found x)
        else
          let s := install w.1 { x with cache := .tlb a.st }
          (if a.cache = .tlb a.st then s else install s x, .found x)

/-- The running hart asks: a scalar or far access looks up the stack TLB. -/
def State.asker (s : State) : Asker := ⟨s.cur.st, .tlb s.cur.st, (s.stack s.cur.st).slotOf (feOf s.cur.th)⟩

/-- A row instruction asks from a bank. -/
def State.rowAsker (s : State) (b : Nat) : Asker := { s.asker with cache := .row b }

/-- An instruction fetch asks: the front end's cache, or the bank sequencer's. -/
def State.fetchAsker (s : State) : Asker :=
  { s.asker with cache := match s.cur.bank with
      | none => .front (s.cur.st * 20 + feOf s.cur.th)
      | some j => .seq (s.ownBank j) }

/-- An engine or the launch unit of a stack asks; the column it walks in is not given (19:R423). -/
def unitAsker (st : Nat) : Asker := ⟨st, .tlb st, 0⟩

/-- The physical address of a byte under a translation. -/
def Xlat.pa (x : Xlat) (va : Nat) : Nat := x.base + va % 2 ^ 16

/-- A bit of a translation's leaf. -/
def Xlat.bit (x : Xlat) (n : Nat) : Bool := bitOf x.leaf n

/-- The entry bits an access needs, checked in the order U, R, W, FA (19:R419). -/
structure Need where
  r : Bool
  w : Bool
  fa : Bool
  deriving DecidableEq, Repr

/-- The permission check of 19:R419: the cause of the first missing bit. -/
def permFault (x : Xlat) (lvl : Level) (n : Need) (dram : Bool) : Option (BitVec 8) :=
  if lvl = .user ∧ !x.bit 5 then some cAccess
  else if n.r && !x.bit 2 then some cAccess
  else if n.w && !x.bit 3 then some cWrite
  else if n.fa && dram && !x.bit 8 then some cAccess
  else none

/-- The leaf entry of a write through a translation, and whether its dirty bit must be set: not where the cached DIRTY holds it (19:R428). -/
def Xlat.mark (x : Xlat) (pa : Nat) : Mark := ⟨some x.leafAddr, !x.bit (48 + pa / 4096 % 16)⟩

/-- A virtual address translated and checked for an access of a scalar or far kind: bits [63:52], translation with its locality, permissions, window (15:R338
steps 2, 4, 5; 13:R294; 19:R420) for `bytes` bytes inside one aligned 8-byte word. `ctl` says that the control window may be reached, `loc` that a
bank-private page may. -/
def dataAddr (s : State) (a : Asker) (root : Word) (lvl : Level) (va bytes : Nat) (n : Need) (ctl loc : Bool) :
    State × Except (BitVec 8) (Xlat × Nat) :=
  if va / 2 ^ 52 ≠ 0 then (s, .error cPage)
  else
    let t := translate s a root va
    match t.2 with
    | .fault c => (t.1, .error c)
    | .found x =>
      let pa := x.pa va
      if x.bit 9 && !loc then (t.1, .error cAccess)
      else
        match permFault x lvl n (decide (windowOf pa = .dram)) with
        | some c => (t.1, .error c)
        | none =>
          if windowOf pa = .control ∧ !ctl then (t.1, .error cAccess)
          else if !populatedN t.1 pa bytes then (t.1, .error cAccess)
          else (t.1, .ok (x, pa))

/-- A write through a translation: dirty bit, bytes, code marks (15:R339). -/
def writeVia (s : State) (x : Xlat) (pa n v : Nat) (alloc : Bool) : State :=
  clearHashed (physWrite s pa n v alloc (x.mark pa)) pa

/-- A scalar or engine access to a crown-cacheable page goes through the home slice, which allocates (12:R267). -/
def Xlat.cacheable (x : Xlat) : Bool := x.bit 7

end Sys2Proof.Machine
end

