-- ==== Sys2Proof/Machine/Remote.lean ====
section
/-!
DEFINITION. What a target does with one far element or one scalar atomic, posted elements and their acknowledgements, and the accesses of the
launch unit and the spore engines (12:R275, R276, 13:R296-R300, 15:R341, 19:R419, R420).
-/

namespace Sys2Proof.Machine

/-- The new value of a read-modify-write (13:R299, R300), and its flags; none when nothing is written. `op`: 1 scatter-add, 16 + func8 for
the atomics of 13:R300; `fmt` is the format of a floating or typed sum. -/
def rmwValue (op : Nat) (fmt : BitVec 4) (w old v c : Nat) : Option Nat × BitVec 5 :=
  let so := toSigned w old
  let sv := toSigned w v
  match op with
  | 1 =>
    let r := combAdd fmt ⟨rmRNE, false, false⟩ 0 old v
    (some r.code, r.flags)
  | 16 => (some ((old + v) % 2 ^ w), 0)
  | 17 =>
    let r := combAdd 11 ⟨rmRNE, false, false⟩ 0 old v
    (some r.code, r.flags)
  | 18 => (some (if so ≤ sv then old else v), 0)
  | 19 => (some (if so ≤ sv then v else old), 0)
  | 20 => (some (if old ≤ v then old else v), 0)
  | 21 => (some (if old ≤ v then v else old), 0)
  | 22 => (some (old &&& v), 0)
  | 23 => (some (old ||| v), 0)
  | 24 => (some (old ^^^ v), 0)
  | 25 => (some v, 0)
  | 26 => (if old = c then some v else none, 0)
  | _ => (some v, 0)

/-- What a target answers: the old value, whether a poisoned word kept the element from being applied, the flags of a sum. -/
structure Applied where
  st : State
  old : Nat
  lost : Bool
  flags : BitVec 5
  deriving DecidableEq, Repr

/-- One element or scalar atomic applied at its physical address, indivisibly (13:R297, 12:R275). A store writes its bytes; a
read-modify-write of a poisoned word is not applied (13:R296). `alloc` says that the home slice may allocate a line. -/
def applyAt (s : State) (pa n op : Nat) (fmt : BitVec 4) (v c : Nat) (alloc : Bool) (m : Mark) : Applied :=
  if op = 0 then ⟨clearHashed (physWrite s pa n v alloc m) pa, 0, false, 0⟩
  else
    let r := physRead s pa n alloc
    if r.2.2 then ⟨r.1, r.2.1, true, 0⟩
    else
      let z := rmwValue op fmt (8 * n) r.2.1 (v % 2 ^ (8 * n)) (c % 2 ^ (8 * n))
      match z.1 with
      | some x => ⟨clearHashed (physWrite r.1 pa n x alloc m) pa, r.2.1, false, z.2⟩
      | none => ⟨r.1, r.2.1, false, z.2⟩

/-- Applies posted element `n` alone; an element already applied stays as it is. -/
def applyElement (s : State) (n : Nat) : State :=
  match s.posted[n]? with
  | none => s
  | some p =>
    if p.applied then s
    else
      let a := applyAt s p.pa p.bytes p.op p.fmt p.v.toNat p.c.toNat false p.leaf
      { a.st with posted := listSet a.st.posted n { p with applied := true, flags := a.flags, lost := a.lost } }

/-- The posted elements that are applied with element `n`: those of a scatter-add are combined with the others of the instruction at their
address, and written once (12:R275). -/
def combinedWith (s : State) (n : Nat) : List Nat :=
  match s.posted[n]? with
  | none => []
  | some p =>
    (List.range s.posted.length).filter (fun i => match s.posted[i]? with
      | some q => decide (i = n) || decide (p.op = 1 ∧ q.op = 1 ∧ q.group = p.group ∧ q.bank = p.bank ∧ q.pa = p.pa)
      | none => false)

/-- Applies posted element `n` at its target (13:R295, R297), in ascending order with those it is combined with. -/
def applyPosted (s : State) (n : Nat) : State := (combinedWith s n).foldl applyElement s

/-- A posted element comes from the running party: a bank thread's from its bank, a control thread's from any of its banks. -/
def State.mine (s : State) (p : Posted) : Bool :=
  p.thread == s.tid && (match s.cur.bank with | some j => p.bank == s.ownBank j | none => true)

/-- The running party's own posted elements to the words that `sel` selects in bank `b` take effect before it reads there itself, with what it sent
to the bank before them (14:R310, R312). -/
def ownFirst (s : State) (b : Nat) (sel : Nat → Bool) : State :=
  if s.posted.any (fun p => s.mine p && !p.applied && p.pa / 2 ^ 27 == b && sel p.pa) then
    (List.range s.posted.length).foldl (fun acc n =>
      match acc.posted[n]? with
      | some p => if acc.mine p && p.pa / 2 ^ 27 == b then applyElement acc n else acc
      | none => acc) s
  else s

/-- Acknowledges posted element `n`: the flags of a sum reach the issuing bank, a poison loss is reported there (13:R296, R298). -/
def ackPosted (s : State) (n : Nat) : State :=
  match s.posted[n]? with
  | none => s
  | some p =>
    if !p.applied then s
    else
      let x := s.bank p.bank
      { s.setBank p.bank { x with flags := x.flags ||| p.flags, ploss := x.ploss || p.lost } with posted := listDrop s.posted n }

/-- Applies and acknowledges, in order, `n` posted elements from the front that `mine` selects; the others stay. -/
def flushFrom (s : State) (mine : Posted → Bool) : Nat → Nat → State
  | 0, _ => s
  | n + 1, pos =>
    match s.posted[pos]? with
    | none => s
    | some p => if mine p then flushFrom (ackPosted (applyPosted s pos) pos) mine n pos else flushFrom s mine n (pos + 1)

/-- Waits for the acknowledgements of a thread's posted elements (12:R276). -/
def flushPosted (s : State) (tid : Nat) : State := flushFrom s (fun p => p.thread == tid) s.posted.length 0

/-- A bank thread's own posted elements (17:R376). -/
def flushBank (s : State) (tid b : Nat) : State := flushFrom s (fun p => p.thread == tid && p.bank == b) s.posted.length 0

/-- A delayed store takes effect (14:R315). -/
def landOne (s : State) (d : Delayed) : State := clearHashed (physWrite s d.pa d.bytes d.v d.alloc d.leaf) d.pa

/-- The delayed stores that `sel` selects take effect, oldest first. -/
def landWhere (s : State) (sel : Delayed → Bool) : State :=
  if s.stores.any sel then (s.stores.filter sel).foldl landOne { s with stores := s.stores.filter (fun d => !sel d) } else s

/-- Every delayed store of a thread takes effect: at FENCE.SV, at a release or a fence, and where the thread ends or is saved (14:R316-R318, R327). -/
def landAll (s : State) (tid : Nat) : State := landWhere s (fun d => d.tid == tid)

/-- The write buffer serves the scalar accesses of its stack: a delayed store to the word has taken effect for them (14:R310, R315). -/
def landWord (s : State) (st pa : Nat) : State := landWhere s (fun d => d.tid / 40 == st && d.pa / 8 == pa / 8)

/-- Delayed store `n` takes effect, with the stack's earlier ones to its word (14:R310, R315). -/
def landNth (s : State) (n : Nat) : State :=
  match s.stores[n]? with
  | none => s
  | some d => landWord s (d.tid / 40) d.pa

/-- A virtual address of a spore engine or the launch unit: no control window, no bank-private page (03:R80, 19:R419, R420), for
`bytes` bytes inside one aligned 8-byte word. -/
def unitAddr (s : State) (st : Nat) (root : Word) (lvl : Level) (va bytes : Nat) (n : Need) : State × Option (Xlat × Nat) :=
  match dataAddr s (unitAsker st) root lvl va bytes n false false with
  | (s, .error _) => (s, none)
  | (s, .ok z) => (s, some z)

/-- Reads `n` bytes inside one aligned 8-byte word as such a unit: value and poison, or none where the address fails. -/
def unitRead (s : State) (st : Nat) (root : Word) (lvl : Level) (va n : Nat) : State × Option (Nat × Bool) :=
  match unitAddr s st root lvl va n ⟨true, false, false⟩ with
  | (s, none) => (s, none)
  | (s, some z) =>
    let r := physRead s z.2 n z.1.cacheable
    (r.1, some r.2)

/-- Writes `n` bytes inside one aligned 8-byte word as such a unit; false where the address fails. -/
def unitWrite (s : State) (st : Nat) (root : Word) (lvl : Level) (va n v : Nat) : State × Bool :=
  match unitAddr s st root lvl va n ⟨false, true, false⟩ with
  | (s, none) => (s, false)
  | (s, some z) => (writeVia s z.1 z.2 n v z.1.cacheable, true)

end Sys2Proof.Machine
end

