-- ==== Sys2Proof/Machine/Tasks.lean ====
section
/-!
DEFINITION. How tasks and launches end: results of engine commands reach their task, unstarted commands abort, banks are cleared and freed,
the launch unit counts the task and writes the completion word (12:R277-R282, 16:R369, R370, 18:R397-R413).
-/

namespace Sys2Proof.Machine

/-- A column that is STOPPED issues nothing (18:R411). Column 0 is the launch unit, 1 the scheduler, 2-5 the walkers. -/
def colStopped (k : Stack) (c : Fin 6) : Bool := decide (k.cols[c].state = .stopped)

/-! ### Engine results -/

/-- The thread holds task `id`. -/
def Thread.holds (t : Thread) (id : TaskId) : Bool :=
  match t.task with
  | some i => decide (i.id = id)
  | none => false

/-- The control thread on which a task runs. -/
def State.findThread (s : State) (id : TaskId) : Option Nat :=
  if s.thr.holds id then some s.tid else (s.threads.find? (fun e => e.2.holds id)).map (fun e => e.1)

/-- Changes the thread record of a saved task, wherever it waits. -/
def State.mapSaved (s : State) (id : TaskId) (f : Thread → Thread) : State :=
  { s with stks := s.stks.map (fun e => (e.1, { e.2 with waiting := e.2.waiting.map (fun w =>
      if w.info.id = id then { w with saved := w.saved.map (fun z => { z with thread := f z.thread }) } else w) })) }

/-- The saved thread record of a task. -/
def State.savedThread (s : State) (id : TaskId) : Option Thread :=
  (s.stks.flatMap (fun e => e.2.waiting)).findSome? (fun w => if w.info.id = id then w.saved.map (fun z => z.thread) else none)

/-- A queue's number within its thread: 4 x slot + 2c + n (18:R399). -/
def queueNo (q : Nat) : Fin 2 := ⟨q % 2, Nat.mod_lt _ (by decide)⟩

def Thread.addResult (t : Thread) (n : Fin 2) (w : Word) : Thread := { t with results := t.results.set n (t.results[n] ++ [w]) }

/-- Delivers a result word to its task: false when the FIFO of 16 words is full; a task that has ended takes nothing (12:R277, R281). -/
def giveResult (s : State) (id : TaskId) (n : Fin 2) (w : Word) : State × Bool :=
  match s.findThread id with
  | some tid =>
    let t := s.thread tid
    if t.results[n].length < 16 then (s.setThread tid (t.addResult n w), true) else (s, false)
  | none =>
    match s.savedThread id with
    | some t => if t.results[n].length < 16 then (s.mapSaved id (fun x => x.addResult n w), true) else (s, false)
    | none => (s, true)

def Thread.pendIrq (t : Thread) (n : Fin 2) : Thread :=
  { t with ui := if n = 1 then { t.ui with pend1 := true } else { t.ui with pend0 := true } }

/-- Sets UISTAT.PENDq of the owning task's thread, in its saved record while it is pre-empted (12:R282). -/
def raiseIrq (s : State) (id : TaskId) (n : Fin 2) : State :=
  match s.findThread id with
  | some tid => s.setThread tid ((s.thread tid).pendIrq n)
  | none => s.mapSaved id (fun t => t.pendIrq n)

def State.engq (s : State) (st : Nat) (q : Fin 64) : EngQ := (s.stack st).engines[q]

def State.setEngq (s : State) (st : Nat) (q : Fin 64) (e : EngQ) : State :=
  s.setStack st { s.stack st with engines := (s.stack st).engines.set q e }

/-- Command statuses (12:R280). -/
def csOk : BitVec 8 := 1
def csTimeout : BitVec 8 := 2
def csBadAddr : BitVec 8 := 3
def csBadCmd : BitVec 8 := 4
def csAuth : BitVec 8 := 5
def csBadRev : BitVec 8 := 6
def csAborted : BitVec 8 := 7

/-- A result word (12:R280). -/
def resultWord (status : BitVec 8) (hdr : Word) (done : Nat) : Word :=
  BitVec.ofNat 64 (status.toNat * 2 ^ 56 + fieldOf hdr 47 32 * 2 ^ 32 + (if done < 2 ^ 32 then done else 2 ^ 32 - 1))

/-- The completion word a command names: operand 3 of the copy commands (12:R279, 23:R484), 0 for none. -/
def completionAddr (hdr : Word) (ops : List Word) : Word :=
  if 1 ≤ fieldOf hdr 63 56 ∧ fieldOf hdr 63 56 ≤ 4 then (ops[3]?).getD 0 else 0

/-- Writes a command's completion word, if it names one; an unwritable one makes the status BADADDR (12:R279, R280). -/
def writeCompletion (s : State) (st : Nat) (own : QOwner) (hdr : Word) (ops : List Word) (status : BitVec 8) (done : Nat) :
    State × BitVec 8 :=
  let cw := completionAddr hdr ops
  if cw = 0 ∨ cw.toNat % 8 ≠ 0 then (s, status)
  else
    let r := unitWrite s st own.root own.level cw.toNat 8 (resultWord status hdr done).toNat
    (r.1, if r.2 then status else csBadAddr)

/-- Completes the running command of a queue: completion word (unless `noWord`), result word, completion interrupt (12:R280-R282). -/
def completeCmd (s : State) (st : Nat) (q : Fin 64) (r : Running) (status : BitVec 8) (done : Nat) (noWord : Bool) : State :=
  let w := if noWord then (s, status) else writeCompletion s st r.own r.hdr r.ops status done
  let word := resultWord w.2 r.hdr done
  let n := queueNo q.val
  let g := giveResult w.1 r.own.task n word
  let s := if bitOf r.hdr 52 then raiseIrq g.1 r.own.task n else g.1
  s.setEngq st q { s.engq st q with run := none, held := if g.2 then none else some (word, r.own.task) }

/-- Splits the words of one task into whole commands, each with the owner of its header; a command still short of operands is dropped. -/
def splitCmds : Nat → List (Word × QOwner) → List (Word × List Word × QOwner)
  | 0, _ => []
  | _, [] => []
  | n + 1, (h, own) :: t =>
    let k := fieldOf h 55 53
    if k ≤ t.length then (h, (t.take k).map (fun w => w.1), own) :: splitCmds n (t.drop k) else []

/-- Aborts a task's commands that have not started, writing their completion words, and discards its result that is held back (12:R281). -/
def abortQueue (s : State) (st : Nat) (q : Fin 64) (id : TaskId) : State :=
  let e := s.engq st q
  let mine := e.fifo.filter (fun w => decide (w.2.task = id))
  let s := s.setEngq st q { e with fifo := e.fifo.filter (fun w => decide (w.2.task ≠ id))
                                   held := match e.held with | some h => if h.2 = id then none else some h | none => none }
  (splitCmds mine.length mine).foldl (fun acc c => (writeCompletion acc st c.2.2 c.1 c.2.1 csAborted 0).1) s

/-- Aborts a task's unstarted commands in every queue that holds some: those of its thread, and of threads it ran on before (12:R281). -/
def abortTask (s : State) (id : TaskId) : State :=
  (s.stks.map (fun e => e.1)).foldl (fun acc st =>
    if (acc.stack st).engines.toList.all (fun e => e.fifo.isEmpty && e.held.isNone) then acc
    else (List.range 64).foldl (fun acc q => if h : q < 64 then abortQueue acc st ⟨q, h⟩ id else acc) acc) s

/-- The engine queue `n` of a control thread: 4 x slot + 2c + n (18:R399). -/
def engQueueOf (s : State) (st th : Nat) (n : Fin 2) : Fin 64 :=
  ⟨(4 * (s.stack st).slotOf (feOf th) + 2 * (th % 2) + n.val) % 64, Nat.mod_lt _ (by decide)⟩

/-! ### Launches -/

/-- Completion-word statuses (16:R370). -/
def lsOk : BitVec 8 := 1
def lsTrapped : BitVec 8 := 2
def lsCode : BitVec 8 := 3
def lsLayout : BitVec 8 := 4
def lsGang : BitVec 8 := 5
def lsAbandoned : BitVec 8 := 6
def lsCancelled : BitVec 8 := 7

def State.getLaunch (s : State) (st id : Nat) : Option Launch := (s.stack st).table.find? (fun l => l.id == id)

def State.setLaunch (s : State) (st : Nat) (l : Launch) : State :=
  s.setStack st { s.stack st with table := (s.stack st).table.map (fun x => if x.id = l.id then l else x) }

/-- The completion word (16:R370). -/
def Launch.word (l : Launch) : Word :=
  let status := if l.status = 0 then lsOk else l.status
  BitVec.ofNat 64 (status.toNat * 2 ^ 56 + (if l.status = 0 then 0 else l.failTask) % 2 ^ 17 * 2 ^ 39 + l.ended % 2 ^ 18 * 2 ^ 16 +
    b2n l.ploss * 2 ^ 8 + l.flags.toNat)

/-- Writes the completion word of a launch; one that no longer translates with W is logged as CWORD-LOST (16:R369, 17:R381). -/
def writeCword (s : State) (st : Nat) (l : Launch) : State :=
  let r := unitWrite s st l.rcd.root .supervisor l.rcd.cword.toNat 8 l.word.toNat
  if r.2 then r.1 else logErr r.1 st 2 unitColumn 0xFFFF 0xFFFF 0 0 0x00030000

/-- Records a failure unless an earlier one stands (16:R370). -/
def Launch.fail (l : Launch) (status : BitVec 8) (task : Nat) : Launch :=
  if l.status = 0 then { l with status := status, failTask := task } else l

/-- Ends a launch whose tasks have all ended (16:R369). A launch unit that is STOPPED does so after its reset (18:R411). -/
def closeLaunch (s : State) (st id : Nat) : State :=
  match s.getLaunch st id with
  | none => s
  | some l =>
    if l.ns * l.nf ≤ l.finished ∧ !colStopped (s.stack st) 0 then
      let s := writeCword s st l
      s.setStack st { s.stack st with table := (s.stack st).table.filter (fun x => x.id != id) }
    else s

/-- Frees a thread and its banks (16:R369, 04:R87, 12:R281): posted elements are acknowledged, flags gathered, banks cleared, unstarted
commands aborted. The answer holds the flags and the poison loss. -/
def releaseThread (s0 : State) (tid : Nat) : State × BitVec 5 × Bool :=
  let st := tid / 40
  let th := tid % 40
  let s := flushPosted (landAll s0 tid) tid
  let t := s.thread tid
  let banks := (ownedBy s st th).map (fun p => p.2)
  let flags := banks.foldl (fun f b => f ||| (s.bank b).flags) t.flags
  let loss := banks.foldl (fun f b => f || (s.bank b).ploss) t.ploss
  let s := banks.foldl clearBank s
  let s := banks.foldl (fun acc b => acc.setBank b { acc.bank b with flags := 0, ploss := false }) s
  let s := match t.task with
    | some i => abortTask s i.id
    | none => s
  let s := s.setThread tid Thread.reset
  let s := if tid = s.tid then { s with cur := { s.cur with bank := none }, vrun := false } else s
  (s, flags, loss)

/-- The launch unit counts a task that has ended (16:R369, R370). `ran` says that it executed END. -/
def countTask (s : State) (id : TaskId) (ran : Bool) (status : BitVec 8) (flags : BitVec 5) (loss : Bool) : State :=
  match s.getLaunch id.stack id.launch with
  | none => s
  | some l =>
    let l := { l with ended := l.ended + b2n ran, finished := l.finished + 1, flags := l.flags ||| flags, ploss := l.ploss || loss }
    s.setLaunch id.stack (if status = 0 then l else l.fail status id.num)

/-- Every thread that runs a task of a launch. -/
def State.launchThreads (s : State) (st id : Nat) : List Nat :=
  let mine (t : Thread) : Bool := match t.task with | some i => decide (i.id.stack = st ∧ i.id.launch = id) | none => false
  (if mine s.thr then [s.tid] else []) ++ (s.threads.filter (fun e => mine e.2)).map (fun e => e.1)

/-- The sticky flags and the poison loss that a task's save record holds: its thread's and those of its banks. -/
def SavedTask.gathered (s : State) (z : SavedTask) : BitVec 5 × Bool :=
  z.map.foldl (fun acc p => match (s.bank p.1).slot p.2 with
    | some y => (acc.1 ||| y.flags, acc.2 || y.ploss)
    | none => acc) (z.thread.flags, z.thread.ploss)

/-- A dropped task leaves its launch the flags and the poison loss it has gathered, unless the launch unit has counted it already (16:R369, R370). -/
def leaveFlags (s : State) (w : Waiting) : State :=
  match (if w.counted then none else w.saved), s.getLaunch w.info.id.stack w.info.id.launch with
  | some z, some l =>
    let g := z.gathered s
    s.setLaunch w.info.id.stack { l with flags := l.flags ||| g.1, ploss := l.ploss || g.2 }
  | _, _ => s

/-- Drops the waiting tasks that `sel` selects, in one stack: their save slots are freed, their unstarted commands aborted (12:R281). The answer
counts those that the launch unit had not counted yet. -/
def dropWaiting (s : State) (st : Nat) (sel : Waiting → Bool) : State × Nat :=
  let k := s.stack st
  let gone := k.waiting.filter sel
  let s := gone.foldl leaveFlags s
  let s := s.setStack st { s.stack st with waiting := (s.stack st).waiting.filter (fun w => !sel w) }
  let s := (gone.flatMap (fun w => match w.saved with | some z => z.map | none => [])).foldl (fun acc p =>
    acc.setBank p.1 ((acc.bank p.1).setSlot p.2 none)) s
  (gone.foldl (fun acc w => abortTask acc w.info.id) s, (gone.filter (fun w => !w.counted)).length)

/-- Ends every task of a launch where it is, with no rollback: threads released, waiting tasks dropped. -/
def dropTasks (s : State) (st id : Nat) : State :=
  let s := (s.launchThreads st id).foldl (fun acc tid =>
    let r := releaseThread acc tid
    countTask r.1 ⟨st, id, 0⟩ false 0 r.2.1 r.2.2) s
  (List.range 32).foldl (fun acc n =>
    let d := dropWaiting acc n (fun w => decide (w.info.id.stack = st ∧ w.info.id.launch = id))
    match d.1.getLaunch st id with
    | some l => d.1.setLaunch st { l with finished := l.finished + d.2 }
    | none => d.1) s

/-- A launch that ends on CODE-INTEGRITY or CANCELLED ends its remaining tasks at their next boundary, with no rollback, whichever failure came first
(16:R370). -/
def reapLaunch (s : State) (st id : Nat) (status : BitVec 8) : State :=
  if status = lsCode ∨ status = lsCancelled then dropTasks s st id else s

/-- Writes the completion word of a gang that has failed, once every member has stopped or ended and the launch unit is not STOPPED (18:R410,
R411). -/
def failWord (s : State) (st id : Nat) : State :=
  match s.getLaunch st id with
  | none => s
  | some l =>
    if l.wordDue ∧ !colStopped (s.stack st) 0 ∧ (s.launchThreads st id).isEmpty then (writeCword s st l).setLaunch st { l with wordDue := false }
    else s

/-- Ends the task of a thread: END, HALT, or an end the launch unit orders (16:R369, 17:R386, R389). -/
def endTask (s : State) (tid : Nat) (ran : Bool) (status : BitVec 8) : State :=
  match (s.thread tid).task with
  | none => (releaseThread s tid).1
  | some i =>
    let r := releaseThread s tid
    let s := countTask r.1 i.id ran status r.2.1 r.2.2
    let s := reapLaunch s i.id.stack i.id.launch status
    failWord (closeLaunch s i.id.stack i.id.launch) i.id.stack i.id.launch

/-- Ends a whole launch with a status (16:R370, 18:R404): its remaining tasks end. -/
def endLaunch (s : State) (st id : Nat) (status : BitVec 8) (task : Nat) : State :=
  match s.getLaunch st id with
  | none => s
  | some l =>
    let s := s.setLaunch st (l.fail status task)
    let s := reapLaunch s st id status
    closeLaunch s st id

end Sys2Proof.Machine
end

