-- ==== Sys2Proof/Machine/Save.lean ====
section
/-!
DEFINITION. Saving a task: each owned bank into a save slot, the front-end record, the thread freed (20:R438-R441, R443).
-/

namespace Sys2Proof.Machine

/-- The lowest free save slot of a bank (20:R441). -/
def Bank.freeSlot (x : Bank) : Option (Fin 2) :=
  if x.slots[0] = none then some 0 else if x.slots[1] = none then some 1 else none

/-- The poison flags that an image keeps where it is stored: a word with any flag set is poisoned whole (21:R448, R449). -/
def fullPoison (p : BitVec 256) : BitVec 256 :=
  ((List.range 64).filter (fun i => decide (getEl p 4 i ≠ 0))).foldl (fun acc i => setEl acc 4 i 15) p

/-- What a save slot records of a register: a bound register's binding, a FREE register's image for a hard save (20:R440, R441). -/
def savedW (hard : Bool) (r : WReg) : SavedW :=
  let keep := hard && !r.state.bound
  { state := r.state, tag := r.tag, row := r.row, prow := r.prow, writable := r.writable,
    latch := if keep then r.latch else 0, poison := if keep then fullPoison r.poison else 0 }

/-- The errors of a bank's latches go where its images go: those of FREE latches into the slot of a hard save, the others out with their write-backs
(21:R445). What the slot held before is gone. -/
def saveErrors (s : State) (b slot : Nat) (hard : Bool) : State :=
  let s := dropUpsets s (fun p => p.inSlot b slot)
  if s.upsets.isEmpty then s
  else
    { s with upsets := s.upsets.map (fun e => match e.1 with
      | .latch b' k w => if b' = b ∧ hard ∧ !(s.wreg b (idx16 k)).state.bound then (.slotLatch b slot k w, e.2) else e
      | _ => e) }

/-- Saves one bank into its lowest free slot and clears it (20:R441). The answer names the slot. -/
def saveBank (s : State) (b : Nat) (hard : Bool) : State × Nat :=
  let s := settleAll s b
  let slot := ((s.bank b).freeSlot).getD 0
  let s := saveErrors s b slot.val hard
  let x := s.bank b
  let z : SaveSlot := { hard := hard, regs := vecMap (savedW hard) x.w, m := x.m, x := x.x, t := x.t, q := x.q, lfsr := x.lfsr,
                        flags := x.flags, ploss := x.ploss, bad := false }
  let s := clearBank (s.setBank b { x with slots := x.slots.set slot (some z) }) b
  (s.setBank b { s.bank b with flags := 0, ploss := false }, slot.val)

/-- Every bank that a thread owns has a free save slot (20:R441). A bank that SETVL took may have none (16:R362): a pre-emption then waits (DESIGN
CHOICE, log 111). -/
def State.canSave (s : State) (tid : Nat) : Bool := (ownedBy s (tid / 40) (tid % 40)).all (fun p => ((s.bank p.2).freeSlot).isSome)

/-- A resumed instruction of a thread, or of one of its bank threads, still has to go on (16:R371). -/
def Thread.owes (t : Thread) : Bool :=
  (t.front.owed && !t.queue.isEmpty) || t.bts.any (fun p => p.2.front.owed && decide (p.2.status = .running))

/-- A pre-emption of a thread can act at a boundary: nothing is owed, its banks can be saved (16:R371, 20:R441). -/
def State.mayStop (s : State) (tid : Nat) : Bool := !(s.thread tid).owes && s.canSave tid

/-- A gang member has been placed and not started. -/
def Cond.isReady : Cond → Bool
  | .ready _ => true
  | _ => false

/-- The thread as its record holds it: a WAIT is abandoned, a PAUSE has ended, requests are served (17:R387, R388, 20:R439, R443). A stopped
vector side leaves TRAPPC at its oldest instruction (16:R365), but in a handler, where TRAPPC is what ERET returns to and, with instructions held,
already names the oldest of them (20:R436; DEDUCED, log 133). -/
def Thread.record (t : Thread) : Thread :=
  let t := { t with softReq := false, reqBy := none, hardReq := false, drain := false,
                    tr := match t.handlers, t.queue with | [], q :: _ => { t.tr with pc := BitVec.ofNat 50 (q.addr.toNat / 4) } | _, _ => t.tr }
  match t.cond with
  | .waitWord _ _ _ => { t with cond := .running }
  | .paused => { t with cond := .running, front := (t.front.fallTo (t.front.pc + 4)).retire }
  | _ => t

/-- Saves the banks of a list in order; the answer lists (bank, slot). -/
def saveBanks (s : State) (hard : Bool) : List Nat → State × List (Nat × Nat)
  | [] => (s, [])
  | b :: t =>
    let r := saveBank s b hard
    let z := saveBanks r.1 hard t
    (z.1, (b, r.2) :: z.2)

/-- The save sector of a task whose banks and slots are listed: 2 x home bank + slot (20:R443). -/
def homeSector (map : List (Nat × Nat)) : Nat := match map with | p :: _ => 2 * (p.1 % 256) + p.2 | [] => 0

/-- A task that waits, with nothing of a gang start or a hold about it. -/
def Waiting.plain (i : TaskInfo) (f : Option Fresh) (z : Option SavedTask) : Waiting :=
  { info := i, fresh := f, saved := z, reserved := none, hold := false, counted := false, loose := false, double := none }

/-- Changes what waits in a stack. -/
def State.mapWaiting (s : State) (st : Nat) (f : Waiting → Waiting) : State :=
  s.setStack st { s.stack st with waiting := (s.stack st).waiting.map f }

/-- Puts a task in a stack's list of waiting ones. -/
def State.addWaiting (s : State) (st : Nat) (w : Waiting) : State :=
  s.setStack st { s.stack st with waiting := (s.stack st).waiting ++ [w] }

/-- The launch of a task has failed as a gang and waits for GANGACT (18:R410). -/
def gangFailed (s : State) (i : TaskInfo) : Bool :=
  match s.getLaunch i.id.stack i.id.launch with
  | some l => l.failed
  | none => false

/-- What stops a thread's front end rather than its task: the front end has failed, the launch unit, the scheduler or every walker is STOPPED
(01:R32, 18:R412, 19:R423). -/
def frontDown (s : State) (st th : Nat) : Bool :=
  let k := s.stack st
  k.failedFe.getLsbD (feOf th) || colStopped k 0 || colStopped k 1 || walkersDown k

/-- A save sector is written whole. -/
def freshSector (s : State) (st home : Nat) : State :=
  let s := dropUpsets s (fun p => match p with | .sector st' h _ => decide (st' = st ∧ h = home) | _ => false)
  let k := s.stack st
  s.setStack st { k with sectors := mapErase k.sectors home, sectorBad := k.sectorBad.filter (fun e => e.1 / 256 != home) }

/-- Pre-empts a thread: waits under 14:R327, saves banks and front-end record, frees the thread, and the task waits again (18:R407, 20:R438).
`hold` keeps it for the host; `double` records a double trap, whose task the launch unit counts as ended (20:R437). -/
def preempt (s0 : State) (tid : Nat) (hard hold : Bool) (double : Option (BitVec 8 × Word)) : State :=
  let st := tid / 40
  let s := flushPosted (landAll s0 tid) tid
  let t := s.thread tid
  match t.task with
  | none => s
  | some i =>
    let r := saveBanks s hard ((ownedBy s st (tid % 40)).map (fun p => p.2))
    let s := r.1
    let w : Waiting := { Waiting.plain i none (some { thread := t.record, map := r.2, hard := hard }) with
                         hold := hold || gangFailed s i, counted := double.isSome, loose := frontDown s st (tid % 40), double := double }
    let s := freshSector (s.addWaiting st w) st (homeSector r.2)
    let s := s.setThread tid Thread.reset
    let s := if tid = s.tid then { s with cur := { s.cur with bank := none }, vrun := false, cut := none } else s
    failWord s i.id.stack i.id.launch

/-- A hard pre-emption that something orders: at once where the task is at a boundary that it may stop at, else it is due at the first such one
(16:R371, 20:R441; log 111). -/
def orderStop (s : State) (tid : Nat) : State :=
  let t := s.thread tid
  if t.task.isNone then s
  else if s.mayStop tid || (t.cond.isReady && s.canSave tid) then preempt s tid true false none
  else s.setThread tid { t with hardReq := true }

end Sys2Proof.Machine
end

