-- ==== Sys2Proof/Machine/Ops.lean ====
section
/-!
DEFINITION. What every meaning shares: completing an instruction, jumping, capturing a vector-side instruction's operands, residue checks, taking
a trap and returning from one (15:R346-R356, 16:R363-R366, 20:R432-R437).
-/

namespace Sys2Proof.Machine

/-! ### The instruction being executed -/

/-- The level the running hart executes at: a bank thread keeps the level of its SPLIT, a queued instruction that of its issue (00:R3, 16:R363,
R367). -/
def State.level (s : State) : Level :=
  match s.cur.bank with
  | none =>
    match s.vrun, s.thr.queue with
    | true, e :: _ => e.ctx.level
    | _, _ => s.thr.level
  | some j => (s.bt j).level

/-- The address of the instruction being executed. -/
def State.ipc (s : State) : Word :=
  if s.vrun then (match s.thr.queue with | e :: _ => e.addr | [] => s.front.pc) else s.front.pc

/-- A resumed instruction has gone on, or a bank thread has executed another (16:R371). -/
def Front.going (f : Front) : Front := { f with owed := false }

/-- Counts a completed instruction in its thread and its front end (15:R352, 21:R454). -/
def State.retire (s : State) : State :=
  let s := s.setFront (if s.cur.bank.isSome then s.front.retire.going else s.front.retire)
  let key := s.cur.st * 20 + feOf s.cur.th
  { s with feCount := mapSet s.feCount key (mapGetD s.feCount key 0 + 1) }

/-- Completes a scalar-side instruction of `n` bytes: falls through or loops back (15:R346). -/
def complete (n : Nat) (s : State) : State := (s.setFront (s.front.fallTo (s.front.pc + BitVec.ofNat 64 n))).retire

/-- Ends a meaning with a completed scalar-side instruction. -/
def done (n : Nat) (s : State) : Out := .next (complete n s)

/-- Completes a jump or a taken branch that is no linking jump (15:R347). -/
def jump (t : Word) (s : State) : Out := .next ((s.setFront (s.front.jumpTo t)).retire)

/-- Completes a linking jump: the loop stack stays (15:R347). -/
def jumpLink (t : Word) (s : State) : Out := .next ((s.setFront { s.front with pc := t }).retire)

/-! ### Vector-side context -/

/-- The scalar side must wait for the vector side: its queue holds instructions (16:R363). -/
def State.mustDrain (s : State) : Bool := s.cur.bank.isNone && !s.thr.queue.isEmpty

/-- The scalar side waits until the queue is empty; the instruction then runs from its start. -/
def drainWait (s : State) : Out := .next { s with thr := { s.thr with drain := true } }

/-- The indivisible matrix instructions, which leave VSTART unchanged (11:R250). -/
def keepsVstart : Instr → Bool
  | .mzero _ => true
  | .mld _ _ _ => true
  | .mldP _ _ _ => true
  | .mst _ _ _ => true
  | .mstP _ _ _ => true
  | .mscale _ _ => true
  | .mchk _ => true
  | .pfold _ _ _ _ _ => true
  | _ => false

/-- Captures what a vector-side instruction takes at entry (16:R363). VSTART is the progress of the instruction that starts next, so an
instruction behind others in the queue starts at 0 (20:R434; DEDUCED, log 5). -/
def captureCtx (s : State) (a b : Fin 64) : VCtx :=
  let f := s.front
  { sa := s.sval a, sb := s.sval b, vlcfg := f.vlcfg, vstart := if s.mustDrain && !(s.thr.queue.all (fun q => keepsVstart q.instr)) then 0 else f.vstart, pcfg := f.pcfg,
    bmask := s.thr.bmask, base := s.thr.bpart.base, count := s.thr.bpart.count, level := s.level, bankva := s.thr.bankva }

/-- What a vector-side instruction runs with: captured operands, executing banks (logical, stack x 256 + physical), length in bytes. -/
structure VEnv where
  ctx : VCtx
  banks : List (Nat × Nat)
  instr : Instr
  len : Nat
  deriving DecidableEq, Repr

def VEnv.vl (e : VEnv) : Nat := e.ctx.vlcfg.vl.toNat
def VEnv.live (e : VEnv) : Nat := e.ctx.vlcfg.live.toNat
def VEnv.vstart (e : VEnv) : Nat := e.ctx.vstart.toNat

/-- The banks of a context: the thread's owned banks under BMASK and BPART, or a bank thread's own (16:R360, 08:R168). -/
def ctxBanks (s : State) (c : VCtx) : List (Nat × Nat) :=
  match s.cur.bank with
  | some j => [(j, s.ownBank j)]
  | none => ownedIn s.bankList c.base.toNat c.count.toNat c.bmask

/-- The environment of instruction `i`, which reads s registers `a` and `b`: captured at entry, or now where the queue is empty. -/
def State.venv (s : State) (i : Instr) (len : Nat) (a b : Fin 64) : VEnv :=
  let c := match s.vrun, s.thr.queue with
    | true, e :: _ => e.ctx
    | _, _ => captureCtx s a b
  ⟨c, ctxBanks s c, i, len⟩

/-- BANKVA as the running instruction has it: captured where it was queued (15:R351, 16:R363). -/
def State.bankva (s : State) : BitVec 25 :=
  match s.vrun, s.thr.queue with
  | true, e :: _ => e.ctx.bankva
  | _, _ => s.thr.bankva

/-- Counts a vector-side instruction in every bank it executed in (21:R458). -/
def countBanks (s : State) (banks : List (Nat × Nat)) : State :=
  banks.foldl (fun acc p => acc.setBank p.2 { acc.bank p.2 with count := (acc.bank p.2).count + 1 }) s

/-- Sets VSTART. -/
def State.setVstart (s : State) (n : Nat) : State := s.setFront { s.front with vstart := BitVec.ofNat 15 n }

/-- Completes a vector-side instruction: VSTART is 0, the queue gives up its head or the pc moves on (16:R363, 20:R434). -/
def vcomplete (e : VEnv) (s : State) : State :=
  let s := s.setVstart 0
  let s := countBanks (s.setFront s.front.going) e.banks
  if s.vrun then { s with thr := { s.thr with queue := s.thr.queue.drop 1 }, vrun := false }.retire else complete e.len s

def vdone (e : VEnv) (s : State) : Out := .next (vcomplete e s)

/-- An instruction of a control thread that does not complete stays, or becomes, the head of the queue, with the progress that VSTART holds and the
element it has lost (13:R296, 16:R365). A bank thread stays at its instruction. -/
def holdHead (e : VEnv) (s : State) : State :=
  match s.cur.bank with
  | some _ => s
  | none =>
    if s.vrun then
      { s with thr := { s.thr with queue := match s.thr.queue with
          | q :: r => { q with ctx := { e.ctx with vstart := s.front.vstart }, lost := s.front.lost } :: r
          | [] => [] } }
    else
      { s with thr := { s.thr with queue := [⟨s.front.pc, e.instr, { e.ctx with vstart := s.front.vstart }, none, s.front.lost, none⟩],
                                   front := s.front.fallTo (s.front.pc + BitVec.ofNat 64 e.len) } }

/-- The units after which the hard pre-emption that is due stops the running vector-side instruction (16:R365); at least one where the
instruction has been resumed (R371). -/
def State.stopAfter (s : State) : Option Nat :=
  match s.cut with
  | some n => if s.thr.hardReq && s.thr.handlers.isEmpty && s.canSave s.tid then some (if s.front.owed then max n 1 else n) else none
  | none => none

/-- The hard pre-emption stops the running vector-side instruction, whose progress the caller has set (16:R365, 20:R438, R439). -/
def stopVector (e : VEnv) (s : State) : Out := .next (preempt { holdHead e s with vrun := false, cut := none } s.tid true false none)

/-! ### Traps -/

/-- The flags and the poison loss that a thread and its banks have gathered (16:R369). -/
def threadGathered (s : State) (tid : Nat) : BitVec 5 × Bool :=
  (ownedBy s (tid / 40) (tid % 40)).foldl (fun acc p => (acc.1 ||| (s.bank p.2).flags, acc.2 || (s.bank p.2).ploss))
    ((s.thread tid).flags, (s.thread tid).ploss)

/-- A double trap (20:R437): the task is saved hard with the second cause and value, its launch ends TRAPPED, the state kept for the host. It waits
while a bank of the task has no free save slot (DESIGN CHOICE, log 111). -/
def doubleTrap (s : State) (cause : BitVec 8) (val : Word) : State :=
  match s.thr.task with
  | none => s
  | some i =>
    if !s.canSave s.tid then s
    else
      let g := threadGathered (flushPosted (landAll s s.tid) s.tid) s.tid
      let s := preempt s s.tid true true (some (cause, val))
      let s := countTask s i.id false lsTrapped g.1 g.2
      closeLaunch s i.id.stack i.id.launch

/-- Trap entry (20:R435) on the running control thread: cause, value, address; VEC, BT, BANK and BPC say where it arose. -/
def enterTrap (s : State) (cause : BitVec 8) (val addr : Word) (vec bt : Bool) (bank bpc : Nat) : State :=
  let t := s.thr
  if t.tr.busy then doubleTrap s cause val
  else
    let tr := { t.tr with cause := cause, val := val, pc := BitVec.ofNat 50 (addr.toNat / 4), busy := true, ppl := t.level, vec := vec,
                          bt := bt, bank := BitVec.ofNat 8 bank, bpc := BitVec.ofNat 15 bpc }
    { s with thr := { t with tr := tr, level := .supervisor, drain := false, cond := .running,
                             handlers := (if t.cond = .splitWait then some t.front.pc else none) :: t.handlers,
                             front := { t.front with pc := BitVec.ofNat 64 (t.tr.handler.toNat * 4) } },
             cur := { s.cur with bank := none }, vrun := false }

/-- A bank thread counts as arrived at barrier `n` (17:R379). -/
def arrived (b : BankThread) (n : Nat) : Bool :=
  decide (n ≤ b.barb) || (match b.status with | .joined => true | .stopped _ => true | _ => false)

/-- Releases every bank thread whose barrier every other one has reached (17:R379). -/
def releaseBarrier (s : State) : State :=
  let l := s.thr.bts
  let free (p : Nat × BankThread) : Bool :=
    decide (p.2.status = .atBarrier) && l.all (fun q => decide (q.1 = p.1) || arrived q.2 p.2.barb)
  { s with thr := { s.thr with bts := l.map (fun p =>
      if free p then (p.1, { p.2 with status := .running, front := (p.2.front.fallTo (p.2.front.pc + 4)).retire }) else p) } }

/-- A bank thread stops on a trap, which its control thread takes at SPLIT (16:R367); it counts as arrived at every barrier, with its posted elements
acknowledged (17:R379). -/
def stopBank (s : State) (j : Nat) (t : TrapInfo) : State :=
  let s := flushBank s s.tid (s.ownBank j)
  releaseBarrier (s.setBt j { s.bt j with status := .stopped t })

/-- A trap of a scalar-side instruction (16:R366): after the older vector-side instructions. With `next`, TRAPPC takes the address of the
instruction that would issue next. `n` is the instruction's length. -/
def trapScalar (t : TrapInfo) (n : Nat) (s : State) : Out :=
  match s.cur.bank with
  | some j => .next (stopBank s j t)
  | none =>
    if s.mustDrain then drainWait s
    else if t.next then
      let s := s.setFront (s.front.fallTo (s.front.pc + BitVec.ofNat 64 n))
      .next (enterTrap s t.cause t.val s.front.pc false false 0 0)
    else .next (enterTrap s t.cause t.val s.front.pc false false 0 0)

/-- A synchronous scalar-side trap at the instruction. -/
def trap (cause : BitVec 8) (val : Word) (s : State) : Out := trapScalar ⟨cause, val, false, false⟩ 4 s

/-- The illegal-instruction cause (02:R35): TRAPVAL holds the instruction. -/
def illegal (i : Instr) (s : State) : Out := trap cIllegal (BitVec.ofNat 64 (encode i)) s

/-- The privilege-violation cause (00:R4, 02:R35). -/
def privViolation (i : Instr) (s : State) : Out := trap cPriv (BitVec.ofNat 64 (encode i)) s

/-- Enters a vector-side trap: the instructions not completed form the resume list, the scalar pc is held, TRAPPC names the first (16:R365,
20:R435). -/
def enterVector (t : TrapInfo) (s : State) : State :=
  if s.thr.tr.busy then doubleTrap { s with vrun := false } t.cause t.val
  else
    let held := s.thr.queue
    let addr := match held with | q :: _ => q.addr | [] => s.front.pc
    let s := { s with thr := { s.thr with queue := [], resume := held, heldPc := s.front.pc, front := { s.thr.front with lost := none } } }
    enterTrap s t.cause t.val addr true false 0 0

/-- A trap of a vector-side instruction (16:R365, 20:R435). The caller has set VSTART, VPOISON and SPROG to the progress. -/
def trapVector (e : VEnv) (t : TrapInfo) (s : State) : Out :=
  let s := s.setFront s.front.going
  match s.cur.bank with
  | some j => .next (stopBank s j t)
  | none => .next (enterVector t (holdHead e s))

/-- A trap that a vector-side instruction raises after it has completed (13:R296): TRAPPC holds the next instruction. -/
def trapAfter (e : VEnv) (t : TrapInfo) (s : State) : Out :=
  let s := vcomplete e s
  match s.cur.bank with
  | some j => .next (stopBank s j t)
  | none => .next (enterVector t s)

/-- A stopped instruction of a bank thread carries progress. -/
def Front.underway (f : Front) : Bool := decide (f.vstart ≠ 0) || f.sprog.active

/-- The first held entry with the progress registers stored into it (20:R436). -/
def QEntry.store (q : QEntry) (f : Front) : QEntry :=
  { q with ctx := { q.ctx with vstart := f.vstart }, prog := some ⟨f.vpoison, f.sprog⟩ }

/-- The bank thread whose trap the handler ends: TRAPSTAT names it, and it is stopped (16:R367, 20:R436). -/
def Thread.trapped (t : Thread) : Option BankThread :=
  if t.tr.bt then (mapGet t.bts t.tr.bank.toNat).filter (fun b => match b.status with | .stopped _ => true | _ => false) else none

/-- Return from a trap (20:R436): level and pc, the resume list re-enters the queue with the progress registers, a trapped bank thread restarts.
A handler that interrupted SPLIT returns to it. -/
def returnTrap (s : State) : State :=
  let t := s.thr
  let back : List QEntry := match t.resume with
    | [] => []
    | e :: r => e.store t.front :: r
  let pc := if t.resume.isEmpty then BitVec.ofNat 64 (t.tr.pc.toNat * 4) else t.heldPc
  let split := t.trapped.isSome || decide (t.handlers.headD none = some pc)
  let s := { s with thr := { t with queue := t.queue ++ back, resume := [], level := t.tr.ppl, tr := { t.tr with busy := false },
                                    front := { t.front with pc := pc, owed := !back.isEmpty }, handlers := t.handlers.drop 1,
                                    cond := if split then .splitWait else .running } }
  match t.trapped with
  | some b =>
    (s.setBt t.tr.bank.toNat
      { b with status := .running, front := { b.front with pc := BitVec.ofNat 64 t.tr.bpc.toNat, owed := b.front.underway } }).retire
  | none => s.retire

/-! ### Residues -/

/-- The kinds of residue check (15:R355). -/
def rkAddr : Nat := 0
def rkData : Nat := 1
def rkReg : Nat := 2

/-- The address of an access, ra + imm, passes the address check of ra's carried residue (15:R355). -/
def addrResOk (a : SReg) (imm : Word) : Bool :=
  let sum := a.val + imm
  let c := if a.val.toNat + imm.toNat < 2 ^ 64 then 0 else 1
  decide (a.res ≠ 15) && decide ((a.res.toNat + (rho imm).toNat + 15 - c) % 15 = (rho sum).toNat)

/-- A value passes the data check of its carried residue (15:R355). -/
def dataResOk (a : SReg) : Bool := decide (a.res ≠ 15) && decide (a.res = rho a.val)

/-- TRAPVAL of a residue mismatch (15:R356). -/
def residueVal (reg kind bank : Nat) : Word := BitVec.ofNat 64 (reg + kind * 64 + bank * 256)

/-- Logs a residue mismatch and, at the third within 2^20 instructions of the front end, FE-SUSPECT (21:R454). `bank` names the bank of an
x register. -/
def logResidue (s : State) (reg kind : Nat) (bank : Option Nat) : State :=
  let st := s.cur.st
  let fe := feOf s.cur.th
  let task := match s.thr.task with | some i => i.id.num | none => 0xFFFFFFFF
  let s := logErr s st 1 unitResidue ((bank.map (fun b => b % 256)).getD 0xFFFF) fe 0 task (reg + kind * 64)
  let now := mapGetD s.feCount (st * 20 + fe) 0
  let k := s.stack st
  let miss := (fe, now) :: k.residueMiss.filter (fun m => decide (m.1 ≠ fe ∨ now < m.2 + 2 ^ 20))
  let s := s.setStack st { k with residueMiss := miss }
  if (miss.filter (fun m => m.1 == fe)).length < 3 then s else logErr s st 2 unitResidue 0xFFFF fe 0 task 0x00020000

/-- The residue-mismatch trap of a scalar-side instruction (15:R356): nothing else changes. -/
def trapResidue (reg : Fin 64) (kind : Nat) (s : State) : Out :=
  if s.mustDrain then drainWait s
  else
    match s.cur.bank with
    | none => trap cResidue (residueVal reg.val kind 0) (logResidue s reg.val kind none)
    | some j => trap cResidue (residueVal (xOf reg).val kind 0) (logResidue s (xOf reg).val kind (some (s.ownBank j)))

end Sys2Proof.Machine
end

