-- ==== Sys2Proof/Machine/Record.lean ====
section
/-!
DEFINITION. The front-end record of a saved task as it lies in its save sector, and what a restore takes from it once the host has written there
(20:R443, R444). The spec gives header, directory and what each section holds; the order inside the sections is the model's (DESIGN CHOICE,
log 21).
-/

namespace Sys2Proof.Machine

/-! ### Sections -/

/-- Values packed into words, `n` to a word of `8 * n` bits. -/
def packWords (n w : Nat) (l : List Nat) : List Word :=
  (List.range ((l.length + n - 1) / n)).map (fun i =>
    joinWord (enumFrom 0 ((l.drop (n * i)).take n) |>.map (fun p => (p.2 % 2 ^ w, w * p.1))))

/-- Section 1: s0-s63, their residues a byte each, the shadow s48-s63, its residues. -/
def sectionRegs (t : Thread) : List Word :=
  let part (l : List SReg) : List Word := l.map (fun r => r.val) ++ packWords 8 8 (l.map (fun r => r.res.toNat))
  part t.sregs.toList ++ part t.shadow.toList

/-- The control registers that carry per-thread state, as (creg, value) (15:R350). -/
def Thread.cregs (t : Thread) : List (Nat × Word) :=
  let f := t.front
  [(0x000, f.vlcfg.word), (0x001, f.vstart.zeroExtend 64), (0x002, f.vpoison.word), (0x003, t.flags.zeroExtend 64), (0x004, f.rmode.word),
   (0x005, t.srseed.zeroExtend 64), (0x006, f.pcfg.word), (0x007, f.sprog.word), (0x008, t.bmask), (0x009, t.bpart.word),
   (0x00A, BitVec.ofNat 64 (b2n f.verify))] ++
  (enumFrom 0x010 f.loops.toList).map (fun p => (p.1, p.2.word)) ++ (enumFrom 0x014 f.loops.toList).map (fun p => (p.1, p.2.baseWord)) ++
  [(0x020, t.ui.vecWord), (0x021, t.ui.statWord), (0x033, joinWord [(t.bankva.toNat, 27)]), (0x034, joinWord [(t.scrbase.toNat, 22)]),
   (0x040, t.cycle), (0x041, f.instret), (0x080, t.tr.cause.zeroExtend 64), (0x081, joinWord [(t.tr.pc.toNat, 2)]), (0x082, t.tr.val),
   (0x083, trapstat t), (0x084, joinWord [(t.tr.handler.toNat, 2)]), (0x085, t.tr.sscratch)] ++
  enumFrom 0x100 f.stalls.toList

/-- Section 2: pairs of creg and value. -/
def sectionCregs (t : Thread) : List Word := t.cregs.flatMap (fun p => [BitVec.ofNat 64 p.1, p.2])

/-- An entry's captured fields that fit one word: VSTART, PCFG, BASE, COUNT, level, the low 15 bits of BANKVA's field. -/
def VCtx.small (c : VCtx) : Word :=
  joinWord [(c.vstart.toNat, 0), (c.pcfg.word.toNat, 16), (c.base.toNat, 32), (c.count.toNat, 40), (b2n (decide (c.level = .supervisor)), 48),
    (c.bankva.toNat % 2 ^ 15, 49)]

/-- The words of an entry's instruction: of a complement pair, I's and then J's (02:R42). -/
def instrWords : Instr → Nat
  | .complementPair i j => encode i + encode j * 2 ^ (8 * i.len)
  | i => encode i

/-- The 64 bytes of an entry: address, words, captured operands. VLCFG's word takes the high 10 bits of BANKVA's field above its own. -/
def QEntry.record (q : QEntry) : List Word :=
  let w := q.words.getD (instrWords q.instr)
  [q.addr, BitVec.ofNat 64 w, BitVec.ofNat 64 (w / 2 ^ 64), q.ctx.sa, q.ctx.sb,
   joinWord [(q.ctx.vlcfg.word.toNat, 0), (q.ctx.bankva.toNat / 2 ^ 15, 47)], q.ctx.bmask, q.ctx.small]

/-- Section 3: scalar pc, the scalar pc that a handler's trap holds, how many entries the vector side had left and how many that trap holds, and
the entries of both. -/
def sectionList (t : Thread) : List Word :=
  [t.front.pc, t.heldPc, BitVec.ofNat 64 t.queue.length, BitVec.ofNat 64 t.resume.length] ++ (t.queue ++ t.resume).flatMap (fun q => q.record)

/-- Section 4: the physical bank and the slot of each owned bank. -/
def sectionMap (map : List (Nat × Nat)) : List Word := map.map (fun p => joinWord [(p.1 % 256, 0), (p.2, 32)])

/-- Section 5: the result FIFOs, each its length and 16 words. -/
def sectionFifos (t : Thread) : List Word :=
  t.results.toList.flatMap (fun l => BitVec.ofNat 64 l.length :: (List.range 16).map (fun i => (l[i]?).getD 0))

/-- The header of a front-end record (20:R443). A double trap's cause takes the top byte beside the low 56 bits of its value (DESIGN CHOICE, log
21). -/
def recordHeader (w : Waiting) (z : SavedTask) : List Word :=
  let flags := b2n z.hard + 2 * b2n w.double.isSome + 4 * b2n (!z.thread.bts.isEmpty) + 8 * b2n w.info.rowdep
  [joinWord [(0x45564153, 0), (1, 32)], joinWord [(Config.firmware.toNat, 0), (flags, 32)],
   joinWord [(w.info.id.num, 0), (5, 32)],
   match w.double with | some d => joinWord [(d.2.toNat % 2 ^ 56, 0), (d.1.toNat, 56)] | none => 0, 0, 0, 0, 0]

/-- The sections in the order in which they lie: registers, control registers, bank map, FIFOs, and last the list, which may be long. -/
def recordSections (z : SavedTask) : List (Nat × List Word) :=
  [(1, sectionRegs z.thread), (2, sectionCregs z.thread), (4, sectionMap z.map), (5, sectionFifos z.thread), (3, sectionList z.thread)]

/-- The directory of sections that follow from byte `off` on: id, a required version 1.0, offset, size (20:R443). -/
def directory : Nat → List (Nat × List Word) → List Word
  | _, [] => []
  | off, (id, l) :: t => joinWord [(id, 0), (0x8100, 16), (off, 32)] :: BitVec.ofNat 64 (8 * l.length) :: directory (off + 8 * l.length) t

/-- A front-end record, word by word (20:R443). -/
def recordWords (w : Waiting) (z : SavedTask) : List Word :=
  recordHeader w z ++ directory 144 (recordSections z) ++ (recordSections z).flatMap (fun p => p.2)

/-! ### What a restore reads -/

/-- The bytes the host wrote into a save sector (20:R443). -/
def sectorBytes (s : State) (st home : Nat) : List (Nat × Byte) := (mapGet (s.stack st).sectors home).getD []

/-- A byte of a record as it now stands. -/
def recordByte (host : List (Nat × Byte)) (words : List Word) (off : Nat) : Byte :=
  match mapGet host off with
  | some b => b
  | none => BitVec.ofNat 8 (((words[off / 8]?).getD 0).toNat / 2 ^ (8 * (off % 8)))

/-- `n` bytes of a record, little-endian. -/
def recordNum (byte : Nat → Byte) : Nat → Nat → Nat
  | _, 0 => 0
  | off, n + 1 => (byte off).toNat + 256 * recordNum byte (off + 1) n

/-- A section as its directory entry describes it. -/
structure Section where
  id : Nat
  ver : Nat
  off : Nat
  size : Nat
  deriving DecidableEq, Repr

/-- The directory of a record, as many entries as the header counts and the sector can hold. -/
def readDirectory (byte : Nat → Byte) : List Section :=
  (List.range (Nat.min (recordNum byte 20 4) 508)).map (fun i =>
    ⟨recordNum byte (64 + 16 * i) 2, recordNum byte (66 + 16 * i) 2, recordNum byte (68 + 16 * i) 4, recordNum byte (72 + 16 * i) 4⟩)

/-- A required section that this part does not know, or whose major version, bits [14:8], is higher than its own (20:R444). -/
def Section.refused (x : Section) : Bool := decide (32768 ≤ x.ver) && (decide (x.id = 0 ∨ 5 < x.id) || decide (1 < x.ver / 256 % 128))

/-- A restore refuses the record: another major version, or a section that it cannot leave out (20:R444). -/
def recordBad (byte : Nat → Byte) : Bool := decide (recordNum byte 4 2 ≠ 1) || (readDirectory byte).any Section.refused

/-- Word `i` of a section, if the section reaches that far. -/
def Section.word (byte : Nat → Byte) (x : Section) (i : Nat) : Option Word :=
  if 8 * i + 8 ≤ x.size then some (BitVec.ofNat 64 (recordNum byte (x.off + 8 * i) 8)) else none

/-- A register bank of section 1 whose values start at word `at0`; a register the section leaves out keeps its start value. -/
def readRegs {n : Nat} (byte : Nat → Byte) (x : Section) (at0 : Nat) (v : Vector SReg n) : Vector SReg n :=
  vecGen n (fun i => match x.word byte (at0 + i) with
    | some w => ⟨w, BitVec.ofNat 4 (recordNum byte (x.off + 8 * (at0 + n) + i) 1)⟩
    | none => (v.toList[i]?).getD SReg.zero)

/-- One pair of section 2; a creg that is not assigned changes nothing (20:R444). -/
def Thread.putCreg (t : Thread) (n : Nat) (v : Word) : Thread :=
  let f := t.front
  let fr (g : Front) : Thread := { t with front := g }
  let tr (g : TrapRegs) : Thread := { t with tr := g }
  if 0x100 ≤ n ∧ n < 0x140 then fr { f with stalls := f.stalls.set ((n - 0x100) % 64) v (Nat.mod_lt _ (by decide)) }
  else if 0x010 ≤ n ∧ n < 0x014 then fr { f with loops := f.loops.set (lvl4 (n - 0x10)) ((f.loops[lvl4 (n - 0x10)]).put v) }
  else if 0x014 ≤ n ∧ n < 0x018 then fr { f with loops := f.loops.set (lvl4 (n - 0x14)) ((f.loops[lvl4 (n - 0x14)]).putBase v) }
  else
    match n with
    | 0x000 => fr { f with vlcfg := if (VlCfg.ofWord v).ok then VlCfg.ofWord v else f.vlcfg }
    | 0x001 => fr { f with vstart := bits 15 v 14 0 }
    | 0x002 => fr { f with vpoison := VPoison.ofWord v }
    | 0x003 => { t with flags := bits 5 v 4 0 }
    | 0x004 => fr { f with rmode := f.rmode.put v }
    | 0x005 => { t with srseed := bits 32 v 31 0 }
    | 0x006 => fr { f with pcfg := PCfg.ofWord v }
    | 0x007 => fr { f with sprog := SProg.ofWord v }
    | 0x008 => { t with bmask := v }
    | 0x009 => { t with bpart := { t.bpart with req := bits 8 v 55 48, min := bits 8 v 39 32 } }
    | 0x00A => fr { f with verify := bitOf v 0 }
    | 0x020 => { t with ui := { t.ui with en := bitOf v 0, handler := bits 50 v 51 2 } }
    | 0x021 => { t with ui := { t.ui with epc := bits 50 v 51 2, pend0 := bitOf v 61, pend1 := bitOf v 62, active := bitOf v 63 } }
    | 0x033 => { t with bankva := bits 25 v 51 27 }
    | 0x034 => { t with scrbase := bits 30 v 51 22 }
    | 0x040 => { t with cycle := v }
    | 0x041 => fr { f with instret := v }
    | 0x080 => tr { t.tr with cause := bits 8 v 7 0 }
    | 0x081 => tr { t.tr with pc := bits 50 v 51 2 }
    | 0x082 => tr { t.tr with val := v }
    | 0x083 => tr { t.tr with busy := bitOf v 63, ppl := if bitOf v 62 then .supervisor else .user, vec := bitOf v 61, bt := bitOf v 60,
                              bank := bits 8 v 59 52, bpc := bits 15 v 14 0 }
    | 0x084 => tr { t.tr with handler := bits 50 v 51 2 }
    | 0x085 => tr { t.tr with sscratch := v }
    | _ => t

/-- The pairs of section 2, in order. -/
def readCregs (byte : Nat → Byte) (x : Section) (t : Thread) : Thread :=
  (List.range (x.size / 16)).foldl (fun t i => match x.word byte (2 * i), x.word byte (2 * i + 1) with
    | some n, some v => t.putCreg n.toNat v
    | _, _ => t) t

/-- Entry `i` of section 3; `old` is the entry as it was saved. Words that the host changed are decoded when the entry runs. -/
def readEntry (byte : Nat → Byte) (x : Section) (i : Nat) (old : Option QEntry) : Option QEntry :=
  let w (k : Nat) : Word := (x.word byte (4 + 8 * i + k)).getD 0
  if x.size < 32 + 64 * (i + 1) then none
  else
    let words := (w 1).toNat + (w 2).toNat * 2 ^ 64
    let instr := (old.map (fun q => q.instr)).getD .bsync
    let same := match old with | some q => decide (q.words.getD (instrWords q.instr) = words) | none => false
    some { addr := w 0, instr := instr, prog := if same then old.bind (fun q => q.prog) else none,
           lost := if same then old.bind (fun q => q.lost) else none,
           words := if same then old.bind (fun q => q.words) else some words
           ctx := { sa := w 3, sb := w 4, vlcfg := VlCfg.ofWord (w 5), bmask := w 6, vstart := bits 15 (w 7) 14 0,
                    pcfg := PCfg.ofWord (BitVec.ofNat 64 (fieldOf (w 7) 28 16)), base := bits 8 (w 7) 39 32, count := bits 8 (w 7) 47 40,
                    bankva := BitVec.ofNat 25 (fieldOf (w 7) 63 49 + fieldOf (w 5) 56 47 * 2 ^ 15),
                    level := if bitOf (w 7) 48 then .supervisor else .user } }

/-- Section 3: the scalar pcs, which hold bits [51:2] as TRAPPC does, and the two lists, of at most 64 entries each. -/
def readList (byte : Nat → Byte) (x : Section) (t : Thread) : Thread :=
  let w (k : Nat) : Nat := ((x.word byte k).getD 0).toNat
  let was := t.queue ++ t.resume
  let nq := Nat.min (w 2) 64
  let entry (i : Nat) : Option QEntry := readEntry byte x i was[i]?
  let pc (k : Nat) : Word := BitVec.ofNat 64 (w k % 2 ^ 52 / 4 * 4)
  { t with front := { t.front with pc := pc 0 }, heldPc := pc 1,
           queue := (List.range nq).filterMap entry, resume := (List.range (Nat.min (w 3) 64)).filterMap (fun i => entry (nq + i)) }

/-- Section 4. -/
def readMap (byte : Nat → Byte) (x : Section) (st : Nat) : List (Nat × Nat) :=
  (List.range (Nat.min (x.size / 8) 64)).filterMap (fun i => (x.word byte i).map (fun v => (st * 256 + fieldOf v 7 0, fieldOf v 63 32)))

/-- Section 5. -/
def readFifos (byte : Nat → Byte) (x : Section) (t : Thread) : Thread :=
  let fifo (n : Nat) : List Word :=
    (List.range (Nat.min ((x.word byte (17 * n)).getD 0).toNat 16)).filterMap (fun i => x.word byte (17 * n + 1 + i))
  { t with results := vecGen 2 fifo }

/-- What a restore takes from a record (20:R443, R444): the sections it knows, of whatever minor version; registers that the record leaves out have
the values of `start`. What no section holds stays as it was saved. -/
def readRecord (byte : Nat → Byte) (st : Nat) (start : Thread) (z : SavedTask) : SavedTask :=
  let blank := { z.thread with sregs := start.sregs, shadow := start.shadow, flags := 0, srseed := start.srseed, bmask := start.bmask,
                               bpart := start.bpart, front := { start.front with lost := z.thread.front.lost, owed := z.thread.front.owed },
                               tr := start.tr, ui := start.ui, cycle := 0, results := start.results }
  (readDirectory byte).foldl (fun z x => match x.id with
    | 1 => { z with thread := { z.thread with sregs := readRegs byte x 0 z.thread.sregs, shadow := readRegs byte x 72 z.thread.shadow } }
    | 2 => { z with thread := readCregs byte x z.thread }
    | 3 => { z with thread := readList byte x z.thread }
    | 4 => { z with map := readMap byte x st }
    | 5 => { z with thread := readFifos byte x z.thread }
    | _ => z) { z with thread := blank }

end Sys2Proof.Machine
end

