-- ==== Sys2Proof/Machine/Sched.lean ====
section
/-!
DEFINITION. The scheduler column: launch records and acceptance, expansion, eligibility, placement, task start, restore, pre-emption requests,
gangs, columns, bindings (16:R357-R359, 17:R380, R381, 18:R397-R413, 20:R442, 01:R20-R32).
-/

namespace Sys2Proof.Machine

/-! ### Launch records -/

/-- Reads `n` words of 8 bytes at a physical address. -/
def readPhys (s : State) (pa : Nat) : Nat → State × List Word
  | 0 => (s, [])
  | n + 1 =>
    let r := physRead s pa 8 false
    let z := readPhys r.1 (pa + 8) n
    (z.1, BitVec.ofNat 64 r.2.1 :: z.2)

/-- Word `n` of a list of words. -/
def wordAt (l : List Word) (n : Nat) : Word := (l[n]?).getD 0

/-- The context-table entry of a context (18:R402). -/
def ctxEntry (s : State) (st : Nat) (ctx : BitVec 8) : State × List Word :=
  readPhys s ((s.stack st).ctxbase.toNat + 256 * ctx.toNat) 22

/-- The launch record that 20 words hold (17:R380); none when a reserved bit is set or PRIO exceeds 7. -/
def parseRecord (w : List Word) (ctx : BitVec 8) (root : Word) : Option LaunchRec :=
  let h := wordAt w 3
  if fieldOf h 63 16 ≠ 0 ∨ fieldOf h 15 9 ≠ 0 ∨ fieldOf h 7 0 > 7 then none
  else some { kernel := wordAt w 0, cword := wordAt w 1, dep := wordAt w 2, prio := fieldOf h 7 0, gang := bitOf h 8,
              args := vecGen 16 (fun i => wordAt w (4 + i)), ctx := ctx, root := root }

/-- The registered descriptor of a kernel handle (17:R380, 22:R466). -/
def State.kernel (s : State) (root handle : Word) : Option Kernel :=
  s.kernels.find? (fun k => decide (k.root = root ∧ k.handle = handle))

/-- The record checks of 17:R381: the record when it passes. -/
def checkRecord (s : State) (st : Nat) (w : List Word) (ctx : BitVec 8) (root : Word) : State × Option LaunchRec :=
  match parseRecord w ctx root with
  | none => (s, none)
  | some r =>
    if r.cword = 0 ∨ r.cword.toNat % 8 ≠ 0 ∨ r.dep.toNat % 8 ≠ 0 ∨ (s.kernel root r.kernel).isNone then (s, none)
    else
      let a := unitAddr s st root .supervisor r.cword.toNat 8 ⟨false, true, false⟩
      (a.1, if a.2.isSome then some r else none)

/-- A device LAUNCH of a copied record (17:R381, 18:R412): 1 ACCEPTED, 2 QFULL, 3 BADREC. -/
def acceptDevice (s : State) (st : Nat) (w : List Word) (ctx : BitVec 8) (root : Word) : State × Word :=
  match checkRecord s st w ctx root with
  | (s, none) => (s, 3)
  | (s, some r) =>
    let k := s.stack st
    if colStopped k 0 || colStopped k 1 || decide (64 ≤ k.devq.length) then (s, 2)
    else (s.setStack st { k with devq := k.devq ++ [r], journal := true }, 1)

/-! ### Expansion -/

/-- The count of a spatial loop kind (16:R357): constant, or an argument word; `dflt` when the entry is absent. -/
def loopCount (k : Kernel) (r : LaunchRec) (kind dflt : Nat) : Nat :=
  match k.loops.find? (fun e => e.1 == kind) with
  | none => dflt
  | some (_, src, v) => if src = 0 then v else if h : v < 16 then r.args[v].toNat else 0

/-- The stacks that are not excluded, from `s0` upward modulo 32 (18:R403). -/
def targetStacks (s : State) (s0 : Nat) : List Nat :=
  ((List.range 32).map (fun i => (s0 + i) % 32)).filter (fun n => !(s.stack n).excluded)

/-- A stack has a bound frond that can serve `need` banks (18:R403). -/
def Stack.serves (k : Stack) (need : Nat) : Bool := k.fronds.any (fun f => decide (need ≤ f.nbanks))

/-- The table entry of a launch that ends with a status before it has tasks (16:R357, R370). -/
def Launch.refused (id : Nat) (r : LaunchRec) (status : BitVec 8) : Launch :=
  { id := id, rcd := r, ns := 0, nf := 0, nb := 0, need := 0, pref := 0, entry := 0, nargs := 0, secver := 0, rowdep := false, eligible := false,
    ended := 0, finished := 0, status := status, failTask := 0, flags := 0, ploss := false, started := false, attempts := 0, failed := false,
    wordDue := false }

/-- A launch that ends at once with a status: its completion word is written (16:R357, R370). -/
def refuseLaunch (s : State) (st : Nat) (r : LaunchRec) (status : BitVec 8) : State := writeCword s st (Launch.refused 0 r status)

/-- The task information of task `num` of a launch. -/
def infoOf (l : Launch) (st num order : Nat) : TaskInfo :=
  { id := ⟨st, l.id, num⟩, ctx := l.rcd.ctx, root := l.rcd.root, prio := l.rcd.prio, age := 0, ran := 0, need := l.need, pref := l.pref,
    secver := l.secver, rowdep := l.rowdep, gang := l.rcd.gang, order := order }

/-- What task `num` of a launch starts with (16:R358, R359). -/
def freshOf (l : Launch) (num : Nat) : Fresh :=
  { rcd := l.rcd, a := num / l.nf, b := num % l.nf, total := l.ns * l.nf, nb := l.nb, entry := l.entry, nargs := l.nargs }

/-- Sends the tasks of stack index `a` to a stack (18:R403). -/
def sendTasks (s : State) (s0 : Nat) (l : Launch) (a dest : Nat) : State :=
  let k := s.stack dest
  let ws : List Waiting := (List.range l.nf).map (fun b =>
    Waiting.plain (infoOf l s0 (a * l.nf + b) k.order) (some (freshOf l (a * l.nf + b))) none)
  s.setStack dest { k with waiting := k.waiting ++ ws, order := k.order + 1, journal := true }

/-- The s registers that a task's first instruction finds (16:R359). -/
def taskRegs (f : Fresh) (num : Nat) : Vector SReg 64 :=
  let gpr : List (Nat × Word) :=
    ((List.range 16).map (fun i => (1 + i, if i < f.nargs then (f.rcd.args.toList[i]?).getD 0 else 0))) ++
    [(17, BitVec.ofNat 64 f.a), (18, BitVec.ofNat 64 f.b), (19, BitVec.ofNat 64 num), (20, BitVec.ofNat 64 f.total)]
  gpr.foldl (fun (v : Vector SReg 64) p => if h : p.1 < 64 then v.set p.1 (mkS p.2) h else v) (Vector.replicate 64 SReg.zero)

/-- Turns an accepted record into a launch-table entry and its tasks (16:R357, R358, 18:R403). -/
def expandLaunch (s : State) (st : Nat) (r : LaunchRec) : State :=
  match s.kernel r.root r.kernel with
  | none => refuseLaunch s st r lsCancelled
  | some k =>
    let ns := loopCount k r 3 1
    let nf := loopCount k r 2 1
    let nb := loopCount k r 1 k.need
    let dests := (targetStacks s st).take ns
    if 32 < ns ∨ 4096 < nf ∨ 64 < nb ∨ dests.length < ns ∨ dests.any (fun d => !(s.stack d).serves k.need) then
      refuseLaunch s st r lsLayout
    else
      let q := s.stack st
      let l : Launch := { id := q.nextLaunch, rcd := r, ns := ns, nf := nf, nb := nb, need := k.need, pref := k.pref, entry := k.entry,
                          nargs := k.nargs, secver := k.secver, rowdep := k.rowdep, eligible := decide (r.dep = 0), ended := 0,
                          finished := 0, status := 0, failTask := 0, flags := 0, ploss := false, started := false, attempts := 0,
                          failed := false, wordDue := false }
      let s := s.setStack st { q with table := q.table ++ [l], nextLaunch := q.nextLaunch + 1, journal := true }
      let s := (enumFrom 0 dests).foldl (fun acc p => sendTasks acc st l p.1 p.2) s
      closeLaunch s st l.id

/-- The launch unit expands the oldest queued device launch when the table has a free entry (17:R381, 18:R413). -/
def expandDevice (s : State) (st : Nat) : State :=
  let k := s.stack st
  match k.devq with
  | [] => s
  | r :: rest =>
    if colStopped k 0 || decide (256 ≤ k.table.length) then s
    else expandLaunch (s.setStack st { k with devq := rest }) st r

/-- The launch unit reads the entry at HEAD of a host queue (18:R401, R413, 24:R494). It waits while the entry's address is unpopulated, as a
ring in the host window is without the host link (DESIGN CHOICE, log 118). -/
def readHostEntry (s : State) (st : Nat) (q : Fin 16) : State :=
  let k := s.stack st
  let h := k.hostq[q]
  let size := fieldOf h.cfg 12 0
  if !s.boot.ready || colStopped k 0 || !bitOf h.cfg 63 || decide (size = 0) || decide (256 ≤ k.table.length) ||
     decide (h.head.toNat = fieldOf h.tail 31 0) || k.excluded ||
     !(List.range 20).all (fun i => populatedN s (h.base.toNat + 256 * (h.head.toNat % size) + 8 * i) 8) then s
  else
    let ctx := BitVec.ofNat 8 (fieldOf h.cfg 23 16)
    let w := readPhys s (h.base.toNat + 256 * (h.head.toNat % size)) 20
    let e := ctxEntry w.1 st ctx
    match checkRecord e.1 st w.2 ctx (wordAt e.2 0) with
    | (s, none) =>
      let k := s.stack st
      s.setStack st { k with hostq := k.hostq.set q { h with head := h.head + 1, rejected := h.rejected + 1 } }
    | (s, some r) =>
      let k := s.stack st
      expandLaunch (s.setStack st { k with hostq := k.hostq.set q { h with head := h.head + 1 } }) st r

/-- One read of a launch's DEPWORD (18:R404). -/
def readDepword (s : State) (st id : Nat) : State :=
  match s.getLaunch st id with
  | none => s
  | some l =>
    if l.eligible || colStopped (s.stack st) 0 then s
    else
      match unitRead s st l.rcd.root .supervisor l.rcd.dep.toNat 8 with
      | (s, none) => endLaunch s st id lsCancelled 0
      | (s, some v) => if v.1 = 0 then s else s.setLaunch st { l with eligible := true }

/-! ### Placement -/

/-- A waiting task may be placed: its launch is eligible and it is not held (18:R404, R408). -/
def placeable (s : State) (w : Waiting) : Bool :=
  !w.hold &&
  match s.getLaunch w.info.id.stack w.info.id.launch with
  | some l => l.eligible && !l.failed
  | none => w.saved.isSome

/-- Time passes for the tasks of a stack: waiting tasks age and running ones run by a free number of scyc (18:R405, R407; log 6). A gang member that has
not started does not run. -/
def passTime (s : State) (st : Nat) : State :=
  let d := s.draw
  let dt := (Config.elapsed d.1).toNat
  let s := d.2
  let k := s.stack st
  let s := s.setStack st { k with waiting := k.waiting.map (fun w =>
    if placeable s w then { w with info := { w.info with age := w.info.age + dt } } else w) }
  (List.range 40).foldl (fun acc th =>
    let t := acc.thread (tidOf st th)
    match t.task with
    | some i => if t.cond.isReady then acc else acc.setThread (tidOf st th) { t with task := some { i with ran := i.ran + dt } }
    | none => acc) s

/-- The effective priority E (18:R405). -/
def effPrio (k : Stack) (w : Waiting) : Nat := Nat.min 7 (w.info.prio + w.info.age / 2 ^ k.ageshift.toNat)

/-- The order in which the scheduler tries tasks: descending E, then order of acceptance (18:R405). -/
def before (k : Stack) (x y : Waiting) : Bool :=
  decide (effPrio k y < effPrio k x) || (decide (effPrio k x = effPrio k y) && decide (x.info.order ≤ y.info.order))

/-- Inserts a waiting task in that order. -/
def insertBy (k : Stack) (w : Waiting) : List Waiting → List Waiting
  | [] => [w]
  | h :: t => if before k h w then h :: insertBy k w t else w :: h :: t

/-- The placeable tasks of a stack in the scheduler's order. -/
def placeOrder (s : State) (st : Nat) : List Waiting :=
  let k := s.stack st
  (k.waiting.filter (placeable s)).foldl (fun l w => insertBy k w l) []

/-- The other control thread of a front end. -/
def otherTh (th : Nat) : Nat := if th % 2 = 0 then th + 1 else th - 1

/-- The logical bank `j` is owned by a task of the frond. -/
def ownedAt (t : Thread) (j : Nat) : Bool :=
  t.task.isSome && decide (t.bpart.base.toNat ≤ j ∧ j < t.bpart.base.toNat + t.bpart.count.toNat)

/-- How many banks from a thread's end of the frond are free and have a free save slot (18:R406, 20:R441). -/
def freeRun (s : State) (st th : Nat) : Nat :=
  let banks := banksOf s st (feOf th)
  let n := banks.length
  let o := s.thread (tidOf st (otherTh th))
  let ok (p : Nat × Nat) : Bool := !ownedAt o p.1 && ((s.bank p.2).freeSlot).isSome && !(s.bank p.2).moving
  let l := enumFrom 0 banks
  let l := if th % 2 = 0 then l else l.reverse
  if n = 0 then 0 else (l.takeWhile ok).length

/-- A thread can take a task at all: a bound frond on a front end that works, unparked, no task, the launch unit, the scheduler and a walker running,
no other member's reservation (01:R32, 18:R400, R406, R408, R412, 19:R423). -/
def threadFree (s : State) (st th : Nat) (w : Waiting) : Bool :=
  let k := s.stack st
  (k.frond (feOf th)).isSome && !frontDown s st th && !k.park.getLsbD th &&
  (s.thread (tidOf st th)).task.isNone && !k.excluded &&
  (k.waiting.all (fun x => decide (x.info.id = w.info.id) || decide (x.reserved ≠ some th)))

/-- The launch of a task, if it has not ended. -/
def TaskId.launchIn (i : TaskId) (s : State) : Option Launch := s.getLaunch i.stack i.launch

/-- A restore refuses the record as the host has left it (20:R444). -/
def recordRefused (s : State) (st : Nat) (w : Waiting) (z : SavedTask) : Bool :=
  let host := sectorBytes s st (homeSector z.map)
  !host.isEmpty && recordBad (recordByte host (recordWords w z))

/-- A saved task's banks follow one another in a frond, in order, from a bank that puts them at a thread's end: the lowest logical bank
(18:R406). -/
def mapBase (s : State) (st th : Nat) (z : SavedTask) : Option Nat :=
  let banks := banksOf s st (feOf th)
  match z.map with
  | [] => none
  | p :: _ =>
    match banks.findIdx? (fun b => b == p.1) with
    | none => none
    | some base =>
      let k := z.map.length
      if decide ((banks.drop base).take k = z.map.map (fun q => q.1)) && (if th % 2 = 0 then decide (base = 0) else decide (base + k = banks.length))
      then some base else none

/-- What a register that a record omits holds (16:R359, 20:R444): a task start's values, with BMASK over the banks from `base` on. -/
def omitted (s : State) (st : Nat) (w : Waiting) (z : SavedTask) (base : Nat) : Thread :=
  let c := (ctxEntry s st w.info.ctx).2
  let b8 (x : Nat) : BitVec 8 := BitVec.ofNat 8 x
  let l := w.info.id.launchIn s
  let nb := match l with | some l => l.nb | none => w.info.need
  { Thread.reset with
    sregs := (l.map (fun l => taskRegs (freshOf l w.info.id.num) w.info.id.num)).getD (Vector.replicate 64 SReg.zero)
    front := { Front.reset with pc := (l.map (fun l => l.entry)).getD 0, verify := bitOf (wordAt c 3) 0 }
    bpart := ⟨b8 z.map.length, b8 w.info.need, b8 z.map.length, b8 base⟩
    bmask := BitVec.ofNat 64 ((2 ^ nb - 1) * 2 ^ base)
    tr := { TrapRegs.reset with handler := BitVec.ofNat 50 (fieldOf (wordAt c 20) 51 2), sscratch := wordAt c 21 } }

/-- What a saved task consists of, with what the host has written into its record (20:R443, R444). -/
def savedNow (s : State) (st th : Nat) (w : Waiting) (z : SavedTask) : SavedTask :=
  let host := sectorBytes s st (homeSector z.map)
  if host.isEmpty then z
  else
    let read (base : Nat) : SavedTask := readRecord (recordByte host (recordWords w z)) st (omitted s st w z base) z
    read ((mapBase s st th (read 0)).getD 0)

/-- Where a saved task goes in a thread's frond: its banks lie at the thread's end and are free (18:R406). -/
def restoreBase (s : State) (st th : Nat) (z : SavedTask) : Option Nat :=
  let o := s.thread (tidOf st (otherTh th))
  match mapBase s st th z with
  | none => none
  | some base =>
    if (List.range z.map.length).all (fun i => !ownedAt o (base + i)) && z.map.all (fun q => !(s.bank q.1).moving) then some base else none

/-- A thread can take a waiting task (18:R406). -/
def canTake (s : State) (st th : Nat) (w : Waiting) : Bool :=
  threadFree s st th w && (match w.reserved with | some r => decide (r = th) | none => true) &&
  match w.saved with
  | some z => (restoreBase s st th (savedNow s st th w z)).isSome
  | none => decide (w.info.need ≤ freeRun s st th)

/-- Seeds a bank's LFSR (07:R158). -/
def seedLfsr (seed : BitVec 32) (j : Nat) : BitVec 32 :=
  let l := seed ^^^ BitVec.ofNat 32 (j * 2 ^ 24)
  if l = 0 then 1 else l

/-- The bank state a task finds (16:R359): `rel` is the bank's number within the range. -/
def startBank (s : State) (b j rel : Nat) (seed : BitVec 32) : State :=
  let s := dropUpsets s (fun p => match p with | .latch b' _ _ => decide (b' = b) | _ => false)
  let x := s.bank b
  s.setBank b { x with w := Vector.replicate 16 WReg.reset, m := Vector.replicate 16 0, t := Vector.replicate 4 0,
                       q := Vector.replicate 4 0, x := (Vector.replicate 32 SReg.zero).set 1 (mkS (BitVec.ofNat 64 rel)),
                       flags := 0, ploss := false, lfsr := seedLfsr seed j }

/-- Writes back and invalidates every crown line of a bank (12:R270). -/
def flushLines (s : State) (b : Nat) : State :=
  ((s.bank b).lines.map (fun e => e.1)).foldl (fun acc line => dropLine acc b line true true) s

/-- Changes the partition of a bank's slice: a way taken from the cache invalidates its lines, a way given up loses its bytes (12:R270). Which lines
a way held is not kept, so a way taken from the cache invalidates every line (DEDUCED, log 7). -/
def setWaysBank (s : State) (b : Nat) (mode : BitVec 2) (ways : BitVec 4) : State :=
  let x := s.bank b
  let moved := (List.range 16).filter (fun w => scratchWay x.mode x.ways w != scratchWay mode ways w)
  let s := if moved.any (scratchWay mode ways) then flushLines s b else s
  let x := s.bank b
  let keep (way : Nat) : Bool := !moved.contains way
  let s := dropUpsets s (fun p => match p with | .scratch b' w => decide (b' = b) && !keep (w * 32 / 2 ^ 15) | _ => false)
  s.setBank b { x with mode := mode, ways := ways, scratch := x.scratch.filter (fun c => keep (c.1 / 2 ^ 15)),
                       scratchPoison := x.scratchPoison.filter (fun c => keep (c.1 * 32 / 2 ^ 15)) }

/-- Changes the way partition of a frond (12:R270, 17:R394): a valid WAYPART value. -/
def setWays (s : State) (st fe : Nat) (v : Word) : State :=
  match (s.stack st).frond fe with
  | none => s
  | some f =>
    let f' := { f with mode := BitVec.ofNat 2 (fieldOf v 5 4), ways := BitVec.ofNat 4 (if fieldOf v 5 4 = 2 then fieldOf v 3 0 else 0) }
    let s := (banksOf s st fe).foldl (fun acc b => setWaysBank acc b f'.mode f'.ways) s
    s.setStack st { s.stack st with fronds := (s.stack st).fronds.map (fun x => if x.fe = fe then f' else x) }

/-- A WAYPART value is valid (17:R394). -/
def waysOk (v : Word) : Bool :=
  decide (fieldOf v 63 6 = 0 ∧ fieldOf v 5 4 ≠ 3 ∧ (fieldOf v 5 4 ≠ 2 ∨ (1 ≤ fieldOf v 3 0 ∧ fieldOf v 3 0 ≤ 8)))

/-- A bound half-slab's sibling in its slab is bound to another frond (01:R24, R28). -/
def splitSlab (k : Stack) (f : Frond) : Bool :=
  f.halfList.any (fun h => k.fronds.any (fun g => g.fe != f.fe && g.halfList.contains (if h % 2 = 0 then h + 1 else h - 1)))

/-- DEGR, SPAREBK, SPLITC and NBANKS of a frond as its banks now stand; BINDSTAT takes them while the frond holds no task (01:R28, 21:R458). -/
def refreshFrond (s : State) (st fe : Nat) : State :=
  match (s.stack st).frond fe with
  | none => s
  | some f =>
    let banks := banksOf s st fe
    let f' := { f with degr := (banks.filter (fun b => decide (2 ≤ (s.bank b).quarantined.length))).length,
                       spareBk := banks.any (fun b => (s.bank b).spare), nbanks := banks.length, splitC := splitSlab (s.stack st) f }
    s.setStack st { s.stack st with fronds := (s.stack st).fronds.map (fun x => if x.fe = fe then f' else x) }

/-- Clears the valid bits of a thread's bank-instruction-buffer windows (16:R368). -/
def clearBib (s : State) (st th : Nat) : State :=
  let k := s.stack st
  match k.frond (feOf th) with
  | none => s
  | some f => s.setStack st { k with bib := f.halfList.foldl (fun l h => mapErase l (2 * h + th % 2)) k.bib }

/-- What the scheduler loads from the context entry of the frond's slot: BANKVA, SCRBASE, and WAYPART while the frond holds no other task
(18:R402). -/
def loadSlot (s : State) (st th : Nat) (c : List Word) (t : Thread) : State × Thread :=
  let slot := (s.stack st).slotOf (feOf th)
  let t := { t with bankva := BitVec.ofNat 25 (fieldOf (wordAt c (4 + slot)) 51 27), scrbase := BitVec.ofNat 30 (fieldOf (wordAt c 2) 51 22) }
  let s := if (s.thread (tidOf st (otherTh th))).task.isNone ∧ waysOk (wordAt c 1) then setWays s st (feOf th) (wordAt c 1) else s
  (s, t)

/-- Starts a fresh task on a thread (16:R359, 18:R402, R406). -/
def startTask (s : State) (st th : Nat) (w : Waiting) (f : Fresh) : State :=
  let s := if (s.thread (tidOf st (otherTh th))).task.isNone then refreshFrond s st (feOf th) else s
  let e := ctxEntry s st w.info.ctx
  let s := e.1
  let c := e.2
  let run := freeRun s st th
  let want := if w.info.pref < w.info.need then w.info.need else w.info.pref
  let count := if run < want then run else want
  let n := (banksOf s st (feOf th)).length
  let base := if th % 2 = 0 then 0 else n - count
  let b8 (x : Nat) : BitVec 8 := BitVec.ofNat 8 x
  let t : Thread := { Thread.reset with
    sregs := taskRegs f w.info.id.num
    front := { Front.reset with pc := f.entry, verify := bitOf (wordAt c 3) 0 }
    bpart := ⟨b8 count, b8 w.info.need, b8 count, b8 base⟩
    bmask := BitVec.ofNat 64 ((2 ^ f.nb - 1) * 2 ^ base)
    tr := { TrapRegs.reset with handler := BitVec.ofNat 50 (fieldOf (wordAt c 20) 51 2), sscratch := wordAt c 21 }
    cond := if w.info.gang then .ready false else .running
    task := some { w.info with ran := 0 } }
  let l := loadSlot s st th c t
  let s := (enumFrom base (((banksOf l.1 st (feOf th)).drop base).take count)).foldl
    (fun acc p => startBank acc p.2 p.1 (p.1 - base) 1) l.1
  clearBib (s.setThread (tidOf st th) l.2) st th

/-- Removes a waiting task. -/
def takeWaiting (s : State) (st : Nat) (w : Waiting) : State :=
  s.setStack st { s.stack st with waiting := (s.stack st).waiting.filter (fun x => decide (x.info.id ≠ w.info.id)) }

/-- Runs `f` as if the thread were the running control thread. -/
def onThread (s : State) (st th : Nat) (f : State → State) : State :=
  let c := s.cur
  let s := f (s.switchTo st th none)
  s.switchTo c.st c.th c.bank

/-- TRAPVAL of cause 0x17 (21:R463): the log entry's index, the logical bank or 0xFF, the unit. -/
def ueVal (index bank unit : Nat) : Word := BitVec.ofNat 64 (index % 2 ^ 16 * 2 ^ 32 + bank % 256 * 2 ^ 8 + unit % 256)

/-- Restores the binding of one register of a bank (20:R442): the recorded row translated and checked as ACT does (05:R110), ACT, PRE for HELD. The
flag says that it failed. -/
def restoreReg (s : State) (st slot : Nat) (root : Word) (lvl : Level) (bankva : BitVec 25) (b j : Nat) (hard : Bool) (k : Nat) (z : SavedW) :
    State × Bool :=
  let i := idx16 k
  if !z.state.bound then
    ((freshLatch s b k).setW b i { WReg.reset with tag := z.tag, latch := if hard then z.latch else 0, poison := if hard then z.poison else 0 }, false)
  else
    let va := bankva.toNat * 2 ^ 27 + j * 2 ^ 27 + k * 2 ^ 23 + z.row.toNat * 2 ^ 11
    let t := translate s ⟨st, .row b, slot⟩ root va
    let free (s : State) : State × Bool := (s.setW b i { WReg.reset with tag := z.tag }, true)
    match t.2 with
    | .fault _ => free t.1
    | .found x =>
      if x.pa va = rowAddr b k z.prow.toNat ∧ permFault x lvl ⟨true, false, false⟩ true = none then
        let s := bindRow t.1 b i z.row.toNat z.prow.toNat z.tag (x.bit 3) (some x.leafAddr)
        let s := s.setW b i { s.wreg b i with valid := true }
        (if z.state = .heldClean ∨ z.state = .heldDirty then preReg s b i else s, false)
      else free t.1

/-- Restores a bank from a slot; the answer names the first register whose binding was lost. -/
def restoreBank (s : State) (st slot : Nat) (root : Word) (lvl : Level) (bankva : BitVec 25) (b j : Nat) (z : SaveSlot) :
    State × Option (Nat × Nat) :=
  let x := s.bank b
  let s := s.setBank b { x with m := z.m, x := z.x, t := z.t, q := z.q, lfsr := z.lfsr, flags := z.flags, ploss := z.ploss }
  (enumFrom 0 z.regs.toList).foldl (fun (acc : State × Option (Nat × Nat)) p =>
    let r := restoreReg acc.1 st slot root lvl bankva b j z.hard p.1 p.2
    (r.1, if r.2 ∧ acc.2.isNone then some (p.1, p.2.row.toNat) else acc.2)) (s, none)

/-- Words of a save sector are read (21:R446-R448): an uncorrectable one is poisoned. -/
def eccSector (s : State) (st home : Nat) (sel : Nat → Bool) : State :=
  let z := eccTake s (fun p => match p with | .sector st' h w => decide (st' = st ∧ h = home) && sel w | _ => false) unitSave (st * 256 + 0xFF) 0
  if z.2.isEmpty then z.1
  else
    let k := z.1.stack st
    let bad := z.2.filterMap (fun p => match p with | .sector _ _ w => some (256 * home + w % 256) | _ => none)
    z.1.setStack st { k with sectorBad := bad.foldl (fun l n => mapSet l n 15) k.sectorBad }

/-- A word of a save sector is poisoned (21:R449). -/
def sectorPoisoned (s : State) (st home w : Nat) : Bool := decide (mapGetD (s.stack st).sectorBad (256 * home + w) 0 ≠ 0)

/-- A saved task's record and slots are read through ECC (21:R446-R450): what holds a poisoned word other than the image of a FREE latch, 0 the
front-end record, n + 1 the slot of its bank n. -/
def eccSaved (s : State) (st : Nat) (w : Waiting) (z : SavedTask) : State × Option Nat :=
  let home := homeSector z.map
  let n := (8 * (recordWords w z).length + 31) / 32
  let s := eccSector (z.map.foldl (fun acc p => eccSlot acc p.1 p.2) s) st home (fun i => decide (i < n))
  if (List.range n).any (sectorPoisoned s st home) then (s, some 0)
  else (s, (z.map.findIdx? (fun p => match (s.bank p.1).slot p.2 with | some y => y.bad | none => true)).map (fun i => i + 1))

/-- What a thread that held still does when it goes on: it waits at SPLIT, or runs. -/
def Cond.split : Cond → Bool
  | .splitWait => true
  | .ready b => b
  | _ => false

/-- A member of a gang whose start is still to come (18:R408, R410, R412). -/
def toStart (s : State) (i : TaskInfo) : Bool := i.gang && (match i.id.launchIn s with | some l => !l.started | none => false)

/-- A thread's record as it goes on after a restore: what it resumes is owed an element first (16:R371). -/
def Thread.resumed (t : Thread) : Thread :=
  { t with front := { t.front with owed := !t.queue.isEmpty }
           bts := t.bts.map (fun p => (p.1, { p.2 with front := { p.2.front with owed := p.2.front.underway } })) }

/-- The trap of a lost binding, before the task's first instruction (20:R442). -/
def takeLostBind (s : State) : State :=
  match s.thr.lostBind with
  | none => s
  | some v => enterTrap { s with thr := { s.thr with lostBind := none } } cBindLost v s.front.pc false false 0 0

/-- Keeps a saved task from being placed: it waits for the host. -/
def holdTask (s : State) (st : Nat) (id : TaskId) (double : Option (BitVec 8 × Word)) : State :=
  s.mapWaiting st (fun x => if x.info.id = id then { x with hold := true, double := if double.isSome then double else x.double } else x)

/-- Restores a saved task on a thread (20:R442). The first lost binding gives cause 0x16 before the task's next instruction; a poisoned
save word leaves the task saved with cause 0x17 recorded, for the logical bank it would have had (21:R450, R463). The windows of the bank instruction
buffers stay as they are: no record holds them (DESIGN CHOICE, log 123). -/
def restoreTask (s : State) (st th : Nat) (w : Waiting) (z : SavedTask) (base : Nat) : State :=
  let s := if (s.thread (tidOf st (otherTh th))).task.isNone then refreshFrond s st (feOf th) else s
  let c := eccSaved s st w z
  let s := c.1
  match c.2 with
  | some n =>
    let index := (s.stack st).logCount.toNat % 256
    let phys := match n with | 0 => 0xFFFF | i + 1 => ((z.map[i]?).map (fun p => p.1 % 256)).getD 0xFFFF
    let bank := match n with | 0 => 0xFF | i + 1 => base + i
    let s := logErr s st 2 unitSave phys (feOf th) 0 w.info.id.num 0
    holdTask s st w.info.id (some (cUncorrectable, ueVal index bank unitSave))
  | none =>
    let s := takeWaiting s st w
    let e := ctxEntry s st w.info.ctx
    let t0 := z.thread.resumed
    let t := { t0 with bpart := { t0.bpart with base := BitVec.ofNat 8 base, count := BitVec.ofNat 8 z.map.length },
                       task := some { w.info with ran := 0 }
                       cond := if toStart s w.info then .ready t0.cond.split else if t0.cond.isReady then .running else t0.cond }
    let l := loadSlot e.1 st th e.2 t
    let slot := (s.stack st).slotOf (feOf th)
    let r := (enumFrom base z.map).foldl (fun (acc : State × Option Word) p =>
      match (acc.1.bank p.2.1).slot p.2.2 with
      | none => acc
      | some y =>
        let q := restoreBank acc.1 st slot w.info.root z.thread.level l.2.bankva p.2.1 p.1 y
        (q.1.setBank p.2.1 ((q.1.bank p.2.1).setSlot p.2.2 none), match acc.2, q.2 with
          | none, some (k, row) => some (BitVec.ofNat 64 (p.1 + k * 2 ^ 8 + row * 2 ^ 12))
          | v, _ => v)) (l.1, none)
    let s := r.1.setThread (tidOf st th) { l.2 with lostBind := r.2 }
    if l.2.cond.isReady then s else onThread s st th takeLostBind

/-- Places a waiting task on a thread that can take it; a record that is refused is reported to the host as BADREV and the task stays saved
(20:R444). -/
def place (s : State) (st th : Nat) (w : Waiting) : State :=
  match w.saved, w.fresh with
  | some z, _ =>
    if recordRefused s st w z then
      { holdTask s st w.info.id none with replies := s.replies ++ [(0x14, BitVec.ofNat 64 w.info.id.num)] }
    else
      let z := savedNow s st th w z
      match restoreBase s st th z with
      | some base => restoreTask s st th w z base
      | none => s
  | none, some f => startTask (takeWaiting s st w) st th w f
  | none, none => s

/-- The running task of lowest PRIO below E that has run long enough and carries no request (18:R407). -/
def victim (s : State) (st e : Nat) : Option Nat :=
  let k := s.stack st
  let c := (List.range 40).filterMap (fun th =>
    let t := s.thread (tidOf st th)
    match t.task with
    | some i => if !t.cond.isReady ∧ i.prio < e ∧ 2 ^ k.ageshift.toNat ≤ i.ran ∧ !t.softReq ∧ !t.hardReq then some (th, i.prio) else none
    | none => none)
  (c.foldl (fun (acc : Option (Nat × Nat)) p => match acc with | none => some p | some q => if p.2 < q.2 then some p else some q) none).map
    (fun p => p.1)

/-- Raises a pre-emption request on a thread for a waiting task (18:R407). -/
def raiseRequest (s : State) (tid : Nat) (id : TaskId) : State :=
  let t := s.thread tid
  if t.softReq || t.hardReq then s else s.setThread tid { t with softReq := true, reqBy := some id }

/-- A waiting task has a request outstanding in its stack (18:R407). -/
def outstanding (s : State) (st : Nat) (id : TaskId) : Bool :=
  (List.range 40).any (fun th =>
    let t := s.thread (tidOf st th)
    t.task.isSome && decide (t.reqBy = some id) && (t.softReq || t.hardReq))

/-- The request of a waiting task that no thread can take (18:R407). -/
def request (s : State) (st : Nat) (w : Waiting) : State :=
  if outstanding s st w.info.id then s
  else
    match victim s st (effPrio (s.stack st) w) with
    | none => s
    | some v => raiseRequest s (tidOf st v) w.info.id

/-- The threads of a stack that can take a task. -/
def takers (s : State) (st : Nat) (w : Waiting) : List Nat := (List.range 40).filter (fun t => canTake s st t w)

/-- One round of the scheduler (18:R405-R407): every task that no thread can take may raise a request; the first in the order that one can take is
placed, on `th` if that thread can take it. A gang member that has not started needs a reservation (R408). -/
def schedule (s : State) (st th : Nat) : State :=
  let s := passTime s st
  if colStopped (s.stack st) 0 || colStopped (s.stack st) 1 then s
  else
    let order := (placeOrder s st).filter (fun w => !toStart s w.info || w.reserved.isSome)
    let tried := order.map (fun w => (w, takers s st w))
    let s := (tried.filter (fun p => p.2.isEmpty && p.1.reserved.isNone)).foldl (fun acc p => request acc st p.1) s
    match tried.find? (fun p => !p.2.isEmpty) with
    | some (w, ts) => place s st (if ts.contains th then th else ts.headD th) w
    | none => s

/-! ### Gangs -/

/-- The identifier of a gang: its accepting stack above the low 27 bits of its launch number (DESIGN CHOICE, log 8). -/
def gangId (st id : Nat) : Nat := st * 2 ^ 27 + id % 2 ^ 27

/-- The launch that a gang identifier names. -/
def gangLaunch (s : State) (g : Nat) : Option (Nat × Launch) :=
  ((s.stack (g / 2 ^ 27)).table.find? (fun l => l.rcd.gang && decide (l.id % 2 ^ 27 = g % 2 ^ 27))).map (fun l => (g / 2 ^ 27, l))

/-- A task of a launch. -/
def TaskId.ofLaunch (i : TaskId) (st id : Nat) : Bool := decide (i.stack = st ∧ i.launch = id)

/-- The waiting members of a launch, as (stack, task). -/
def waitingMembers (s : State) (st id : Nat) : List (Nat × Waiting) :=
  (List.range 32).flatMap (fun n => ((s.stack n).waiting.filter (fun w => w.info.id.ofLaunch st id)).map (fun w => (n, w)))

/-- Changes the waiting members of a launch in every stack. -/
def mapMembers (s : State) (st id : Nat) (f : Waiting → Waiting) : State :=
  { s with stks := s.stks.map (fun e => (e.1, { e.2 with waiting := e.2.waiting.map (fun w => if w.info.id.ofLaunch st id then f w else w) })) }

/-- Reserves thread `th` for a member. -/
def reserve (s : State) (st : Nat) (w : Waiting) (th : Nat) : State :=
  s.mapWaiting st (fun x => if x.info.id = w.info.id then { x with reserved := some th } else x)

/-- The threads that could serve a member once their occupant is gone: a working front end, unparked, not reserved, not held by a member that is
ready; those whose other thread leaves enough banks come first. -/
def reservable (s : State) (st : Nat) (w : Waiting) : List Nat :=
  let k := s.stack st
  let fit (th : Nat) : Bool := match w.saved with
    | some z => (mapBase s st th (savedNow s st th w z)).isSome
    | none => match k.frond (feOf th) with | some f => decide (w.info.need ≤ f.nbanks) | none => false
  let ths := (List.range 40).filter (fun th => fit th && !k.park.getLsbD th && !frontDown s st th &&
    !(s.thread (tidOf st th)).cond.isReady && k.waiting.all (fun x => decide (x.reserved ≠ some th)))
  let left (th : Nat) : Nat :=
    let o := s.thread (tidOf st (otherTh th))
    (banksOf s st (feOf th)).length - (if o.task.isSome then o.bpart.count.toNat else 0)
  ths.filter (fun th => decide (w.info.need ≤ left th)) ++ ths.filter (fun th => decide (left th < w.info.need))

/-- The gangs with a member in a stack whose start is still to come, as (order of acceptance, accepting stack, launch). -/
def gangsToStart (s : State) (n : Nat) : List (Nat × Nat × Nat) :=
  let infos := (s.stack n).waiting.map (fun w => w.info) ++ (List.range 40).filterMap (fun th => (s.thread (tidOf n th)).task)
  (infos.filter (fun i => toStart s i && (match i.id.launchIn s with | some l => l.eligible && !l.failed | none => false))).map
    (fun i => (i.order, i.id.stack, i.id.launch))

/-- The tasks of a stack whose gang start is under way there: a thread is reserved for them, or they are ready. -/
def startsIn (s : State) (n : Nat) : List TaskId :=
  ((s.stack n).waiting.filter (fun w => w.reserved.isSome)).map (fun w => w.info.id) ++
  (List.range 40).filterMap (fun th =>
    let t := s.thread (tidOf n th)
    if t.cond.isReady then t.task.map (fun i => i.id) else none)

/-- A stack serves one gang start at a time, in order of acceptance (18:R408). -/
def gangTurn (s : State) (n st id : Nat) : Bool :=
  let l := gangsToStart s n
  (startsIn s n).all (fun i => i.ofLaunch st id) &&
  match l.find? (fun p => decide (p.2 = (st, id))) with
  | some p => !(startsIn s n).isEmpty || l.all (fun q => decide (p.1 ≤ q.1))
  | none => false

/-- A gang start attempt (18:R408): each member without a thread reserves one, a free one if any can take it, else one whose occupant is then
pre-empted without the priority and minimum-run conditions. -/
def gangAttempt (s : State) (st id : Nat) : State :=
  match s.getLaunch st id with
  | none => s
  | some l =>
    if !l.rcd.gang || l.started || !l.eligible || l.failed || colStopped (s.stack st) 0 then s
    else
      (waitingMembers s st id).foldl (fun acc p =>
        if !gangTurn acc p.1 st id || p.2.reserved.isSome || p.2.hold || colStopped (acc.stack p.1) 0 || colStopped (acc.stack p.1) 1 then acc
        else
          match takers acc p.1 p.2 with
          | th :: _ => place (reserve acc p.1 p.2 th) p.1 th { p.2 with reserved := some th }
          | [] =>
            match reservable acc p.1 p.2 with
            | [] => acc
            | th :: _ =>
              let acc := reserve acc p.1 p.2 th
              if (acc.thread (tidOf p.1 th)).task.isSome then raiseRequest acc (tidOf p.1 th) p.2.info.id else acc) s

/-- A member that has started: it goes on at SPLIT or at its pc, after the trap of a binding lost meanwhile. -/
def startMember (s : State) (tid : Nat) : State :=
  let t := s.thread tid
  let s := s.setThread tid { t with cond := if t.cond.split then .splitWait else .running }
  if t.lostBind.isSome then onThread s (tid / 40) (tid % 40) takeLostBind else s

/-- The start: every member is ready, and each becomes runnable (18:R408). -/
def gangStart (s : State) (st id : Nat) : State :=
  match s.getLaunch st id with
  | none => s
  | some l =>
    let ths := s.launchThreads st id
    if l.rcd.gang && !l.started && !colStopped (s.stack st) 0 && (waitingMembers s st id).isEmpty &&
       decide (ths.length + l.finished = l.ns * l.nf) && ths.all (fun t => (s.thread t).cond.isReady) then
      (ths.foldl startMember s).setLaunch st { l with started := true }
    else s

/-- Drops the requests that members of a launch raised (18:R409). -/
def dropRequests (s : State) (st id : Nat) : State :=
  let f (t : Thread) : Thread :=
    if (match t.reqBy with | some i => i.ofLaunch st id | none => false) then { t with softReq := false, hardReq := false, reqBy := none } else t
  { s with thr := f s.thr, threads := s.threads.map (fun e => (e.1, f e.2)) }

/-- Withdraws a ready member: a task that has run nothing yet waits as a fresh one, any other is saved again (18:R409). -/
def withdraw (s : State) (l : Launch) (tid : Nat) : State :=
  let t := s.thread tid
  match t.task with
  | none => s
  | some i =>
    if t.front.instret = 0 ∧ t.queue = [] ∧ t.handlers = [] ∧ t.bts = [] then
      (releaseThread s tid).1.addWaiting (tid / 40) (Waiting.plain i (some (freshOf l i.id.num)) none)
    else preempt s tid true false none

/-- An abandoned attempt (18:R409): reservations are released, requests dropped, ready members withdrawn before running user code; after the fourth
the launch ends with START-ABANDONED and the stack reports. `failing` is the member whose frond failed, which FAILTASK names where every member is
ready (DEDUCED, log 134). -/
def gangAbandon (s : State) (st id failing : Nat) : State :=
  match s.getLaunch st id with
  | none => s
  | some l =>
    if !l.rcd.gang || l.started then s
    else
      let unready := (waitingMembers s st id).map (fun p => p.2.info.id.num)
      let ths := (s.launchThreads st id).filter (fun t => (s.thread t).cond.isReady)
      let s := dropRequests (mapMembers s st id (fun w => { w with reserved := none })) st id
      let s := ths.foldl (fun acc tid => withdraw acc l tid) s
      if l.attempts < 3 then s.setLaunch st { l with attempts := l.attempts + 1 }
      else
        let low := unready.foldl (fun m n => if n < m then n else m) (unready.headD failing)
        let l := Launch.fail { l with attempts := 4 } lsAbandoned low
        let s := (List.range 32).foldl (fun acc n => (dropWaiting acc n (fun w => w.info.id.ofLaunch st id)).1) s
        let s := s.setLaunch st { l with finished := l.ns * l.nf }
        let s := closeLaunch s st id
        logErr s st 1 unitColumn 0xFFFF 0xFFFF 0 low (gangId st id)

/-- A started gang fails (18:R410): every member is hard-pre-empted at its next boundary and kept, the launch ends with GANG-FAILED for the lowest
failing member; the report to the supervisor has the gang identifier as its TRAPVAL. -/
def gangFail (s : State) (st id task : Nat) : State :=
  match s.getLaunch st id with
  | none => s
  | some l =>
    let s := s.setLaunch st { Launch.fail l lsGang task with failed := true, wordDue := true }
    let s := (s.launchThreads st id).foldl orderStop s
    let s := failWord (mapMembers s st id (fun w => { w with hold := true })) st id
    let s := logErr s st 2 unitColumn 0xFFFF 0xFFFF 0 task (gangId st id)
    { s with replies := s.replies ++ [(0x17, BitVec.ofNat 64 (gangId st id))] }

/-- GANGACT resume: the saved gang starts again through a new start barrier, and its launch writes no word before it ends again (18:R410). -/
def gangResume (s : State) (g : Nat) : State :=
  match gangLaunch s g with
  | none => s
  | some (a, l) =>
    if !l.failed then s
    else
      (mapMembers s a l.id (fun w => { w with hold := w.counted })).setLaunch a
        { l with failed := false, started := false, status := 0, failTask := 0, attempts := 0, wordDue := false }

/-- GANGACT discard: the saved state is freed, and a member that has not stopped yet ends where it is (18:R410; DEDUCED, log 134). A word that is still
due is written. -/
def gangDiscard (s : State) (g : Nat) : State :=
  match gangLaunch s g with
  | none => s
  | some (a, l) =>
    if !l.failed then s
    else
      let s := (s.launchThreads a l.id).foldl (fun acc tid => (releaseThread acc tid).1) s
      let s := (List.range 32).foldl (fun acc n => (dropWaiting acc n (fun w => w.info.id.ofLaunch a l.id)).1) s
      match s.getLaunch a l.id with
      | none => s
      | some l =>
        if l.wordDue then closeLaunch (s.setLaunch a { l with finished := l.ns * l.nf }) a l.id
        else s.setStack a { s.stack a with table := (s.stack a).table.filter (fun x => x.id != l.id) }

/-! ### The column journal

Areas and contents as 18:R413 gives them; the order of the fields inside an entry is the model's (DESIGN CHOICE, log 21). -/

/-- A launch record's 160 bytes, as twenty words (17:R380). -/
def recWords (r : LaunchRec) : List Word :=
  [r.kernel, r.cword, r.dep, joinWord [(r.prio, 0), (b2n r.gang, 8)]] ++ r.args.toList

/-- The tasks of a launch that have not been placed yet. -/
def unplaced (s : State) (st id : Nat) : Nat := ((waitingMembers s st id).filter (fun p => p.2.fresh.isSome)).length

/-- A launch-table entry: 64 bytes. -/
def launchWords (s : State) (st : Nat) (l : Launch) : List Word :=
  [l.rcd.kernel, l.rcd.cword, l.rcd.dep,
   joinWord [(l.rcd.prio, 0), (b2n l.rcd.gang, 8), (l.ns, 16), (l.nf, 24), (l.attempts, 40), (l.status.toNat, 48), (l.flags.toNat, 56), (b2n l.ploss, 63)],
   joinWord [(l.ns * l.nf - unplaced s st l.id, 0), (l.ended, 32)], BitVec.ofNat 64 l.failTask,
   if l.rcd.gang then BitVec.ofNat 64 (gangId st l.id) else 0, 0]

/-- A task-table entry: 32 bytes. `state` is 0 running, 1 saved, 2 reserved. -/
def taskWords (s : State) (st : Nat) (i : TaskInfo) (state th slot : Nat) : List Word :=
  let index := ((s.stack i.id.stack).table.findIdx? (fun l => l.id == i.id.launch)).getD 0xFFFF
  [joinWord [(i.id.num, 0), (index, 32), (state, 48), ((s.stack st).slotOf (feOf th), 56)], joinWord [(th, 0), (slot, 8), (i.prio, 16)],
   BitVec.ofNat 64 i.age, 0]

/-- The tasks that the task table lists. -/
def journalTasks (s : State) (st : Nat) : List (List Word) :=
  (List.range 40).filterMap (fun th => (s.thread (tidOf st th)).task.map (fun i => taskWords s st i 0 th 0)) ++
  (s.stack st).waiting.filterMap (fun w => match w.reserved, w.saved with
    | some th, z => some (taskWords s st w.info 2 th ((z.bind (fun y => y.map.head?)).map (fun p => p.2) |>.getD 0))
    | none, some z => some (taskWords s st w.info 1 0 ((z.map.head?.map (fun p => p.2)).getD 0))
    | none, none => none)

/-- What the journal holds. A column that is STOPPED writes nothing (18:R411): the launch queue and the launch table stay as a stopped launch unit left
them, the task table as it stood when either column stopped (DEDUCED, log 135). -/
def journalNow (s : State) (st : Nat) : Journal :=
  let k := s.stack st
  let old := k.frozen.getD Journal.reset
  { devq := if colStopped k 0 then old.devq else k.devq.map recWords
    table := if colStopped k 0 then old.table else k.table.map (launchWords s st)
    tasks := if colStopped k 0 || colStopped k 1 then old.tasks else journalTasks s st
    seq := 0 }

/-- The journal as a reader finds it, with the number of its last write (18:R413): it has advanced if the contents have changed since they were last
read, and by a free number of further writes, which only a working column makes (log 135). -/
def journalSeen (s : State) (st : Nat) : State × Journal :=
  let k := s.stack st
  let j := journalNow s st
  let d := s.draw
  let fresh := b2n (decide ({ k.jlast with seq := 0 } ≠ j)) + (if colStopped k 0 && colStopped k 1 then 0 else Config.journalWrites d.1)
  let j := { j with seq := k.jlast.seq + BitVec.ofNat 64 fresh }
  (d.2.setStack st { k with jlast := j }, j)

/-- A word of the journal: zero until a column has written it. -/
def readJournal (s : State) (st off : Nat) : State × Word :=
  if !(s.stack st).journal then (s, 0)
  else
    let r := journalSeen s st
    let j := r.2
    (r.1,
      if off < 0x40 then
        wordAt [joinWord [(0x4C4E524A, 0), (1, 32)], joinWord [(j.devq.length, 0), (j.table.length, 16), (j.tasks.length, 32)], 0, j.seq] (off / 8)
      else if off < 0x2840 then ((j.devq[(off - 0x40) / 160]?).map (fun r => wordAt r ((off - 0x40) % 160 / 8))).getD 0
      else if off < 0x6840 then ((j.table[(off - 0x2840) / 64]?).map (fun l => wordAt l (off % 64 / 8))).getD 0
      else if off < 0xAC40 then ((j.tasks[(off - 0x6840) / 32]?).map (fun t => wordAt t ((off - 0x6840) % 32 / 8))).getD 0
      else 0)

/-! ### Columns -/

/-- The gangs with a member in a stack, on a thread or waiting, that have not failed, as (accepting stack, launch). -/
def gangsOf (s : State) (st : Nat) : List (Nat × Nat) :=
  let infos := (s.stack st).waiting.map (fun w => w.info) ++ (List.range 40).filterMap (fun th => (s.thread (tidOf st th)).task)
  ((infos.filter (fun i => i.gang && (match i.id.launchIn s with | some l => !l.failed | none => false))).map
    (fun i => (i.id.stack, i.id.launch))).eraseDups

/-- A gang is pre-empted whole, not marked failed, and starts again through a start barrier (18:R412); a start under way is given up. -/
def gangBack (s : State) (a id : Nat) : State :=
  match s.getLaunch a id with
  | none => s
  | some l =>
    let s := dropRequests (mapMembers s a id (fun w => { w with reserved := none })) a id
    let s := (s.launchThreads a id).foldl (fun acc tid => if l.started then orderStop acc tid else withdraw acc l tid) s
    s.setLaunch a { l with started := false }

/-- Every task of a stack is hard-pre-empted at its next boundary, and front ends may be rebound while its tasks wait; its gangs are pre-empted whole (18:R412). -/
def stopStack (s : State) (st : Nat) : State :=
  let gangs := gangsOf s st
  let s := (List.range 40).foldl (fun acc th => orderStop acc (tidOf st th)) s
  let s := s.mapWaiting st (fun w => { w with loose := w.saved.isSome })
  gangs.foldl (fun acc g => gangBack acc g.1 g.2) s

/-- A column stops (18:R411, R412, 19:R423): the launch unit, the scheduler or the last walker takes the stack's tasks with it. -/
def stopColumn (s : State) (st : Nat) (c : Fin 6) : State :=
  let k := s.stack st
  let frozen := if c.val < 2 then some (journalNow s st) else k.frozen
  let s := s.setStack st { k with cols := k.cols.set c { k.cols[c] with state := .stopped }, frozen := frozen }
  let s := logErr s st 3 unitColumn 0xFFFF 0xFFFF 0 0xFFFFFFFF c.val
  if c.val < 2 ∨ walkersDown (s.stack st) then stopStack s st else s

/-- One vote (18:R411): a dissent moves TRIPLE to RESYNC and RESYNC to STOPPED; every dissent is logged. -/
def columnVote (s : State) (st : Nat) (c : Fin 6) (dissent : Bool) : State :=
  if !dissent then s
  else
    let k := s.stack st
    let x := k.cols[c]
    let n := if x.dissents = 63 then x.dissents else x.dissents + 1
    match x.state with
    | .triple => logErr (s.setStack st { k with cols := k.cols.set c ⟨.resync, n⟩ }) st 0 unitColumn 0xFFFF 0xFFFF 0 0xFFFFFFFF c.val
    | .resync =>
      stopColumn (logErr (s.setStack st { k with cols := k.cols.set c ⟨.resync, n⟩ }) st 0 unitColumn 0xFFFF 0xFFFF 0 0xFFFFFFFF c.val) st c
    | .stopped => s

/-! ### Bindings -/

/-- The home column of a front end (01:R20). -/
def homeCol (fe : Nat) : Nat := if fe % 5 = 4 then 1 else fe % 5

/-- The columns a request uses. -/
def usedCols (halves : BitVec 8) : List Nat := (List.range 4).filter (fun c => halves.getLsbD (2 * c) || halves.getLsbD (2 * c + 1))

/-- The manufacture pairs within a request. -/
def pairsIn (s : State) (st fe : Nat) (halves : BitVec 8) : Nat :=
  let hs := ((List.range 8).filter (fun i => halves.getLsbD i)).map (halfSlab fe)
  (s.fuses.pairs.filter (fun p => hs.any (fun h => st * 32 + h == p.1) && hs.any (fun h => st * 32 + h == p.2))).length

/-- A binding request obeys 01:R20, R21, R22 and R24: at most the columns in reach, or all four under home column 1 or 2; adjacent columns, but for
one slab-equivalent of two split halves; whole slab-equivalents. A request over all four columns counts as a four-column gang even with one
half-slab in each (DESIGN CHOICE, log 100). Two split slab-equivalents whose halves lie in the same two columns, not adjacent, are no adjacent
slab-equivalents (DESIGN CHOICE, log 124). A defective half-slab, or an excluded stack, breaks the rule too (DESIGN CHOICE, log 101). -/
def bindOk (s : State) (st fe : Nat) (halves : BitVec 8) : Bool :=
  let cols := usedCols halves
  let n := ((List.range 8).filter (fun i => halves.getLsbD i)).length
  let home := homeCol fe
  let direct := cols.all (fun c => decide (c ≤ home + 1 ∧ home ≤ c + 1))
  let adjacent := decide ((cols.getLast?).getD 0 + 1 = cols.headD 0 + cols.length) || decide (n = 2)
  let hs := ((List.range 8).filter (fun i => halves.getLsbD i)).map (halfSlab fe)
  let k := s.stack st
  decide (fe < 20) && decide (n % 2 = 0 ∧ 2 ≤ n) && (direct || (decide (cols.length = 4) && decide (home = 1 ∨ home = 2))) && adjacent &&
  hs.all (fun h => !s.fuses.defective.contains (st * 32 + h)) && !k.excluded &&
  k.fronds.all (fun f => decide (f.fe = fe) || hs.all (fun h => !f.halfList.contains h))

/-- A front end has a task resident (01:R23): running, placed, with a thread reserved in a gang start, or saved in banks of its frond, but for one
that a failed front end or a stopped column left, which is restored wherever its banks are bound next (01:R32, 18:R412; DEDUCED, log 9). -/
def feBusy (s : State) (st fe : Nat) : Bool :=
  let banks := banksOf s st fe
  ([2 * fe, 2 * fe + 1] : List Nat).any (fun th =>
    (s.thread (tidOf st th)).task.isSome || (s.stack st).waiting.any (fun w => decide (w.reserved = some th))) ||
  (s.stack st).waiting.any (fun w => !w.loose && (match w.saved with | some z => z.map.any (fun p => banks.contains p.1) | none => false))

/-- Records BINDREQ with a status; GO reads 0 again (18:R398). -/
def bindAnswer (s : State) (st fe : Nat) (halves : BitVec 8) (status : BitVec 3) : State :=
  s.setStack st { s.stack st with bindGo := false, bindStatus := status, bindFe := BitVec.ofNat 5 fe, bindHalves := halves }

/-- Tasks that a stack can no longer place end their launch with LAYOUT-MISMATCH (18:R403). -/
def dropUnservable (s : State) (st : Nat) : State :=
  let k := s.stack st
  let lost := k.waiting.filter (fun w => w.fresh.isSome && !k.serves w.info.need)
  lost.foldl (fun acc w =>
    let acc := takeWaiting acc st w
    let acc := countTask acc w.info.id false lsLayout 0 false
    closeLaunch acc w.info.id.stack w.info.id.launch) s

/-- A binding request with halves (01:R20-R24, 18:R398). One that breaks a rule and names a front end with a resident task is answered BADBIND
(DESIGN CHOICE, log 99). A bound spare front end reads SPAREFE 1 whether or not another has failed (DESIGN CHOICE, log 102). The banks keep the
way partition they have, and the frond takes it from its first bank (01:R25; DEDUCED, log 103). -/
def bindFrond (s : State) (st fe : Nat) (halves : BitVec 8) : State :=
  if !bindOk s st fe halves then bindAnswer s st fe halves 3
  else if feBusy s st fe then bindAnswer s st fe halves 2
  else
    let k := s.stack st
    let f : Frond := { fe := fe, halves := halves, pairs := pairsIn s st fe halves, spareFe := decide (fe % 5 = 4), mode := 0, ways := 0,
                       degr := 0, spareBk := false, nbanks := 0, splitC := false }
    let x := s.bank (st * 256 + (frondBanks s st f).headD 0)
    let s := s.setStack st { k with fronds := k.fronds.filter (fun x => x.fe != fe) ++ [{ f with mode := x.mode, ways := x.ways }] }
    dropUnservable (bindAnswer (refreshFrond s st fe) st fe halves 1) st

/-- An unbinding (18:R398). One that names no front end of the stack is answered BADBIND (DESIGN CHOICE, log 99). -/
def unbindFrond (s : State) (st fe : Nat) : State :=
  if 20 ≤ fe then bindAnswer s st fe 0 3
  else if feBusy s st fe then bindAnswer s st fe 0 2
  else
    let k := s.stack st
    dropUnservable (bindAnswer (s.setStack st { k with fronds := k.fronds.filter (fun x => x.fe != fe) }) st fe 0 1) st

/-- The column performs the request that BINDREQ holds (18:R398, R399); one that is STOPPED does so after its reset. -/
def performBind (s : State) (st : Nat) : State :=
  let k := s.stack st
  if !k.bindGo || colStopped k 1 then s
  else if k.bindHalves = 0 then unbindFrond s st k.bindFe.toNat
  else bindFrond s st k.bindFe.toNat k.bindHalves

/-- A write of BINDREQ (18:R398): ignored while GO reads 1; GO submits, and without GO only FE and HALVES are written. -/
def writeBindreq (s : State) (st : Nat) (v : Word) : State :=
  let k := s.stack st
  if k.bindGo then s
  else performBind (s.setStack st { k with bindFe := BitVec.ofNat 5 (fieldOf v 20 16), bindHalves := BitVec.ofNat 8 (fieldOf v 15 8), bindGo := bitOf v 63 }) st

end Sys2Proof.Machine
end

