-- ==== Sys2Proof/Machine/Rel.lean ====
section
/-!
DEFINITION. Reliability: refresh and retention, row repair, lane quarantine, bank retirement, uncorrectable errors, failed front ends
(03:R71-R74, 04:R97-R102, 21:R445-R463).
-/

namespace Sys2Proof.Machine

/-! ### Refresh -/

/-- REF steps until the debt of a group is at most `d`. -/
def refreshTo (s : State) (b : Nat) (k : Fin 16) (d : Nat) : Nat → State
  | 0 => s
  | n + 1 => if ((s.bank b).debt[k]).toNat ≤ d then s else refreshTo (refreshStep s b k) b k d n

/-- A bank is owned by a running task (04:R102). -/
def bankOwned (s : State) (b : Nat) : Bool := (ownerOf s (b / 256) (b % 256)).isSome

/-- One retention tick of one group (04:R98-R102): a debt of 12 is refreshed first, an unowned bank's debt is kept at or below 1, a rise to 8
raises the deadline. -/
def tickGroup (s : State) (b : Nat) (k : Fin 16) : State :=
  let s := if ((s.bank b).debt[k]).toNat < 12 then s else refreshTo s b k 4 12
  let s := if bankOwned s b then s else refreshTo s b k 0 12
  let x := s.bank b
  let d := x.debt[k] + 1
  s.setBank b { x with debt := x.debt.set k d,
                       deadline := if d = 8 ∧ bankOwned s b then x.deadline ||| BitVec.ofNat 16 (2 ^ k.val) else x.deadline }

/-- The local timer's tick raises the debt of every group of its bank (04:R98). -/
def retentionTick (s : State) (b : Nat) : State := (List.range 16).foldl (fun acc k => tickGroup acc b (idx16 k)) s

/-- TRAPVAL of the retention deadline (04:R100). -/
def deadlineVal (j k debt : Nat) : Word := BitVec.ofNat 64 (j + k * 2 ^ 8 + debt * 2 ^ 12)

/-! ### Retirement -/

/-- The slab of a bank, as a bit of the stack's spare map. -/
def slabOf (bk : Nat) : Nat := bk / 16

/-- The threads of a bank's frond that hold a task which owns the bank, or any task where logical numbers are about to change. -/
def bankUsers (s : State) (st bk : Nat) (all : Bool) : List Nat :=
  match frondOfBank s st bk with
  | none => []
  | some f =>
    ([2 * f.fe, 2 * f.fe + 1] : List Nat).filter (fun th =>
      (s.thread (tidOf st th)).task.isSome && (all || (ownedBy s st th).any (fun p => p.2 == st * 256 + bk)))

/-- Hard-pre-empts those tasks. -/
def preemptFrond (s : State) (st bk : Nat) (all : Bool) : State :=
  (bankUsers s st bk all).foldl (fun acc th => orderStop acc (tidOf st th)) s

/-- Ends the launches of saved tasks that own a bank taken out of service (21:R462). -/
def dropOwners (s : State) (st bk : Nat) : State :=
  let owns (w : Waiting) : Bool := match w.saved with | some z => z.map.any (fun p => p.1 == st * 256 + bk) | none => false
  let lost := (s.stack st).waiting.filter owns
  lost.foldl (fun acc w =>
    let acc := if w.counted then acc else countTask acc w.info.id false lsLayout 0 false
    closeLaunch acc w.info.id.stack w.info.id.launch) (dropWaiting s st owns).1

/-- Takes a bank out of service with no spare left (21:R462): a lane or matrix cause runs the frond narrow, an array cause takes the addresses out,
of a bank that runs narrow already as well; there the frond stays as it is, and BINDSTAT with it (01:R28). -/
def narrowBank (s : State) (st bk : Nat) (arr : Bool) : State :=
  let b := st * 256 + bk
  let s := if arr then logErr s st 3 unitArray bk 0xFFFF 0 0xFFFFFFFF 0 else s
  let narrow := (s.bank b).retired
  let s := s.setBank b { s.bank b with retired := true, gone := arr || (s.bank b).gone }
  let s := dropOwners s st bk
  let s := match narrow, frondOfBank s st bk with | false, some f => refreshFrond s st f.fe | _, _ => s
  dropUnservable s st

/-- Retires a bank (21:R460-R462): with its slab's spare free the copy starts, else it runs narrow or its addresses go. The answer is the STATUS of
RETIREREQ; none while a task that must be pre-empted first has not reached a boundary that it may stop at (16:R371). Every task of the frond is
pre-empted where the logical numbers change (DEDUCED, log 10). -/
def retireBank (s : State) (st bk : Nat) (arr : Bool) : State × Option (BitVec 3) :=
  let b := st * 256 + bk
  let k := s.stack st
  let x := s.bank b
  if k.excluded || x.gone || x.moving || (x.retired && !arr) then (s, some 3)
  else if x.retired then (narrowBank s st bk arr, some 2)
  else
    let spare := !k.spareUsed.getLsbD (slabOf bk)
    let s := preemptFrond s st bk (!spare)
    if !(bankUsers s st bk (!spare)).isEmpty then (s, none)
    else if spare then
      let s := s.setStack st { s.stack st with spareUsed := (s.stack st).spareUsed ||| BitVec.ofNat 16 (2 ^ slabOf bk) }
      (s.setBank b { s.bank b with moving := true }, some 1)
    else (narrowBank s st bk arr, some 2)

/-- The retirement that RETIREREQ holds: GO reads 0 again once it has its STATUS (21:R460). -/
def performRetire (s : State) (st : Nat) : State :=
  let k := s.stack st
  if !k.retGo then s
  else
    let r := retireBank s st k.retBank.toNat false
    match r.2 with
    | some c => r.1.setStack st { r.1.stack st with retGo := false, retStatus := c }
    | none => r.1

/-- A write of RETIREREQ (21:R460), ignored while GO reads 1 (DEDUCED, log 136). -/
def writeRetire (s : State) (st : Nat) (v : Word) : State :=
  let k := s.stack st
  if k.retGo then s else performRetire (s.setStack st { k with retBank := BitVec.ofNat 8 (fieldOf v 7 0), retGo := bitOf v 63 }) st

/-! ### Repair -/

/-- The spare rows of a group that mappings use (03:R71, R72). A row that is repaired again takes another spare, and the one it had counts as free
(DESIGN CHOICE, log 127). -/
def sparesUsed (x : Bank) (g : Nat) : Nat :=
  (x.repairs.filter (fun e => e.1 / 4096 == g)).length + (x.xgroup.filter (fun e => e.2 / 24 == g)).length

/-- The group that gives a row of group `k` its spare once its own are used, while the cross-group table has an entry left (03:R72): the lowest with
a spare (DESIGN CHOICE, log 109). -/
def spareGroup (x : Bank) (k : Nat) : Option Nat :=
  if x.xgroup.length < 16 then (List.range 16).find? (fun g => decide (g ≠ k ∧ sparesUsed x g < 24)) else none

/-- No spare row of a group and no cross-group entry remain for a row of group `k` (03:R74). -/
def repairsOut (x : Bank) (k : Nat) : Bool := decide (24 ≤ sparesUsed x k) && (spareGroup x k).isNone

/-- Adds a repair mapping for a row (03:R71-R74): a spare of its group, else a cross-group entry, else the bank is retired, and the repair stays due
while that waits. A bound row's mapping waits for the next write-back, though RSTAT.XG shows it at once (DEDUCED, log 129); an unbound row is
copied first. -/
def repairRow (s : State) (b : Nat) (k : Fin 16) (row : Nat) : State :=
  let key := k.val * 4096 + row
  let s := s.setBank b { s.bank b with repairDue := setErase (s.bank b).repairDue key, corrected := setErase (s.bank b).corrected key }
  let x := s.bank b
  let r := s.wreg b k
  let wait (x : Bank) : Bank :=
    if r.state.bound ∧ r.prow.toNat = row then { x with pendRepair := setInsert x.pendRepair key } else { x with copying := setInsert x.copying key }
  if sparesUsed x k.val < 24 then s.setBank b (wait { x with repairs := mapSet x.repairs key (sparesUsed x k.val) })
  else
    match spareGroup x k.val with
    | some g => s.setBank b (wait { x with xgroup := mapSet x.xgroup key (g * 24 + sparesUsed x g) })
    | none =>
      let r := retireBank s (b / 256) (b % 256) true
      if r.2.isSome then r.1 else r.1.setBank b { r.1.bank b with repairDue := setInsert (r.1.bank b).repairDue key }

/-! ### Lanes and the matrix array -/

/-- The physical lane group, 0-7 or the spare 8, that serves a logical one, and whether the spare is free (21:R458): the spare takes over from the
first group quarantined, the group that serves the next logical one from a later one. -/
def laneMap (quarantined : List Nat) : (Nat → Nat) × Bool :=
  quarantined.foldl (fun m q =>
    if q = 8 ∧ m.2 then (m.1, false)
    else if m.2 then (fun g => if m.1 g = q then 8 else m.1 g, false)
    else (fun g => if m.1 g = q then m.1 ((g + 1) % 8) else m.1 g, false)) (id, true)

/-- The lane groups that compute chunk `g` in run 1, in run 2 and as arbiter (21:R456, R457). -/
def laneRuns (x : Bank) (g : Nat) : Nat × Nat × Nat :=
  let m := laneMap x.quarantined
  (m.1 (g % 8), m.1 ((g + 1) % 8), if m.2 then 8 else m.1 ((g + 2) % 8))

/-- A physical lane group's suspect score (21:R458). -/
def suspectScore (x : Bank) (g : Nat) : Nat := (x.blames.filter (fun e => decide (e.1 = g ∧ x.count < e.2 + 2 ^ 20))).length

/-- The lane group whose score reached 3. -/
def suspectGroup (x : Bank) : Option Nat := (List.range 9).find? (fun g => decide (3 ≤ suspectScore x g) && !x.quarantined.contains g)

/-- Quarantines the lane group whose score reached 3; a third quarantine retires the bank (21:R458). -/
def quarantine (s : State) (b : Nat) : State :=
  let x := s.bank b
  match suspectGroup x with
  | none => s
  | some g =>
    let s := s.setBank b { x with quarantined := x.quarantined ++ [g], blames := x.blames.filter (fun e => e.1 != g) }
    if (s.bank b).quarantined.length < 3 then s else (retireBank s (b / 256) (b % 256) false).1

/-- Blames a lane group and logs the corrected disagreement (21:R457, R458). -/
def blame (s : State) (b g : Nat) : State :=
  let x := s.bank b
  let s := s.setBank b { x with blames := x.blames ++ [(g, x.count)] }
  let task := match s.thr.task with | some i => i.id.num | none => 0xFFFFFFFF
  logErr s (b / 256) 0 unitLane (b % 256) 0xFFFF 0 task g

/-- Logs a checksum mismatch; three within 2^20 instructions make the matrix array suspect, and the bank is retired (21:R459, R460). -/
def checksumMiss (s : State) (b tile row : Nat) : State :=
  let task := match s.thr.task with | some i => i.id.num | none => 0xFFFFFFFF
  let s := logErr s (b / 256) 1 unitMatrix (b % 256) 0xFFFF 0 task (tile * 2 ^ 8 + row)
  let x := s.bank b
  let miss := x.count :: x.ckMiss.filter (fun c => decide (x.count < c + 2 ^ 20))
  s.setBank b { x with ckMiss := miss, suspect := x.suspect || decide (3 ≤ miss.length) }

/-! ### Uncorrectable errors -/

/-- An uncorrectable error of the frond of the thread that runs task `i` (21:R463): pending for the thread; a started gang fails instead, a gang
start is abandoned (18:R409, R410). -/
def frondError (s : State) (tid : Nat) (i : TaskInfo) (val : Word) : State :=
  match i.gang, i.id.launchIn s with
  | true, some l => if l.started then gangFail s i.id.stack i.id.launch i.id.num else gangAbandon s i.id.stack i.id.launch i.id.num
  | _, _ => s.setThread tid { s.thread tid with ueReq := some val }

/-- An uncorrectable error of a thread's frond is logged and reaches its thread (21:R463). -/
def uncorrectable (s : State) (st th bank unit : Nat) : State :=
  match (s.thread (tidOf st th)).task with
  | none => s
  | some i =>
    let index := (s.stack st).logCount.toNat % 256
    let phys := if bank = 255 then 0xFFFF else ((banksOf s st (feOf th))[bank]?.map (fun b => b % 256)).getD 0xFFFF
    frondError (logErr s st 2 unit phys (feOf th) 0 i.id.num 0) (tidOf st th) i (ueVal index bank unit)

/-- A failed front end (01:R32): its tasks are hard-pre-empted, and every task saved in its frond's banks stays saved for a later binding, which it
does not hold up. A task that cannot be saved at once, for want of a free slot (DESIGN CHOICE, log 111) or because it owes a resumed instruction,
stops at its next boundary where it can. -/
def frontEndFail (s : State) (st fe : Nat) : State :=
  let s := s.setStack st { s.stack st with failedFe := (s.stack st).failedFe ||| BitVec.ofNat 20 (2 ^ fe) }
  let s := ([2 * fe, 2 * fe + 1] : List Nat).foldl (fun acc th => orderStop acc (tidOf st th)) s
  let banks := banksOf s st fe
  let s := s.mapWaiting st (fun w =>
    if (match w.saved with | some z => z.map.any (fun p => banks.contains p.1) | none => false) then { w with loose := true } else w)
  logErr s st 2 0x07 0xFFFF fe 0 0xFFFFFFFF 0

end Sys2Proof.Machine
end

