-- ==== Sys2Proof/Machine/Ctrl.lean ====
section
/-!
DEFINITION. The control window: registers of the stack blocks and the module block, read and written as aligned 8-byte words (18:R397-R401,
R411, R413, 20:R443, 21:R460, R464, 22:R477, 23:R480-R488, 24:R493, R502). A word that names no register reads 0 and ignores writes (log 11).
-/

namespace Sys2Proof.Machine

/-- The byte of COLSTAT for a column (18:R411). -/
def colByte (c : Column) : Nat :=
  (match c.state with | .triple => 0 | .resync => 1 | .stopped => 2) + c.dissents.toNat * 4

/-- An error record's 32 bytes, as four words (21:R464). -/
def errWords (r : ErrRec) : List Word :=
  [joinWord [(r.severity.toNat, 0), (r.unit.toNat, 8), (r.stack, 16), (r.bank.toNat, 32), (r.fe.toNat, 48)], r.pa,
   joinWord [(r.task.toNat, 0), (r.detail.toNat, 32)], BitVec.ofNat 64 r.seq]

/-- The saved task whose front-end record lies in a save sector: bank and slot of its lowest bank (20:R443). -/
def sectorTask (s : State) (st home : Nat) : Option Waiting :=
  (s.stack st).waiting.find? (fun w => match w.saved with
    | some z => !z.map.isEmpty && decide (homeSector z.map = home)
    | none => false)

/-- A word of a save sector (20:R443): the record there, and over it what the host wrote. It is read through ECC (21:R446). -/
def readSector (s : State) (st home off : Nat) : State × Word :=
  let s := eccSector s st home (fun i => decide (i = off / 32))
  let words : List Word := match sectorTask s st home with
    | some w => (match w.saved with | some z => recordWords w z | none => [])
    | none => []
  (s, BitVec.ofNat 64 (recordNum (recordByte (sectorBytes s st home) words) off 8))

/-- The stack, the sector and the offset in it of an address in a save sector's place in the control window. -/
def sectorAt (pa : Nat) : Option (Nat × Nat × Nat) :=
  let off := pa % 2 ^ 40
  let o := off % 2 ^ 24
  if windowOf pa = .control ∧ off < 0x20000000 ∧ 0x400000 ≤ o ∧ o < 0x800000 then
    some (off / 2 ^ 24, (o - 0x400000) / 0x2000, o % 0x2000)
  else none

/-- A word of the control window is poisoned: one of a save sector can be (21:R450). -/
def ctrlPoison (s : State) (pa : Nat) : Bool :=
  match sectorAt pa with
  | some p => sectorPoisoned s p.1 p.2.1 (p.2.2 / 32)
  | none => false

/-- Reads a word of the error log: the newest record in the place that the offset names, which has then been read (21:R464). -/
def readLog (s : State) (st off : Nat) : State × Word :=
  let k := s.stack st
  match (k.log.filter (fun r => (r.seq + 255) % 256 == off / 32)).getLast? with
  | some r =>
    (s.setStack st { k with log := k.log.map (fun x => if x.seq = r.seq then { x with seen := true } else x) }, wordAt (errWords r) (off % 32 / 8))
  | none => (s, 0)

/-- Reads a word of a stack block. -/
def readStackReg (s : State) (st off : Nat) : State × Word :=
  let k := s.stack st
  if 0x400000 ≤ off ∧ off < 0x800000 then readSector s st ((off - 0x400000) / 0x2000) (off % 0x2000)
  else if 0xA00000 ≤ off ∧ off < 0xA10000 then readJournal s st (off - 0xA00000)
  else if 0x801000 ≤ off ∧ off < 0x803000 then readLog s st (off - 0x801000)
  else if 0x1000 ≤ off ∧ off < 0x1200 then
    match k.hostq.toList[(off - 0x1000) / 32]? with
    | some h =>
      (s, match off % 32 with
        | 0 => h.base
        | 8 => h.cfg
        | 16 => joinWord [(h.head.toNat, 0), (h.rejected.toNat, 32)]
        | _ => h.tail)
    | none => (s, 0)
  else
    (s, match off with
      | 0x0 => joinWord [(k.ageshift.toNat, 0), (k.softlim.toNat, 16), (k.ganglim.toNat, 32)]
      | 0x8 => joinWord ((enumFrom 0 (k.cols.toList.map colByte)).map (fun p => (p.2, 8 * p.1)))
      | 0x10 => k.park.zeroExtend 64
      | 0x18 => k.ctxbase
      | 0x20 => joinWord [(k.bindHalves.toNat, 8), (k.bindFe.toNat, 16), (k.bindStatus.toNat, 60), (b2n k.bindGo, 63)]
      | 0x28 => k.gangact
      | 0x30 => joinWord [(k.retBank.toNat, 0), (k.retStatus.toNat, 60), (b2n k.retGo, 63)]
      | 0x40 => joinWord [(k.limit.toNat, 0), (b2n k.hot, 32), (k.duty.toNat, 36)]
      | 0x800000 => joinWord [(k.logCount.toNat % 2 ^ 32, 0), (k.logLost.toNat, 32)]
      | 0x800008 => k.errcfg.zeroExtend 64
      | _ => 0)

/-- BOOTSTAT (24:R493). -/
def bootstat (b : Boot) : Word :=
  joinWord [(b.stkout.toNat, 0), (b.fail.toNat, 32), (b.phase.toNat, 48), (b2n (decide (b.stkout ≠ 0)), 62), (b2n b.ready, 63)]

/-- Reads a word of the module block. -/
def readModuleReg (s : State) (off : Nat) : Word :=
  if 0x1000 ≤ off ∧ off < 0x1800 then
    match s.exports.toList[(off - 0x1000) / 32]? with
    | some e => (match off % 32 with | 0 => e.w0 | 8 => e.base | 16 => e.size | _ => 0)
    | none => 0
  else if 0x2000 ≤ off ∧ off < 0x2100 then
    match s.hwin.toList[(off - 0x2000) / 16]? with
    | some w => if off % 16 = 0 then w.1 else w.2
    | none => 0
  else
    match off with
    | 0x0 => s.nodecfg
    | 0x8 => s.linkto
    | 0x10 => bootstat s.boot
    | 0x18 => 0x00010002
    | _ => 0

/-- Reads an aligned 8-byte word of the control window by its physical address. -/
def ctrlRead (s : State) (pa : Nat) : State × Word :=
  let off := pa % 2 ^ 40 / 8 * 8
  if off < 0x20000000 then readStackReg s (off / 2 ^ 24) (off % 2 ^ 24) else (s, readModuleReg s (off - 0x20000000))

/-- Writes PARK (18:R400): threads park once they hold no task. -/
def writePark (s : State) (st : Nat) (v : Word) : State := s.setStack st { s.stack st with park := v.setWidth 40 }

/-- Writes a host launch queue's TAIL (18:R401). -/
def writeTail (s : State) (st : Nat) (q : Fin 16) (v : Word) : State :=
  let k := s.stack st
  s.setStack st { k with hostq := k.hostq.set q { k.hostq[q] with tail := v } }

/-- Writes PWRCTL: a LIMIT outside 100-420 is ignored (24:R502). -/
def writePwr (s : State) (st : Nat) (v : Word) : State :=
  let l := fieldOf v 15 0
  if 100 ≤ l ∧ l ≤ 420 then s.setStack st { s.stack st with limit := BitVec.ofNat 16 l } else s

/-- The bytes of a word written into a save sector (20:R443); they clear their part's flag (21:R449). -/
def writeSector (s : State) (st home off : Nat) (v : Word) : State :=
  let s := eccSector s st home (fun i => decide (i = off / 32))
  let k := s.stack st
  let key := 256 * home + off / 32
  let fl := clearParts (mapGetD k.sectorBad key 0) (off % 32) 8
  let old := (mapGet k.sectors home).getD []
  let new := (enumFrom 0 (natToBytes 8 v.toNat)).foldl (fun l p => mapSet l (off + p.1) p.2) old
  s.setStack st { k with sectors := mapSet k.sectors home new, sectorBad := if fl = 0 then mapErase k.sectorBad key else mapSet k.sectorBad key fl }

/-- GANGACT (18:R397, R410). -/
def writeGangact (s : State) (st : Nat) (v : Word) : State :=
  let s := s.setStack st { s.stack st with gangact := v &&& 0xC000FFFFFFFFFFFF }
  match fieldOf v 63 62 with
  | 1 => gangResume s (fieldOf v 47 0)
  | 2 => gangDiscard s (fieldOf v 47 0)
  | _ => s

/-- Writes a word of a stack block. -/
def writeStackReg (s : State) (st off : Nat) (v : Word) : State :=
  let k := s.stack st
  if 0x400000 ≤ off ∧ off < 0x800000 then writeSector s st ((off - 0x400000) / 0x2000) (off % 0x2000) v
  else if 0x1000 ≤ off ∧ off < 0x1200 then
    let q := idx16 ((off - 0x1000) / 32)
    let h := k.hostq[q]
    match off % 32 with
    | 0 => s.setStack st { k with hostq := k.hostq.set q { h with base := v } }
    | 8 => s.setStack st { k with hostq := k.hostq.set q { h with cfg := v &&& 0x8000000000FF1FFF } }
    | 24 => writeTail s st q v
    | _ => s
  else
    match off with
    | 0x0 => s.setStack st { k with ageshift := BitVec.ofNat 5 (fieldOf v 4 0), softlim := BitVec.ofNat 16 (fieldOf v 31 16),
                                    ganglim := BitVec.ofNat 16 (fieldOf v 47 32) }
    | 0x10 => writePark s st v
    | 0x18 => s.setStack st { k with ctxbase := v }
    | 0x20 => writeBindreq s st v
    | 0x28 => writeGangact s st v
    | 0x30 => writeRetire s st v
    | 0x40 => writePwr s st v
    | 0x800008 => s.setStack st { k with errcfg := BitVec.ofNat 8 (fieldOf v 7 0) }
    | _ => s

/-- Writes a word of the module block. -/
def writeModuleReg (s : State) (off : Nat) (v : Word) : State :=
  if 0x1000 ≤ off ∧ off < 0x1800 then
    let i := (off - 0x1000) / 32
    match s.exports.toList[i]? with
    | some e =>
      let e' : Export := match off % 32 with
        | 0 => { e with w0 := v &&& 0xE000000000001FFF }
        | 8 => { e with base := v }
        | 16 => { e with size := v }
        | _ => e
      if h : i < 64 then { s with exports := s.exports.set i e' h } else s
    | none => s
  else if 0x2000 ≤ off ∧ off < 0x2100 then
    let i := idx16 ((off - 0x2000) / 16)
    let w := s.hwin[i]
    { s with hwin := s.hwin.set i (if off % 16 = 0 then (v &&& 0x000FFFFFFFFFF000, w.2) else (w.1, v &&& 0x800000FFFFFFFFFF)) }
  else
    match off with
    | 0x0 => { s with nodecfg := v &&& (if s.boot.ready then 0x80000000000FFFFF else 0xFFFFF) }      -- 24:R494
    | 0x8 => { s with linkto := v &&& 0xFFFFFFFF }
    | _ => s

/-- Writes an aligned 8-byte word of the control window by its physical address. -/
def ctrlWrite (s : State) (pa : Nat) (v : Word) : State :=
  let off := pa % 2 ^ 40 / 8 * 8
  if off < 0x20000000 then writeStackReg s (off / 2 ^ 24) (off % 2 ^ 24) v else writeModuleReg s (off - 0x20000000) v

/-- Writes `n` bytes inside one aligned 8-byte word of the control window: a narrow write merges with the word as it reads, and leaves the flag of its
part in a save sector set (21:R449). -/
def ctrlWriteN (s : State) (pa n v : Nat) : State :=
  if n = 8 then ctrlWrite s pa (BitVec.ofNat 64 v)
  else
    let r := ctrlRead s pa
    let t := ctrlWrite r.1 pa (setBytes r.2 (pa % 8) n v)
    match sectorAt pa with
    | some p => t.setStack p.1 { t.stack p.1 with sectorBad := (r.1.stack p.1).sectorBad }
    | none => t

/-- Reads `n` bytes inside one aligned 8-byte word of any window (15:R339). -/
def anyRead (s : State) (pa n : Nat) (alloc : Bool) : State × Nat × Bool :=
  if windowOf pa = .control then
    let r := ctrlRead s pa
    (r.1, r.2.toNat / 2 ^ (8 * (pa % 8)) % 2 ^ (8 * n), ctrlPoison r.1 pa)
  else physRead s pa n alloc

/-- Writes `n` bytes inside one aligned 8-byte word of any window. A write through a translation sets its dirty bit (19:R428). -/
def anyWrite (s : State) (x : Xlat) (pa n v : Nat) (alloc : Bool) : State :=
  if windowOf pa = .control then ctrlWriteN (setDirty s (x.mark pa).due pa) pa n v else writeVia s x pa n v alloc

end Sys2Proof.Machine
end

