-- ==== Sys2Proof/Machine/Flags.lean ====
section
/-!
DEFINITION. Sticky flags: where Raise puts them, how FLAGS reads and writes them, and which rounding an instruction takes (07:R155-R160, R166,
15:R335).
-/

namespace Sys2Proof.Machine

/-- Raise in a bank (07:R166). -/
def raiseBank (s : State) (b : Nat) (f : BitVec 5) : State :=
  let x := s.bank b
  s.setBank b { x with flags := x.flags ||| f }

/-- Raise by a scalar FP instruction: the thread's scalar flags, in a bank thread its bank's (07:R159, R166; DEDUCED, log 12). -/
def raiseScalar (s : State) (f : BitVec 5) : State :=
  match s.cur.bank with
  | none => { s with thr := { s.thr with flags := s.thr.flags ||| f } }
  | some j => raiseBank s (s.ownBank j) f

/-- FLAGS as read: the scalar flags ORed with those of every owned bank (07:R160). -/
def flagsValue (s : State) : BitVec 5 := s.ownedAll.foldl (fun f p => f ||| (s.bank p.2).flags) s.thr.flags

/-- A write of FLAGS: the scalar flags and those of every owned bank take the value (07:R160). -/
def setFlags (s : State) (f : BitVec 5) : State :=
  s.ownedAll.foldl (fun acc p => acc.setBank p.2 { acc.bank p.2 with flags := f }) { s with thr := { s.thr with flags := f } }

/-- The rounding an instruction takes: its rm field, RMODE.RM where that is 0 or absent; FTZ from RMODE (07:R155, R156). -/
def State.rctl (s : State) (rm : Nat) (sat : Bool) : RCtl :=
  ⟨if rm = 0 then s.front.rmode.rm.toNat else rm, s.front.rmode.ftz, sat⟩

end Sys2Proof.Machine
end

