-- ==== Sys2Proof/Machine/Operands.lean ====
section
/-!
DEFINITION. Vector operands: sources and destinations by element, active elements, the checks that every vector instruction shares, poison, and
the commit of element results (06:R139-R141, 07:R151-R153, 08:R168-R171, 21:R449-R453, R455-R457).
-/

namespace Sys2Proof.Machine

/-! ### Failed checks -/

/-- A failed check: cause and TRAPVAL. -/
structure VFail where
  cause : BitVec 8
  val : Word
  deriving DecidableEq, Repr

/-- A tag mismatch of a register (08:R169): bank, register, its tag, operand position. -/
def tagFail (j : Nat) (k : Fin 16) (tag : BitVec 4) (pos : Nat) : VFail :=
  ⟨cTag, BitVec.ofNat 64 (j % 256 + k.val * 2 ^ 8 + tag.toNat * 2 ^ 12 + pos * 2 ^ 16)⟩

/-- A tag mismatch of VLCFG.FMT (08:R169). -/
def fmtFail (j : Nat) (fmt : BitVec 4) : VFail := ⟨cTag, BitVec.ofNat 64 (j % 256 + fmt.toNat * 2 ^ 12 + 2 ^ 18)⟩

/-- A VL-range failure (08:R169): bank, register or 0, VL. -/
def vlFail (j k vl : Nat) : VFail := ⟨cVl, BitVec.ofNat 64 (j % 256 + k * 2 ^ 8 + vl % 2 ^ 16 * 2 ^ 32)⟩

/-- The virtual address of row `n` of group `k` in logical bank `j` (05:R110). -/
def rowVa (s : State) (j k n : Nat) : Word := BitVec.ofNat 64 (s.bankva.toNat * 2 ^ 27 + j * 2 ^ 27 + k * 2 ^ 23 + n * 2 ^ 11)

/-- The length check of one register of element width `w` (06:R141). -/
def lenCheck (e : VEnv) (j : Nat) (k : Fin 16) (w : Nat) : Option VFail := if capOf w < e.vl then some (vlFail j k.val e.vl) else none

/-- The write-protect check of a destination, applied when LIVE > VSTART (05:R115, 08:R168). -/
def wpCheck (e : VEnv) (s : State) (j b : Nat) (k : Fin 16) : Option VFail :=
  let r := s.wreg b k
  if e.vstart < e.live ∧ r.state.bound ∧ !r.writable then some ⟨cWrite, rowVa s j k.val r.row.toNat⟩ else none

/-- The first failure of a list of checks. -/
def firstFail : List (Option VFail) → Option VFail
  | [] => none
  | some f :: _ => some f
  | none :: t => firstFail t

/-- The register named by a tag mismatch of two sources: the first when its tag pairs with nothing, else the second (DEDUCED, log 13). -/
def pairFail (j : Nat) (a b : Fin 16) (ta tb : BitVec 4) : VFail :=
  if ta = 13 ∨ ta = 15 then tagFail j a ta 1 else tagFail j b tb 2

/-! ### Elements -/

/-- A row-register source: register, element width, operand position, and the element it takes for loop index `i`. -/
structure VSrc where
  reg : Fin 16
  w : Nat
  pos : Nat
  idx : Nat → Nat

/-- Where results go: elements of a row register, or bits of a mask. -/
inductive VDst where
  | row (k : Fin 16) (w : Nat) (idx : Nat → Nat)
  | mask (k : Fin 16)

/-- What an element-wise instruction does in one bank once its checks have passed: granule and mask, sources, destination, and the
result of element `i` from the source codes and the LFSR. -/
structure VPlan where
  gran : Nat
  mask : Option (Fin 16)
  srcs : List VSrc
  dst : VDst
  run : Nat → List Nat → BitVec 32 → Rounded

/-- A plain source: element `i` for index `i`. -/
def VSrc.plain (k : Fin 16) (w pos : Nat) : VSrc := ⟨k, w, pos, id⟩

/-- A plain destination. -/
def VDst.plain (k : Fin 16) (w : Nat) : VDst := .row k w id

/-- A result without flags or LFSR steps. -/
def plainRes (c : Nat) (l : BitVec 32) : Rounded := ⟨c, 0, l⟩

/-- The plan that computes element `i` in a bank, if the element is active (07:R151, R152; of a pair, 02:R42). -/
abbrev Pick := Nat → Option VPlan

/-- The governing mask holds 1 for element `i`; no mask governs every element. -/
def VPlan.governs (p : VPlan) (x : Bank) (i : Nat) : Bool :=
  match p.mask with
  | none => true
  | some m => maskBit (x.getM m) (i / p.gran)

/-- One instruction's picks. -/
def pickOne (e : VEnv) (x : Bank) (p : VPlan) : Pick := fun i =>
  if decide (e.vstart ≤ i ∧ i < e.live) && p.governs x i then some p else none

/-- A complement pair's picks: I where its mask holds 1, J elsewhere (02:R42). Both read the mask at I's granule (DEDUCED, log 14). -/
def pickPair (e : VEnv) (x : Bank) (p q : VPlan) : Pick := fun i =>
  if e.vstart ≤ i ∧ i < e.live then
    (if p.governs x i then some p else some q)
  else none

/-- The 32-byte word of a latch that holds element `n` of width `w`. -/
def elemWord (w n : Nat) : Nat := w * n / 256

/-- The word flags of a latch are not all clear at a word. -/
def latchBad (p : BitVec 256) (word : Nat) : Bool := decide (getEl p 4 word ≠ 0)

/-- The words, as (register, word), that element ELEM of VPOISON needs: they take no poison trap (21:R452). Where `n` elements complete together, as in
a k step, they are the words that all of these need (16:R371). -/
def exemptWords (v : VPoison) (n : Nat) (pick : Pick) : List (Fin 16 × Nat) :=
  if v.v then
    (List.range n).flatMap (fun d =>
      let i := v.elem.toNat / n * n + d
      match pick i with
      | some p => p.srcs.map (fun r => (r.reg, elemWord r.w (r.idx i)))
      | none => [])
  else []

/-- The first source of element `i` that lies in a poisoned word, those of `ex` apart: register and operand position. -/
def poisonAt (x : Bank) (ex : List (Fin 16 × Nat)) (pick : Pick) (i : Nat) : Option (Fin 16 × Nat) :=
  match pick i with
  | none => none
  | some p => p.srcs.findSome? (fun r =>
      let wd := elemWord r.w (r.idx i)
      if latchBad x.w[r.reg].poison wd && !ex.contains (r.reg, wd) then some (r.reg, r.pos) else none)

/-- Any source word of element `i` is poisoned. -/
def tainted (x : Bank) (p : VPlan) (i : Nat) : Bool := p.srcs.any (fun r => latchBad x.w[r.reg].poison (elemWord r.w (r.idx i)))

/-- A poisoned element found: element, logical bank, register, operand position. -/
structure PoisonHit where
  elem : Nat
  j : Nat
  reg : Fin 16
  pos : Nat

/-- The first poisoned element of a bank in a range of `n` from `lo`; `step` elements complete together. -/
def bankPoison (s : State) (v : VPoison) (step j b : Nat) (pick : Pick) (lo n : Nat) : Option PoisonHit :=
  let x := s.bank b
  if x.w.toList.all (fun r => r.poison == 0) then none
  else
    let ex := exemptWords v step pick
    (List.range n).findSome? (fun d => (poisonAt x ex pick (lo + d)).map (fun h => ⟨lo + d, j, h.1, h.2⟩))

/-- The smallest poisoned element over the banks, in the lowest bank that has it (21:R451). -/
def leastHit : List (Option PoisonHit) → Option PoisonHit
  | [] => none
  | none :: t => leastHit t
  | some h :: t =>
    match leastHit t with
    | some g => if g.elem < h.elem then some g else some h
    | none => some h

/-- TRAPVAL of poison in a local register (21:R451). -/
def poisonVal (h : PoisonHit) : Word := BitVec.ofNat 64 (h.j % 256 + h.reg.val * 2 ^ 8 + h.pos * 2 ^ 16 + h.elem * 2 ^ 32)

/-! ### Commit -/

/-- A latch being rewritten: its bits, which bits are written, the words that become poisoned. -/
structure RowEdit where
  latch : RowBits
  cover : RowBits
  pz : BitVec 256

/-- Writes an element; `bad` poisons its word (21:R452). -/
def RowEdit.put (r : RowEdit) (w n v : Nat) (bad : Bool) : RowEdit :=
  ⟨setEl r.latch w n v, setEl r.cover w n (2 ^ w - 1),
   if bad then r.pz ||| BitVec.ofNat 256 (15 * 2 ^ (4 * elemWord w n)) else r.pz⟩

/-- The flags of the 8-byte parts that an edit covers whole. -/
def fullParts (cover : RowBits) : BitVec 256 :=
  BitVec.ofNat 256 ((List.range 256).foldl (fun acc p => if getEl cover 64 p = 2 ^ 64 - 1 then acc + 2 ^ p else acc) 0)

/-- The edits of one bank: rows, masks, flags, LFSR, and whether poisoned bits landed where no marker is carried (21:R453). -/
structure Edits where
  rows : List (Fin 16 × RowEdit)
  masks : List (Fin 16 × MaskBits)
  flags : BitVec 5
  lfsr : BitVec 32
  unmarked : Bool

def Edits.row (a : Edits) (x : Bank) (k : Fin 16) : RowEdit :=
  match a.rows.find? (fun p => p.1 == k) with
  | some p => p.2
  | none => ⟨x.w[k].latch, 0, 0⟩

def Edits.setRow (a : Edits) (k : Fin 16) (r : RowEdit) : Edits := { a with rows := (k, r) :: a.rows.filter (fun p => p.1 != k) }

def Edits.maskOf (a : Edits) (x : Bank) (k : Fin 16) : MaskBits :=
  match a.masks.find? (fun p => p.1 == k) with
  | some p => p.2
  | none => x.getM k

/-- Computes element `i` by its plan. -/
def Edits.elem (x : Bank) (a : Edits) (i : Nat) (p : VPlan) : Edits :=
  let codes := p.srcs.map (fun r => getEl x.w[r.reg].latch r.w (r.idx i))
  let r := p.run i codes a.lfsr
  let bad := tainted x p i
  let a := { a with flags := a.flags ||| r.flags, lfsr := r.lfsr }
  match p.dst with
  | .row k w idx => a.setRow k ((a.row x k).put w (idx i) r.code bad)
  | .mask k => { a with masks := (k, setEl (a.maskOf x k) 1 i r.code) :: a.masks.filter (fun p => p.1 != k), unmarked := a.unmarked || bad }

/-- The edits of the active elements from `lo`, `n` of them, in ascending order (07:R157). -/
def editElems (x : Bank) (pick : Pick) (lo n : Nat) : Edits :=
  (List.range n).foldl (fun a d => match pick (lo + d) with | some p => a.elem x (lo + d) p | none => a) ⟨[], [], 0, x.lfsr, false⟩

/-- Logs a result that poisoned bits formed and no marker follows (21:R453). -/
def logUnmarked (s : State) (b : Nat) : State :=
  let task := match s.thr.task with | some i => i.id.num | none => 0xFFFFFFFF
  logErr s (b / 256) 1 unitArray (b % 256) 0xFFFF 0 task 0x00010000

/-- Puts a bank's edits into effect: local writes of row registers, masks, sticky flags, LFSR (04:R85, 08:R171). -/
def applyEdits (s : State) (b : Nat) (a : Edits) : State :=
  let s := a.rows.foldl (fun acc p =>
    let r := acc.wreg b p.1
    let acc := dropUpsets acc (fun q => q.inLatch b p.1.val (fun w => decide (getEl p.2.cover 256 w = 2 ^ 256 - 1)))
    localWrite acc b p.1 p.2.latch ((r.poison &&& ~~~ (fullParts p.2.cover)) ||| p.2.pz)) s
  let s := a.masks.foldl (fun acc p => acc.setBank b ((acc.bank b).setM p.1 p.2)) s
  let x := s.bank b
  let s := s.setBank b { x with flags := x.flags ||| a.flags, lfsr := a.lfsr }
  if a.unmarked then logUnmarked s b else s

/-- A read of a register or a write into it waits for its pending unbinding and for tRCD (04:R86, 08:R172), and follows the party's own far stores
into its row (14:R310). -/
def touchW (s : State) (b : Nat) (k : Fin 16) : State :=
  let s := settleUnbind s b k
  let r := s.wreg b k
  let s := if r.state.bound then ownFirst s b (fun pa => pa / 2 ^ 11 == rowAddr b k.val r.prow.toNat / 2 ^ 11) else s
  let r := s.wreg b k
  if r.valid then s else s.setW b k { r with valid := true }

/-- The words of a register's latch that lanes read: the register, and which of its 64 words. -/
abbrev Reads := Fin 16 × (Nat → Bool)

/-- The words of the beats that hold some elements of width `w` (07:R146). -/
def beatsOf (w : Nat) (els : List Nat) (word : Nat) : Bool := els.any (fun i => decide (elemWord w i / 8 = word / 8))

/-- The lanes of banks read words of their latches (21:R446). -/
def lanesRead (s : State) (l : List (Nat × List Reads)) : State :=
  l.foldl (fun acc p => p.2.foldl (fun acc r => eccLatch acc p.1 r.1.val r.2) acc) s

/-! ### Verify mode -/

/-- Verify mode runs the majors 0x30 to 0x3C and GRED twice (21:R456). -/
def verified : Instr → Bool
  | .gredSum _ _ _ => true
  | .gredMin _ _ _ => true
  | .gredMax _ _ _ => true
  | .gredAnd _ _ _ => true
  | .gredOr _ _ _ => true
  | .gredXor _ _ _ => true
  | .complementPair i _ => decide (0x30 ≤ encode i % 128 ∧ encode i % 128 ≤ 0x3C)
  | i => i.hasWord && decide (0x30 ≤ encode i % 128 ∧ encode i % 128 ≤ 0x3C)

/-- What the arbiter finds of a chunk whose two runs disagree (21:R457): which physical lane group it names, and whether all three results differ. -/
structure LaneHit where
  group : Nat
  third : Bool
  deriving DecidableEq, Repr

/-- The verdict on a chunk whose lane groups err as the fault says; none where both runs are right. Every result of a group that errs differs from
every other; three different results name the group of run 1 (DESIGN CHOICE, log 137). -/
def laneVerdict (x : Bank) (f : LaneFault) : Option LaneHit :=
  let r := laneRuns x f.chunk
  match f.bad.contains r.1, f.bad.contains r.2.1 with
  | false, false => none
  | true, false => some ⟨r.1, f.bad.contains r.2.2⟩
  | false, true => if f.bad.contains r.2.2 then some ⟨r.1, true⟩ else some ⟨r.2.1, false⟩
  | true, true => some ⟨r.1, true⟩

/-- The lane disagreement that a verified instruction meets: in which bank, and the first element of its result beat of `beat` elements; 0 where the
instruction writes nothing before it is whole (21:R456, R457). -/
def laneHit (s : State) (e : VEnv) (beat : Nat) : Option (LaneHit × (Nat × Nat) × Nat) :=
  match s.front.verify && verified e.instr, s.laneFault with
  | true, some f =>
    match e.banks[f.pos % e.banks.length]? with
    | some p =>
      match laneVerdict (s.bank p.2) f with
      | none => none
      | some h =>
        if beat = 0 then some (h, p, e.vstart)
        else
          let start := Nat.max (f.elem / beat * beat) e.vstart
          if start < e.live then some (h, p, start) else none
    | none => none
  | _, _ => none

/-- Two of three results agree: the third blames a group and the instruction goes on (21:R457, R458). -/
def laneBlame (s : State) (h : LaneHit × (Nat × Nat) × Nat) : State := blame { s with laneFault := none } h.2.1.2 h.1.group

/-- Three different results are logged, and cause 0x17 is pending, or the thread's gang fails (21:R457, R463). -/
def laneReport (h : LaneHit × (Nat × Nat) × Nat) (s : State) : Out :=
  let s : State := { s with vrun := false, cut := none, laneFault := none }
  let b := h.2.1.2
  let index := (s.stack (b / 256)).logCount.toNat % 256
  match s.thr.task with
  | some i => .next (frondError (logErr s (b / 256) 2 unitLane (b % 256) 0xFFFF 0 i.id.num h.1.group) s.tid i (ueVal index h.2.1.1 unitLane))
  | none => .next s

/-- Three different results stop a vector-side instruction where the caller has left it (21:R457). -/
def laneFatal (e : VEnv) (h : LaneHit × (Nat × Nat) × Nat) (s : State) : Out := laneReport h (holdHead e s)

/-! ### The shared run of an element-wise instruction -/

/-- What the checks of one bank give: the plan's picks, the registers it touches, the words its lanes read, the elements of a result beat of 2,048 bits, and
whether the instruction runs to completion once it has written one (08:R170). -/
structure VReady where
  pick : Pick
  regs : List (Fin 16)
  reads : List Reads
  beat : Nat
  whole : Bool

/-- The checks of every bank, lowest logical bank first: the first failure, or what each bank will do (08:R168, 05:R107). -/
def checkBanks {α : Type} (check : Nat → Nat → Except VFail α) : List (Nat × Nat) → Except VFail (List (Nat × Nat × α))
  | [] => .ok []
  | (j, b) :: t =>
    match check j b with
    | .error f => .error f
    | .ok r =>
      match checkBanks check t with
      | .error f => .error f
      | .ok l => .ok ((j, b, r) :: l)

/-- Records a poisoned element and takes the trap (08:R170, 21:R451). -/
def trapPoison (e : VEnv) (h : PoisonHit) (vstart : Nat) (s : State) : Out :=
  let s := s.setFront { s.front with vstart := BitVec.ofNat 15 vstart,
                                     vpoison := ⟨true, BitVec.ofNat 4 h.reg.val, BitVec.ofNat 2 h.pos, BitVec.ofNat 15 h.elem⟩ }
  trapVector e ⟨cPoison, poisonVal h, true, false⟩ s

/-- A failed check of a vector-side instruction: nothing has changed. -/
def trapCheck (e : VEnv) (f : VFail) (s : State) : Out := trapVector e ⟨f.cause, f.val, true, false⟩ (s.setVstart e.vstart)

/-- VPOISON.V clears when element ELEM completes (21:R452). -/
def clearPoisonV (s : State) (done : Nat → Bool) : State :=
  let f := s.front
  if done f.vpoison.elem.toNat then s.setFront { f with vpoison := { f.vpoison with v := false } } else s

/-- The elements from `lo` up to `hi` have completed. -/
def ranTo (lo hi : Nat) (i : Nat) : Bool := decide (lo ≤ i ∧ i < hi)

/-- The element at which a hard pre-emption stops an element-wise instruction: before its first result beat or after any, or before the first only
where the rest runs to completion (08:R170). -/
def cutElem (s : State) (e : VEnv) (beat : Nat) (whole : Bool) : Option Nat :=
  match s.stopAfter with
  | none => none
  | some n => if n = 0 then some e.vstart else if whole then none else some ((e.vstart / beat + n) * beat)

/-- Runs an element-wise instruction whose checks are `check` (08:R168-R171): it commits up to a hard pre-emption's stop, a lane disagreement's beat or
the first poisoned element, or completes. -/
def runElems (e : VEnv) (check : Nat → Nat → Except VFail VReady) (s : State) : Out :=
  match checkBanks check e.banks with
  | .error f => trapCheck e f s
  | .ok l =>
    let s := (l.flatMap (fun p => p.2.2.regs.map (fun k => (p.2.1, k)))).foldl (fun acc q => touchW acc q.1 q.2) (s.setVstart e.vstart)
    let s := lanesRead s (l.map (fun p => (p.2.1, p.2.2.reads)))
    let beat := l.foldl (fun n p => Nat.max n p.2.2.beat) 1
    let hit := leastHit (l.map (fun p => bankPoison s s.front.vpoison 1 p.1 p.2.1 p.2.2.pick e.vstart (e.live - e.vstart)))
    let lane := laneHit s e beat
    let cut := (cutElem s e beat (l.any (fun p => p.2.2.whole))).filter (fun n => decide (n < e.live))
    let poisonAt := match hit with | some h => h.elem | none => e.live
    let laneAt := match lane with | some h => if h.1.third then h.2.2 else e.live | none => e.live
    let stop := Nat.min (cut.getD e.live) (Nat.min laneAt poisonAt)
    let s1 := match lane with | some h => if !h.1.third && decide (h.2.2 < stop) then laneBlame s h else s | none => s
    let s1 := l.foldl (fun acc p => applyEdits acc p.2.1 (editElems (s.bank p.2.1) p.2.2.pick e.vstart (stop - e.vstart))) s1
    let s1 := clearPoisonV s1 (ranTo e.vstart stop)
    if cut = some stop then stopVector e (s1.setVstart stop)
    else
      match lane, hit with
      | some h, hit =>
        if h.1.third && decide (laneAt = stop) then laneFatal e h (s1.setVstart stop)
        else match hit with | some p => trapPoison e p p.elem s1 | none => vdone e s1
      | none, some p => trapPoison e p p.elem s1
      | none, none => vdone e s1

/-- What an instruction of the element-wise classes needs in one bank: its plan, from the environment, the state, and the bank. -/
abbrev Planner := VEnv → State → Nat → Nat → Except VFail VPlan

/-- The registers of a plan. -/
def VPlan.regs (p : VPlan) : List (Fin 16) :=
  p.srcs.map (fun r => r.reg) ++ (match p.dst with | .row k _ _ => [k] | .mask _ => [])

/-- The words that a plan's lanes read: the beats of the elements that its sources take below VL (07:R146). -/
def VPlan.reads (e : VEnv) (p : VPlan) : List Reads := p.srcs.map (fun r => (r.reg, beatsOf r.w ((List.range e.vl).map r.idx)))

/-- The elements of a result beat, 2,048 bits over eight lane groups (01:R18, 08:R170). -/
def VPlan.beat (p : VPlan) : Nat := match p.dst with | .row _ w _ => 2048 / w | .mask _ => 2048

/-- Instructions that run to completion once their first result beat is written (08:R170): the destination is a source at another width, a mask is
written, VSPLAT, VIOTA. -/
def VPlan.whole (p : VPlan) (srcs : List VSrc) : Instr → Bool
  | .vsplat _ _ => true
  | .viota _ _ => true
  | _ => match p.dst with
    | .mask _ => true
    | .row k w _ => srcs.any (fun r => decide (r.reg = k ∧ r.w ≠ w))

/-- Runs one element-wise instruction. -/
def runPlan (e : VEnv) (pl : Planner) (s : State) : Out :=
  runElems e (fun j b => (pl e s j b).map (fun p => ⟨pickOne e (s.bank b) p, p.regs, p.reads e, p.beat, p.whole p.srcs e.instr⟩)) s

/-- Runs a complement pair: in each bank I's checks, then J's (02:R42, R43). -/
def runPair (e : VEnv) (pi pj : Planner) (s : State) : Out :=
  runElems e (fun j b =>
    match pi e s j b, pj e s j b with
    | .error f, _ => .error f
    | .ok _, .error f => .error f
    | .ok p, .ok q =>
      let srcs := p.srcs ++ q.srcs
      .ok ⟨pickPair e (s.bank b) p q, p.regs ++ q.regs, p.reads e ++ q.reads e, Nat.max p.beat q.beat, p.whole srcs e.instr || q.whole srcs e.instr⟩) s

/-- Answers a plan when every check of a list passes. -/
def planIf (checks : List (Option VFail)) (p : VPlan) : Except VFail VPlan :=
  match firstFail checks with
  | some f => .error f
  | none => .ok p

/-- The destination tag check of 06:R140. -/
def dstTag (j : Nat) (d : Fin 16) (td f : BitVec 4) : Option VFail := if td = f ∨ td = 0 then none else some (tagFail j d td 0)

/-- The width of a register in an operation of format width `w`: its own, or the operation's for tag 0 (06:R128). -/
def regWidth (t : BitVec 4) (w : Nat) : Nat := if t = 0 then w else tagWidth t

end Sys2Proof.Machine
end

