-- ==== Sys2Proof/Machine/VArith.lean ====
section
/-!
DEFINITION. Element-wise vector instructions: arithmetic, fused operations, division and approximations, compare, logic, shifts, select, conversions,
and the complement pair (08:R168-R198, 02:R41-R44). Each instruction has a planner, which checks one bank and says what an element becomes.
-/

namespace Sys2Proof.Machine

/-! ### Sources of the last operand -/

/-- Source b of an arithmetic instruction (08:R179). -/
inductive BSrc where
  | row (k : Fin 16)
  | x (r : Fin 32)
  | imm (v : BitVec 8)
  | none
  deriving DecidableEq, Repr

/-- The operation format of one source alone: tag 0, a scale and a plane name none (06:R139). -/
def soloFormat (t : BitVec 4) : Option (BitVec 4) := if t = 0 ∨ t = 13 ∨ t = 15 then none else some t

/-- The value of an 8-bit immediate in an operation format (08:R179). -/
def immCode (f : BitVec 4) (v : BitVec 8) : Nat :=
  if tagWidth f ≤ 8 then v.toNat % 2 ^ tagWidth f
  else if isFloatTag f then widen 6 f v.toNat
  else wrapInt (tagWidth f) v.toInt

/-- The value of an 8-bit immediate of a bitwise instruction at a width (08:R192). -/
def immBits (w : Nat) (v : BitVec 8) : Nat := if w ≤ 8 then v.toNat % 2 ^ w else wrapInt w v.toInt

/-- Format, registers and sources of an operation on `a` and `b` (06:R139, 08:R179): the format, the source list, the length checks, and the
operation's second value from the codes read. -/
structure BinForm where
  fmt : BitVec 4
  srcs : List VSrc
  lens : List (Option VFail)
  conv : List Nat → Nat × Nat

/-- Resolves the sources of a binary or single-source operation. -/
def binForm (e : VEnv) (x : Bank) (j : Nat) (a : Fin 16) (b : BSrc) : Except VFail BinForm :=
  let ta := x.w[a].tag
  match b with
  | .row k =>
    let tb := x.w[k].tag
    match opFormat ta tb with
    | none => .error (pairFail j a k ta tb)
    | some f =>
      let w := tagWidth f
      .ok ⟨f, [VSrc.plain a (regWidth ta w) 1, VSrc.plain k (regWidth tb w) 2],
           [lenCheck e j a (regWidth ta w), lenCheck e j k (regWidth tb w)],
           fun c => (widen ta f (c.headD 0), widen tb f ((c.drop 1).headD 0))⟩
  | b =>
    match soloFormat ta with
    | none => .error (tagFail j a ta 1)
    | some f =>
      let v := match b with
        | .x r => (x.getX r).val.toNat % 2 ^ tagWidth f
        | .imm i => immCode f i
        | _ => 0
      .ok ⟨f, [VSrc.plain a (tagWidth f) 1], [lenCheck e j a (tagWidth f)], fun c => (c.headD 0, v)⟩

/-- Arithmetic on two sources (08:R178-R182, R185, R187): an integer operation, a floating one; either may be missing, which is a tag
mismatch. -/
def planBin (io : Option IOp) (fo : Option FOp) (rm : Nat) (d a : Fin 16) (b : BSrc) (m : Fin 16) : Planner := fun e s j bk =>
  let x := s.bank bk
  match binForm e x j a b with
  | .error f => .error f
  | .ok z =>
    let ta := x.w[a].tag
    let td := x.w[d].tag
    let w := tagWidth z.fmt
    let go (run : Nat → List Nat → BitVec 32 → Rounded) : Except VFail VPlan :=
      planIf ([dstTag j d td z.fmt, lenCheck e j d (regWidth td w)] ++ z.lens ++ [wpCheck e s j bk d])
        ⟨granule w, some m, z.srcs, VDst.plain d (regWidth td w), run⟩
    if isFloatTag z.fmt then
      match fo with
      | none => .error (tagFail j a ta 1)
      | some o => go (fun _ c l => fbin o z.fmt (s.rctl rm false) l (z.conv c).1 (z.conv c).2)
    else
      match io with
      | none => .error (tagFail j a ta 1)
      | some o => go (fun _ c l => plainRes (ibin o z.fmt (z.conv c).1 (z.conv c).2) l)

/-- One-source operations with an integer and a floating result; either may be missing (08:R180, R181, R187, R188). -/
def planSolo (io : Option (BitVec 4 → Nat → Nat)) (fo : Option (BitVec 4 → RCtl → BitVec 32 → Nat → Rounded)) (rm : Nat) (d a m : Fin 16) :
    Planner := fun e s j bk =>
  let x := s.bank bk
  match binForm e x j a .none with
  | .error f => .error f
  | .ok z =>
    let td := x.w[d].tag
    let w := tagWidth z.fmt
    let go (run : Nat → List Nat → BitVec 32 → Rounded) : Except VFail VPlan :=
      planIf ([dstTag j d td z.fmt, lenCheck e j d (regWidth td w)] ++ z.lens ++ [wpCheck e s j bk d])
        ⟨granule w, some m, z.srcs, VDst.plain d (regWidth td w), run⟩
    if isFloatTag z.fmt then
      match fo with
      | none => .error (tagFail j a x.w[a].tag 1)
      | some o => go (fun _ c l => o z.fmt (s.rctl rm false) l (c.headD 0))
    else
      match io with
      | none => .error (tagFail j a x.w[a].tag 1)
      | some o => go (fun _ c l => plainRes (o z.fmt (c.headD 0)) l)

/-- VABS and VNEG of an integer (08:R180). -/
def absInt (t : BitVec 4) (c : Nat) : Nat := intCode t ((intValue t c).natAbs : Int)
def negInt (t : BitVec 4) (c : Nat) : Nat := intCode t (-(intValue t c))

/-- Fused operations (08:R184): the format of a and b, then that format with c. -/
def planFma (sub : Bool) (rm : Nat) (d a : Fin 16) (b : BSrc) (c m : Fin 16) : Planner := fun e s j bk =>
  let x := s.bank bk
  let ta := x.w[a].tag
  let tc := x.w[c].tag
  let td := x.w[d].tag
  match binForm e x j a b with
  | .error f => .error f
  | .ok z =>
    match opFormat z.fmt tc with
    | none => .error (tagFail j c tc 3)
    | some f =>
      let w := tagWidth f
      let n := z.srcs.length
      let run : Nat → List Nat → BitVec 32 → Rounded := fun _ k l =>
        let va := widen z.fmt f (z.conv k).1
        let vb := widen z.fmt f (z.conv k).2
        let vc := widen tc f ((k[n]?).getD 0)
        if isFloatTag f then ffma sub f (s.rctl rm false) l va vb vc
        else
          let p := intValue f va * intValue f vb
          plainRes (intCode f (if sub then p - intValue f vc else p + intValue f vc)) l
      planIf ([dstTag j d td f, lenCheck e j d (regWidth td w)] ++ z.lens ++ [lenCheck e j c (regWidth tc w), wpCheck e s j bk d])
        ⟨granule w, some m, z.srcs ++ [VSrc.plain c (regWidth tc w) 3], VDst.plain d (regWidth td w), run⟩

/-- Comparisons (08:R189, R190): the result is a mask; a 4-bit format is a tag mismatch (07:R152). -/
def planCmp (k : FCond) (d a b m : Fin 16) : Planner := fun e s j bk =>
  let x := s.bank bk
  match binForm e x j a (.row b) with
  | .error f => .error f
  | .ok z =>
    if tagWidth z.fmt = 4 then .error (tagFail j a x.w[a].tag 1)
    else
      planIf z.lens ⟨granule (tagWidth z.fmt), some m, z.srcs, .mask d, fun _ c l =>
        let r := cmpCode k z.fmt s.front.rmode.ftz (z.conv c).1 (z.conv c).2
        ⟨b2n r.1, r.2, l⟩⟩

/-- Bitwise operations at the width of VLCFG.FMT (08:R191, R192): no tag is checked. -/
def planBits (o : BOp) (d a : Fin 16) (b : BSrc) (m : Fin 16) : Planner := fun e s j bk =>
  let w := fmtWidth e.ctx.vlcfg.fmt
  let two := match b with | .row k => [k] | _ => []
  let v := match b with | .imm i => immBits w i | _ => 0
  planIf ([lenCheck e j d w, lenCheck e j a w] ++ two.map (fun k => lenCheck e j k w) ++ [wpCheck e s j bk d])
    ⟨granule w, some m, VSrc.plain a w 1 :: two.map (fun k => VSrc.plain k w 2), VDst.plain d w,
     fun _ c l => plainRes (o.run w (c.headD 0) ((c.drop 1).headD v)) l⟩

/-- The format a shift reads wa in: its integer tag, or tag 0 at the width of VLCFG.FMT (08:R193). -/
def shiftTag (t : BitVec 4) : Bool := t = 0 || isIntTag t

/-- Shifts (08:R193): the format comes from wa, the count from wb or the immediate, unsigned. -/
def planShift (o : ShOp) (d a : Fin 16) (b : BSrc) (m : Fin 16) : Planner := fun e s j bk =>
  let x := s.bank bk
  let ta := x.w[a].tag
  let td := x.w[d].tag
  let w := if ta = 0 then fmtWidth e.ctx.vlcfg.fmt else tagWidth ta
  let unsgn := if ta = 0 then e.ctx.vlcfg.fmt = 2 else ta = 2
  let two := match b with | .row k => [k] | _ => []
  let v := match b with | .imm i => i.toNat | _ => 0
  let wide (k : Fin 16) : Nat := regWidth x.w[k].tag w
  planIf ([if shiftTag ta then none else some (tagFail j a ta 1), dstTag j d td ta] ++
      two.map (fun k => if shiftTag x.w[k].tag then none else some (tagFail j k x.w[k].tag 2)) ++
      [lenCheck e j d (regWidth td w), lenCheck e j a w] ++ two.map (fun k => lenCheck e j k (wide k)) ++ [wpCheck e s j bk d])
    ⟨granule w, some m, VSrc.plain a w 1 :: two.map (fun k => VSrc.plain k (wide k) 2), VDst.plain d (regWidth td w),
     fun _ c l =>
       let z := c.headD 0
       plainRes (o.run w z ((c.drop 1).headD v) (!unsgn && decide (z / 2 ^ (w - 1) % 2 = 1))) l⟩

/-- VSEL (08:R194): every element is active; m selects. -/
def planSel (d a b m : Fin 16) : Planner := fun e s j bk =>
  let x := s.bank bk
  let w := fmtWidth e.ctx.vlcfg.fmt
  planIf [lenCheck e j d w, lenCheck e j a w, lenCheck e j b w, wpCheck e s j bk d]
    ⟨granule w, none, [VSrc.plain a w 1, VSrc.plain b w 2], VDst.plain d w,
     fun i c l => plainRes (if maskBit (x.getM m) (i / granule w) then c.headD 0 else (c.drop 1).headD 0) l⟩

/-- The part of a conversion (08:R196, R197): wide register's width, element offsets of the source and of the destination, and the part check,
which names the narrow register, or the destination when the widths are equal. -/
structure PartForm where
  wide : Nat
  offA : Nat
  offD : Nat
  check : Option VFail

def partForm (e : VEnv) (j : Nat) (a : Fin 16) (aw : Nat) (d : Fin 16) (dw : Nat) (part : Nat) : PartForm :=
  let wide := if aw < dw then dw else aw
  let narrow := if aw < dw then aw else dw
  let o := part * capOf wide
  ⟨wide, if aw < dw then o else 0, if dw < aw then o else 0,
   if wide / narrow ≤ part then some (vlFail j (if aw < dw then a else d).val e.vl) else none⟩

/-- VCVT (08:R195-R197). -/
def planCvt (d a : Fin 16) (i : BitVec 8) (rm : Nat) (sat : Bool) (m : Fin 16) : Planner := fun e s j bk =>
  let x := s.bank bk
  let ta := x.w[a].tag
  let td := x.w[d].tag
  let bad (t : BitVec 4) : Bool := t = 0 || t = 15
  let aw := tagWidth ta
  let dw := tagWidth td
  let p := partForm e j a aw d dw (i.toNat % 16)
  planIf [if bad ta then some (tagFail j a ta 1) else none, if bad td then some (tagFail j d td 0) else none,
      lenCheck e j d dw, lenCheck e j a aw, p.check, wpCheck e s j bk d]
    ⟨granule p.wide, some m, [⟨a, aw, 1, fun n => n + p.offA⟩], .row d dw (fun n => n + p.offD),
     fun _ c l => convert ta td (s.rctl rm sat) l (c.headD 0)⟩

/-- A value times 2^k. -/
def FReal.scale (x : FReal) (k : Int) : FReal :=
  match x with
  | .fin n m e s => .fin n m (e + k) s
  | y => y

/-- The MX data tags (08:R198). -/
def isMxTag (t : BitVec 4) : Bool := t = 1 || t = 6 || t = 7 || t = 8

/-- VCVT.MX and VQNT.MX (08:R198). `qnt` is the second: its data register is the destination. -/
def planMx (qnt : Bool) (d a b : Fin 16) (i : BitVec 8) (rm : Nat) (sat : Bool) (m : Fin 16) : Planner := fun e s j bk =>
  let x := s.bank bk
  let ta := x.w[a].tag
  let tb := x.w[b].tag
  let td := x.w[d].tag
  let okA := if qnt then isFloatTag ta else isMxTag ta
  let okD := if qnt then isMxTag td else isFloatTag td
  let aw := tagWidth ta
  let dw := tagWidth td
  let p := partForm e j a aw d dw (i.toNat % 16)
  let off := if qnt then p.offD else p.offA
  let bl := 2 ^ e.ctx.vlcfg.blk.toNat
  let k6 : Int := if (if qnt then td else ta) = 1 then 6 else 0
  planIf [if okA then none else some (tagFail j a ta 1), if tb = 13 then none else some (tagFail j b tb 2),
      if okD then none else some (tagFail j d td 0),
      if 2048 < (i.toNat % 16 * capOf (Nat.max aw dw) + e.vl + bl - 1) / bl then some (vlFail j 0 e.vl) else none, lenCheck e j d dw, lenCheck e j a aw,
      p.check, wpCheck e s j bk d]
    ⟨granule p.wide, some m, [⟨a, aw, 1, fun n => n + p.offA⟩, ⟨b, 8, 2, fun n => (n + off) / bl⟩], .row d dw (fun n => n + p.offD),
     fun _ c l =>
       let sc : Nat := (c.drop 1).headD 0
       let k : Int := (sc : Int) - 127
       let v := if sc = 255 then FReal.nan false
         else (valueOf ta s.front.rmode.ftz (c.headD 0)).scale (if qnt then -k + k6 else k - k6)
       if isIntTag td then roundInt td (s.rctl rm sat) l v else roundTo td (s.rctl rm sat) l v⟩

/-! ### Planners and meanings, one of each per instruction -/

/-- Runs a lone instruction that may be half of a complement pair: alone it must have cp = 0 (02:R41). -/
def runLone (i : Instr) (len : Nat) (cp : Bool) (p : Planner) (s : State) : Out :=
  if cp then illegal i s else runPlan (s.venv i len 0 0) p s

/-- vaddVV (08:R178-R182): the sum. -/
def planVaddVV (d a b m : Fin 16) : Planner := planBin (some .add) (some .add) 0 d a (.row b) m

/-- vaddVV in every executing bank (08:R178-R182). -/
def execVaddVV (d a b m : Fin 16) (cp : Bool) (s : State) : Out :=
  runLone (.vaddVV d a b m cp) 4 cp (planVaddVV d a b m) s

/-- vsubVV (08:R178-R182): the difference. -/
def planVsubVV (d a b m : Fin 16) : Planner := planBin (some .sub) (some .sub) 0 d a (.row b) m

/-- vsubVV in every executing bank (08:R178-R182). -/
def execVsubVV (d a b m : Fin 16) (cp : Bool) (s : State) : Out :=
  runLone (.vsubVV d a b m cp) 4 cp (planVsubVV d a b m) s

/-- vmulVV (08:R178-R182): the product. -/
def planVmulVV (d a b m : Fin 16) : Planner := planBin (some .mul) (some .mul) 0 d a (.row b) m

/-- vmulVV in every executing bank (08:R178-R182). -/
def execVmulVV (d a b m : Fin 16) (cp : Bool) (s : State) : Out :=
  runLone (.vmulVV d a b m cp) 4 cp (planVmulVV d a b m) s

/-- vminVV (08:R178-R182): the lesser. -/
def planVminVV (d a b m : Fin 16) : Planner := planBin (some .min) (some .min) 0 d a (.row b) m

/-- vminVV in every executing bank (08:R178-R182). -/
def execVminVV (d a b m : Fin 16) (cp : Bool) (s : State) : Out :=
  runLone (.vminVV d a b m cp) 4 cp (planVminVV d a b m) s

/-- vmaxVV (08:R178-R182): the greater. -/
def planVmaxVV (d a b m : Fin 16) : Planner := planBin (some .max) (some .max) 0 d a (.row b) m

/-- vmaxVV in every executing bank (08:R178-R182). -/
def execVmaxVV (d a b m : Fin 16) (cp : Bool) (s : State) : Out :=
  runLone (.vmaxVV d a b m cp) 4 cp (planVmaxVV d a b m) s

/-- vabs (08:R180, R181): the magnitude. -/
def planVabs (d a m : Fin 16) : Planner := planSolo (some absInt) (some (fun t c l v => fsign false t c.ftz l v)) 0 d a m

/-- vabs in every executing bank (08:R180, R181). -/
def execVabs (d a m : Fin 16) (cp : Bool) (s : State) : Out :=
  runLone (.vabs d a m cp) 4 cp (planVabs d a m) s

/-- vneg (08:R180, R181): the negation. -/
def planVneg (d a m : Fin 16) : Planner := planSolo (some negInt) (some (fun t c l v => fsign true t c.ftz l v)) 0 d a m

/-- vneg in every executing bank (08:R180, R181). -/
def execVneg (d a m : Fin 16) (cp : Bool) (s : State) : Out :=
  runLone (.vneg d a m cp) 4 cp (planVneg d a m) s

/-- vaddSVV (08:R180): the sum clamped to the format; a floating format is a tag mismatch. -/
def planVaddSVV (d a b m : Fin 16) : Planner := planBin (some .adds) none 0 d a (.row b) m

/-- vaddSVV in every executing bank (08:R180). -/
def execVaddSVV (d a b m : Fin 16) (cp : Bool) (s : State) : Out :=
  runLone (.vaddSVV d a b m cp) 4 cp (planVaddSVV d a b m) s

/-- vsubSVV (08:R180): the difference clamped to the format; a floating format is a tag mismatch. -/
def planVsubSVV (d a b m : Fin 16) : Planner := planBin (some .subs) none 0 d a (.row b) m

/-- vsubSVV in every executing bank (08:R180). -/
def execVsubSVV (d a b m : Fin 16) (cp : Bool) (s : State) : Out :=
  runLone (.vsubSVV d a b m cp) 4 cp (planVsubSVV d a b m) s

/-- vaddVX (08:R179-R182), b from an x register: the sum. -/
def planVaddVX (d a : Fin 16) (x : Fin 32) (m : Fin 16) : Planner := planBin (some .add) (some .add) 0 d a (.x x) m

/-- vaddVX in every executing bank (08:R179-R182). -/
def execVaddVX (d a : Fin 16) (x : Fin 32) (m : Fin 16) (cp : Bool) (s : State) : Out :=
  runLone (.vaddVX d a x m cp) 4 cp (planVaddVX d a x m) s

/-- vsubVX (08:R179-R182), b from an x register: the difference. -/
def planVsubVX (d a : Fin 16) (x : Fin 32) (m : Fin 16) : Planner := planBin (some .sub) (some .sub) 0 d a (.x x) m

/-- vsubVX in every executing bank (08:R179-R182). -/
def execVsubVX (d a : Fin 16) (x : Fin 32) (m : Fin 16) (cp : Bool) (s : State) : Out :=
  runLone (.vsubVX d a x m cp) 4 cp (planVsubVX d a x m) s

/-- vmulVX (08:R179-R182), b from an x register: the product. -/
def planVmulVX (d a : Fin 16) (x : Fin 32) (m : Fin 16) : Planner := planBin (some .mul) (some .mul) 0 d a (.x x) m

/-- vmulVX in every executing bank (08:R179-R182). -/
def execVmulVX (d a : Fin 16) (x : Fin 32) (m : Fin 16) (cp : Bool) (s : State) : Out :=
  runLone (.vmulVX d a x m cp) 4 cp (planVmulVX d a x m) s

/-- vminVX (08:R179-R182), b from an x register: the lesser. -/
def planVminVX (d a : Fin 16) (x : Fin 32) (m : Fin 16) : Planner := planBin (some .min) (some .min) 0 d a (.x x) m

/-- vminVX in every executing bank (08:R179-R182). -/
def execVminVX (d a : Fin 16) (x : Fin 32) (m : Fin 16) (cp : Bool) (s : State) : Out :=
  runLone (.vminVX d a x m cp) 4 cp (planVminVX d a x m) s

/-- vmaxVX (08:R179-R182), b from an x register: the greater. -/
def planVmaxVX (d a : Fin 16) (x : Fin 32) (m : Fin 16) : Planner := planBin (some .max) (some .max) 0 d a (.x x) m

/-- vmaxVX in every executing bank (08:R179-R182). -/
def execVmaxVX (d a : Fin 16) (x : Fin 32) (m : Fin 16) (cp : Bool) (s : State) : Out :=
  runLone (.vmaxVX d a x m cp) 4 cp (planVmaxVX d a x m) s

/-- vaddSVX (08:R179, R180), b from an x register: the sum clamped to the format. -/
def planVaddSVX (d a : Fin 16) (x : Fin 32) (m : Fin 16) : Planner := planBin (some .adds) none 0 d a (.x x) m

/-- vaddSVX in every executing bank (08:R179, R180). -/
def execVaddSVX (d a : Fin 16) (x : Fin 32) (m : Fin 16) (cp : Bool) (s : State) : Out :=
  runLone (.vaddSVX d a x m cp) 4 cp (planVaddSVX d a x m) s

/-- vsubSVX (08:R179, R180), b from an x register: the difference clamped to the format. -/
def planVsubSVX (d a : Fin 16) (x : Fin 32) (m : Fin 16) : Planner := planBin (some .subs) none 0 d a (.x x) m

/-- vsubSVX in every executing bank (08:R179, R180). -/
def execVsubSVX (d a : Fin 16) (x : Fin 32) (m : Fin 16) (cp : Bool) (s : State) : Out :=
  runLone (.vsubSVX d a x m cp) 4 cp (planVsubSVX d a x m) s

/-- vaddVI (08:R179-R182), b an immediate: the sum. -/
def planVaddVI (d a : Fin 16) (i : BitVec 8) (m : Fin 16) : Planner := planBin (some .add) (some .add) 0 d a (.imm i) m

/-- vaddVI in every executing bank (08:R179-R182). -/
def execVaddVI (d a : Fin 16) (i : BitVec 8) (m : Fin 16) (cp : Bool) (s : State) : Out :=
  runLone (.vaddVI d a i m cp) 4 cp (planVaddVI d a i m) s

/-- vsubVI (08:R179-R182), b an immediate: the difference. -/
def planVsubVI (d a : Fin 16) (i : BitVec 8) (m : Fin 16) : Planner := planBin (some .sub) (some .sub) 0 d a (.imm i) m

/-- vsubVI in every executing bank (08:R179-R182). -/
def execVsubVI (d a : Fin 16) (i : BitVec 8) (m : Fin 16) (cp : Bool) (s : State) : Out :=
  runLone (.vsubVI d a i m cp) 4 cp (planVsubVI d a i m) s

/-- vrsub (08:R179-R181): imm - a. -/
def planVrsub (d a : Fin 16) (i : BitVec 8) (m : Fin 16) : Planner := planBin (some .rsub) (some .rsub) 0 d a (.imm i) m

/-- vrsub in every executing bank (08:R179-R181). -/
def execVrsub (d a : Fin 16) (i : BitVec 8) (m : Fin 16) (cp : Bool) (s : State) : Out :=
  runLone (.vrsub d a i m cp) 4 cp (planVrsub d a i m) s

/-- vmulVI (08:R179-R182), b an immediate: the product. -/
def planVmulVI (d a : Fin 16) (i : BitVec 8) (m : Fin 16) : Planner := planBin (some .mul) (some .mul) 0 d a (.imm i) m

/-- vmulVI in every executing bank (08:R179-R182). -/
def execVmulVI (d a : Fin 16) (i : BitVec 8) (m : Fin 16) (cp : Bool) (s : State) : Out :=
  runLone (.vmulVI d a i m cp) 4 cp (planVmulVI d a i m) s

/-- vminVI (08:R179-R182), b an immediate: the lesser. -/
def planVminVI (d a : Fin 16) (i : BitVec 8) (m : Fin 16) : Planner := planBin (some .min) (some .min) 0 d a (.imm i) m

/-- vminVI in every executing bank (08:R179-R182). -/
def execVminVI (d a : Fin 16) (i : BitVec 8) (m : Fin 16) (cp : Bool) (s : State) : Out :=
  runLone (.vminVI d a i m cp) 4 cp (planVminVI d a i m) s

/-- vmaxVI (08:R179-R182), b an immediate: the greater. -/
def planVmaxVI (d a : Fin 16) (i : BitVec 8) (m : Fin 16) : Planner := planBin (some .max) (some .max) 0 d a (.imm i) m

/-- vmaxVI in every executing bank (08:R179-R182). -/
def execVmaxVI (d a : Fin 16) (i : BitVec 8) (m : Fin 16) (cp : Bool) (s : State) : Out :=
  runLone (.vmaxVI d a i m cp) 4 cp (planVmaxVI d a i m) s

/-- vsllVI (08:R193): shifted by the immediate. -/
def planVsllVI (d a : Fin 16) (i : BitVec 8) (m : Fin 16) : Planner := planShift .sll d a (.imm i) m

/-- vsllVI in every executing bank (08:R193). -/
def execVsllVI (d a : Fin 16) (i : BitVec 8) (m : Fin 16) (cp : Bool) (s : State) : Out :=
  runLone (.vsllVI d a i m cp) 4 cp (planVsllVI d a i m) s

/-- vsrlVI (08:R193): shifted by the immediate. -/
def planVsrlVI (d a : Fin 16) (i : BitVec 8) (m : Fin 16) : Planner := planShift .srl d a (.imm i) m

/-- vsrlVI in every executing bank (08:R193). -/
def execVsrlVI (d a : Fin 16) (i : BitVec 8) (m : Fin 16) (cp : Bool) (s : State) : Out :=
  runLone (.vsrlVI d a i m cp) 4 cp (planVsrlVI d a i m) s

/-- vsraVI (08:R193): shifted by the immediate. -/
def planVsraVI (d a : Fin 16) (i : BitVec 8) (m : Fin 16) : Planner := planShift .sra d a (.imm i) m

/-- vsraVI in every executing bank (08:R193). -/
def execVsraVI (d a : Fin 16) (i : BitVec 8) (m : Fin 16) (cp : Bool) (s : State) : Out :=
  runLone (.vsraVI d a i m cp) 4 cp (planVsraVI d a i m) s

/-- vandVI (08:R192): with the immediate. -/
def planVandVI (d a : Fin 16) (i : BitVec 8) (m : Fin 16) : Planner := planBits .and d a (.imm i) m

/-- vandVI in every executing bank (08:R192). -/
def execVandVI (d a : Fin 16) (i : BitVec 8) (m : Fin 16) (cp : Bool) (s : State) : Out :=
  runLone (.vandVI d a i m cp) 4 cp (planVandVI d a i m) s

/-- vorVI (08:R192): with the immediate. -/
def planVorVI (d a : Fin 16) (i : BitVec 8) (m : Fin 16) : Planner := planBits .or d a (.imm i) m

/-- vorVI in every executing bank (08:R192). -/
def execVorVI (d a : Fin 16) (i : BitVec 8) (m : Fin 16) (cp : Bool) (s : State) : Out :=
  runLone (.vorVI d a i m cp) 4 cp (planVorVI d a i m) s

/-- vxorVI (08:R192): with the immediate. -/
def planVxorVI (d a : Fin 16) (i : BitVec 8) (m : Fin 16) : Planner := planBits .xor d a (.imm i) m

/-- vxorVI in every executing bank (08:R192). -/
def execVxorVI (d a : Fin 16) (i : BitVec 8) (m : Fin 16) (cp : Bool) (s : State) : Out :=
  runLone (.vxorVI d a i m cp) 4 cp (planVxorVI d a i m) s

/-- vfma (08:R184): a x b + c, rounded once. -/
def planVfma (d a b c : Fin 16) (rm : Fin 8) (m : Fin 16) : Planner := planFma false rm.val d a (.row b) c m

/-- vfma in every executing bank (08:R184). -/
def execVfma (d a b c : Fin 16) (rm : Fin 8) (m : Fin 16) (cp : Bool) (s : State) : Out :=
  runLone (.vfma d a b c rm m cp) 8 cp (planVfma d a b c rm m) s

/-- vfms (08:R184): a x b - c, rounded once. -/
def planVfms (d a b c : Fin 16) (rm : Fin 8) (m : Fin 16) : Planner := planFma true rm.val d a (.row b) c m

/-- vfms in every executing bank (08:R184). -/
def execVfms (d a b c : Fin 16) (rm : Fin 8) (m : Fin 16) (cp : Bool) (s : State) : Out :=
  runLone (.vfms d a b c rm m cp) 8 cp (planVfms d a b c rm m) s

/-- vfmaX (08:R184), b from an x register. -/
def planVfmaX (d a : Fin 16) (x : Fin 32) (c : Fin 16) (rm : Fin 8) (m : Fin 16) : Planner := planFma false rm.val d a (.x x) c m

/-- vfmaX in every executing bank (08:R184). -/
def execVfmaX (d a : Fin 16) (x : Fin 32) (c : Fin 16) (rm : Fin 8) (m : Fin 16) (cp : Bool) (s : State) : Out :=
  runLone (.vfmaX d a x c rm m cp) 8 cp (planVfmaX d a x c rm m) s

/-- vfmsX (08:R184), b from an x register. -/
def planVfmsX (d a : Fin 16) (x : Fin 32) (c : Fin 16) (rm : Fin 8) (m : Fin 16) : Planner := planFma true rm.val d a (.x x) c m

/-- vfmsX in every executing bank (08:R184). -/
def execVfmsX (d a : Fin 16) (x : Fin 32) (c : Fin 16) (rm : Fin 8) (m : Fin 16) (cp : Bool) (s : State) : Out :=
  runLone (.vfmsX d a x c rm m cp) 8 cp (planVfmsX d a x c rm m) s

/-- vcvt (08:R195-R197): conversion between the tags' formats. -/
def planVcvt (d a : Fin 16) (i : BitVec 8) (rm : Fin 8) (sat : Bool) (m : Fin 16) : Planner := planCvt d a i rm.val sat m

/-- vcvt in every executing bank (08:R195-R197). -/
def execVcvt (d a : Fin 16) (i : BitVec 8) (rm : Fin 8) (sat : Bool) (m : Fin 16) (cp : Bool) (s : State) : Out :=
  runLone (.vcvt d a i rm sat m cp) 8 cp (planVcvt d a i rm sat m) s

/-- vcvtMX (08:R198): conversion of MX data. -/
def planVcvtMX (d a b : Fin 16) (i : BitVec 8) (rm : Fin 8) (sat : Bool) (m : Fin 16) : Planner := planMx false d a b i rm.val sat m

/-- vcvtMX in every executing bank (08:R198). -/
def execVcvtMX (d a b : Fin 16) (i : BitVec 8) (rm : Fin 8) (sat : Bool) (m : Fin 16) (cp : Bool) (s : State) : Out :=
  runLone (.vcvtMX d a b i rm sat m cp) 8 cp (planVcvtMX d a b i rm sat m) s

/-- vqntMX (08:R198): conversion to MX data. -/
def planVqntMX (d a b : Fin 16) (i : BitVec 8) (rm : Fin 8) (sat : Bool) (m : Fin 16) : Planner := planMx true d a b i rm.val sat m

/-- vqntMX in every executing bank (08:R198). -/
def execVqntMX (d a b : Fin 16) (i : BitVec 8) (rm : Fin 8) (sat : Bool) (m : Fin 16) (cp : Bool) (s : State) : Out :=
  runLone (.vqntMX d a b i rm sat m cp) 8 cp (planVqntMX d a b i rm sat m) s

/-- vaddRm (08:R185): with explicit rounding; integers are a tag mismatch. -/
def planVaddRm (d a b : Fin 16) (rm : Fin 8) (m : Fin 16) : Planner := planBin none (some .add) rm.val d a (.row b) m

/-- vaddRm in every executing bank (08:R185). -/
def execVaddRm (d a b : Fin 16) (rm : Fin 8) (m : Fin 16) (cp : Bool) (s : State) : Out :=
  runLone (.vaddRm d a b rm m cp) 8 cp (planVaddRm d a b rm m) s

/-- vsubRm (08:R185): with explicit rounding; integers are a tag mismatch. -/
def planVsubRm (d a b : Fin 16) (rm : Fin 8) (m : Fin 16) : Planner := planBin none (some .sub) rm.val d a (.row b) m

/-- vsubRm in every executing bank (08:R185). -/
def execVsubRm (d a b : Fin 16) (rm : Fin 8) (m : Fin 16) (cp : Bool) (s : State) : Out :=
  runLone (.vsubRm d a b rm m cp) 8 cp (planVsubRm d a b rm m) s

/-- vmulRm (08:R185): with explicit rounding; integers are a tag mismatch. -/
def planVmulRm (d a b : Fin 16) (rm : Fin 8) (m : Fin 16) : Planner := planBin none (some .mul) rm.val d a (.row b) m

/-- vmulRm in every executing bank (08:R185). -/
def execVmulRm (d a b : Fin 16) (rm : Fin 8) (m : Fin 16) (cp : Bool) (s : State) : Out :=
  runLone (.vmulRm d a b rm m cp) 8 cp (planVmulRm d a b rm m) s

/-- vcmpEq (08:R189, R190). -/
def planVcmpEq (d a b m : Fin 16) : Planner := planCmp .eq d a b m

/-- vcmpEq in every executing bank (08:R189, R190). -/
def execVcmpEq (d a b m : Fin 16) (s : State) : Out :=
  runPlan (s.venv (.vcmpEq d a b m) 4 0 0) (planVcmpEq d a b m) s

/-- vcmpNe (08:R189, R190). -/
def planVcmpNe (d a b m : Fin 16) : Planner := planCmp .ne d a b m

/-- vcmpNe in every executing bank (08:R189, R190). -/
def execVcmpNe (d a b m : Fin 16) (s : State) : Out :=
  runPlan (s.venv (.vcmpNe d a b m) 4 0 0) (planVcmpNe d a b m) s

/-- vcmpLt (08:R189, R190). -/
def planVcmpLt (d a b m : Fin 16) : Planner := planCmp .lt d a b m

/-- vcmpLt in every executing bank (08:R189, R190). -/
def execVcmpLt (d a b m : Fin 16) (s : State) : Out :=
  runPlan (s.venv (.vcmpLt d a b m) 4 0 0) (planVcmpLt d a b m) s

/-- vcmpLe (08:R189, R190). -/
def planVcmpLe (d a b m : Fin 16) : Planner := planCmp .le d a b m

/-- vcmpLe in every executing bank (08:R189, R190). -/
def execVcmpLe (d a b m : Fin 16) (s : State) : Out :=
  runPlan (s.venv (.vcmpLe d a b m) 4 0 0) (planVcmpLe d a b m) s

/-- vcmpGt (08:R189, R190). -/
def planVcmpGt (d a b m : Fin 16) : Planner := planCmp .gt d a b m

/-- vcmpGt in every executing bank (08:R189, R190). -/
def execVcmpGt (d a b m : Fin 16) (s : State) : Out :=
  runPlan (s.venv (.vcmpGt d a b m) 4 0 0) (planVcmpGt d a b m) s

/-- vcmpGe (08:R189, R190). -/
def planVcmpGe (d a b m : Fin 16) : Planner := planCmp .ge d a b m

/-- vcmpGe in every executing bank (08:R189, R190). -/
def execVcmpGe (d a b m : Fin 16) (s : State) : Out :=
  runPlan (s.venv (.vcmpGe d a b m) 4 0 0) (planVcmpGe d a b m) s

/-- vcmpUn (08:R189, R190). -/
def planVcmpUn (d a b m : Fin 16) : Planner := planCmp .un d a b m

/-- vcmpUn in every executing bank (08:R189, R190). -/
def execVcmpUn (d a b m : Fin 16) (s : State) : Out :=
  runPlan (s.venv (.vcmpUn d a b m) 4 0 0) (planVcmpUn d a b m) s

/-- vcmpOr (08:R189, R190). -/
def planVcmpOr (d a b m : Fin 16) : Planner := planCmp .or d a b m

/-- vcmpOr in every executing bank (08:R189, R190). -/
def execVcmpOr (d a b m : Fin 16) (s : State) : Out :=
  runPlan (s.venv (.vcmpOr d a b m) 4 0 0) (planVcmpOr d a b m) s

/-- vandVV (08:R191, R192). -/
def planVandVV (d a b m : Fin 16) : Planner := planBits .and d a (.row b) m

/-- vandVV in every executing bank (08:R191, R192). -/
def execVandVV (d a b m : Fin 16) (cp : Bool) (s : State) : Out :=
  runLone (.vandVV d a b m cp) 4 cp (planVandVV d a b m) s

/-- vorVV (08:R191, R192). -/
def planVorVV (d a b m : Fin 16) : Planner := planBits .or d a (.row b) m

/-- vorVV in every executing bank (08:R191, R192). -/
def execVorVV (d a b m : Fin 16) (cp : Bool) (s : State) : Out :=
  runLone (.vorVV d a b m cp) 4 cp (planVorVV d a b m) s

/-- vxorVV (08:R191, R192). -/
def planVxorVV (d a b m : Fin 16) : Planner := planBits .xor d a (.row b) m

/-- vxorVV in every executing bank (08:R191, R192). -/
def execVxorVV (d a b m : Fin 16) (cp : Bool) (s : State) : Out :=
  runLone (.vxorVV d a b m cp) 4 cp (planVxorVV d a b m) s

/-- vandn (08:R191, R192): a AND NOT b. -/
def planVandn (d a b m : Fin 16) : Planner := planBits .andn d a (.row b) m

/-- vandn in every executing bank (08:R191, R192). -/
def execVandn (d a b m : Fin 16) (cp : Bool) (s : State) : Out :=
  runLone (.vandn d a b m cp) 4 cp (planVandn d a b m) s

/-- vnot (08:R191, R192). -/
def planVnot (d a m : Fin 16) : Planner := planBits .not d a .none m

/-- vnot in every executing bank (08:R191, R192). -/
def execVnot (d a m : Fin 16) (cp : Bool) (s : State) : Out :=
  runLone (.vnot d a m cp) 4 cp (planVnot d a m) s

/-- vsllVV (08:R193): shifted by the elements of wb. -/
def planVsllVV (d a b m : Fin 16) : Planner := planShift .sll d a (.row b) m

/-- vsllVV in every executing bank (08:R193). -/
def execVsllVV (d a b m : Fin 16) (cp : Bool) (s : State) : Out :=
  runLone (.vsllVV d a b m cp) 4 cp (planVsllVV d a b m) s

/-- vsrlVV (08:R193): shifted by the elements of wb. -/
def planVsrlVV (d a b m : Fin 16) : Planner := planShift .srl d a (.row b) m

/-- vsrlVV in every executing bank (08:R193). -/
def execVsrlVV (d a b m : Fin 16) (cp : Bool) (s : State) : Out :=
  runLone (.vsrlVV d a b m cp) 4 cp (planVsrlVV d a b m) s

/-- vsraVV (08:R193): shifted by the elements of wb. -/
def planVsraVV (d a b m : Fin 16) : Planner := planShift .sra d a (.row b) m

/-- vsraVV in every executing bank (08:R193). -/
def execVsraVV (d a b m : Fin 16) (cp : Bool) (s : State) : Out :=
  runLone (.vsraVV d a b m cp) 4 cp (planVsraVV d a b m) s

/-- vsel (08:R194): by the mask, a or b. -/
def planVsel (d a b m : Fin 16) : Planner := planSel d a b m

/-- vsel in every executing bank (08:R194). -/
def execVsel (d a b m : Fin 16) (s : State) : Out :=
  runPlan (s.venv (.vsel d a b m) 4 0 0) (planVsel d a b m) s

/-- vdiv (08:R187). -/
def planVdiv (d a b : Fin 16) (rm : Fin 8) (m : Fin 16) : Planner := planBin (some .div) (some .div) rm.val d a (.row b) m

/-- vdiv in every executing bank (08:R187). -/
def execVdiv (d a b : Fin 16) (rm : Fin 8) (m : Fin 16) (s : State) : Out :=
  runPlan (s.venv (.vdiv d a b rm m) 8 0 0) (planVdiv d a b rm m) s

/-- vrem (08:R187). -/
def planVrem (d a b m : Fin 16) : Planner := planBin (some .rem) none 0 d a (.row b) m

/-- vrem in every executing bank (08:R187). -/
def execVrem (d a b m : Fin 16) (s : State) : Out :=
  runPlan (s.venv (.vrem d a b m) 8 0 0) (planVrem d a b m) s

/-- vsqrt (08:R187). -/
def planVsqrt (d a : Fin 16) (rm : Fin 8) (m : Fin 16) : Planner := planSolo none (some (fun t c l v => finishF t c l (sqrtX (fdecode t c.ftz v)))) rm.val d a m

/-- vsqrt in every executing bank (08:R187). -/
def execVsqrt (d a : Fin 16) (rm : Fin 8) (m : Fin 16) (s : State) : Out :=
  runPlan (s.venv (.vsqrt d a rm m) 8 0 0) (planVsqrt d a rm m) s

/-- vrsqrte (08:R188). -/
def planVrsqrte (d a m : Fin 16) : Planner := planSolo none (some (fun t c l v => fapprox false t c.ftz l v)) 0 d a m

/-- vrsqrte in every executing bank (08:R188). -/
def execVrsqrte (d a m : Fin 16) (s : State) : Out :=
  runPlan (s.venv (.vrsqrte d a m) 8 0 0) (planVrsqrte d a m) s

/-- vexp2e (08:R188). -/
def planVexp2e (d a m : Fin 16) : Planner := planSolo none (some (fun t c l v => fapprox true t c.ftz l v)) 0 d a m

/-- vexp2e in every executing bank (08:R188). -/
def execVexp2e (d a m : Fin 16) (s : State) : Out :=
  runPlan (s.venv (.vexp2e d a m) 8 0 0) (planVexp2e d a m) s

/-- The planner of an instruction that may be half of a complement pair (02:R41). -/
def plannerOf : Instr → Option Planner
  | .vaddVV d a b m _ => some (planVaddVV d a b m)
  | .vsubVV d a b m _ => some (planVsubVV d a b m)
  | .vmulVV d a b m _ => some (planVmulVV d a b m)
  | .vminVV d a b m _ => some (planVminVV d a b m)
  | .vmaxVV d a b m _ => some (planVmaxVV d a b m)
  | .vabs d a m _ => some (planVabs d a m)
  | .vneg d a m _ => some (planVneg d a m)
  | .vaddSVV d a b m _ => some (planVaddSVV d a b m)
  | .vsubSVV d a b m _ => some (planVsubSVV d a b m)
  | .vaddVX d a x m _ => some (planVaddVX d a x m)
  | .vsubVX d a x m _ => some (planVsubVX d a x m)
  | .vmulVX d a x m _ => some (planVmulVX d a x m)
  | .vminVX d a x m _ => some (planVminVX d a x m)
  | .vmaxVX d a x m _ => some (planVmaxVX d a x m)
  | .vaddSVX d a x m _ => some (planVaddSVX d a x m)
  | .vsubSVX d a x m _ => some (planVsubSVX d a x m)
  | .vaddVI d a i m _ => some (planVaddVI d a i m)
  | .vsubVI d a i m _ => some (planVsubVI d a i m)
  | .vrsub d a i m _ => some (planVrsub d a i m)
  | .vmulVI d a i m _ => some (planVmulVI d a i m)
  | .vminVI d a i m _ => some (planVminVI d a i m)
  | .vmaxVI d a i m _ => some (planVmaxVI d a i m)
  | .vsllVI d a i m _ => some (planVsllVI d a i m)
  | .vsrlVI d a i m _ => some (planVsrlVI d a i m)
  | .vsraVI d a i m _ => some (planVsraVI d a i m)
  | .vandVI d a i m _ => some (planVandVI d a i m)
  | .vorVI d a i m _ => some (planVorVI d a i m)
  | .vxorVI d a i m _ => some (planVxorVI d a i m)
  | .vfma d a b c rm m _ => some (planVfma d a b c rm m)
  | .vfms d a b c rm m _ => some (planVfms d a b c rm m)
  | .vfmaX d a x c rm m _ => some (planVfmaX d a x c rm m)
  | .vfmsX d a x c rm m _ => some (planVfmsX d a x c rm m)
  | .vcvt d a i rm sat m _ => some (planVcvt d a i rm sat m)
  | .vcvtMX d a b i rm sat m _ => some (planVcvtMX d a b i rm sat m)
  | .vqntMX d a b i rm sat m _ => some (planVqntMX d a b i rm sat m)
  | .vaddRm d a b rm m _ => some (planVaddRm d a b rm m)
  | .vsubRm d a b rm m _ => some (planVsubRm d a b rm m)
  | .vmulRm d a b rm m _ => some (planVmulRm d a b rm m)
  | .vandVV d a b m _ => some (planVandVV d a b m)
  | .vorVV d a b m _ => some (planVorVV d a b m)
  | .vxorVV d a b m _ => some (planVxorVV d a b m)
  | .vandn d a b m _ => some (planVandn d a b m)
  | .vnot d a m _ => some (planVnot d a m)
  | .vsllVV d a b m _ => some (planVsllVV d a b m)
  | .vsrlVV d a b m _ => some (planVsrlVV d a b m)
  | .vsraVV d a b m _ => some (planVsraVV d a b m)
  | .vsel d a b m => some (planVsel d a b m)
  | _ => none

/-- A complement pair (02:R42, R43): I at the elements where its mask holds 1, J at the others. A pair that 02:R41 does not allow is illegal at I. -/
def execComplementPair (i j : Instr) (s : State) : Out :=
  if !pairOk i j then illegal i s
  else
    match plannerOf i, plannerOf j with
    | some p, some q => runPair (s.venv (.complementPair i j) (i.len + j.len) 0 0) p q s
    | _, _ => illegal i s

end Sys2Proof.Machine
end

