-- ==== Sys2Proof/Machine/VMove.lean ====
section
/-!
DEFINITION. Vector instructions that arrange: permutes, table lookup, butterflies, reductions, masks (09:R199-R216), and the shared run of whole-class
instructions (09:R200).
-/

namespace Sys2Proof.Machine

/-! ### Whole-class instructions -/

/-- Elements that a whole-class instruction needs of a register: register, width, operand position, elements, and the one that goes with an
element number of its first operand. -/
structure Needs where
  reg : Fin 16
  w : Nat
  pos : Nat
  els : List Nat
  of : Nat → Nat

/-- Whether the word that holds an element of a register is poisoned. -/
abbrev Taint := Fin 16 → Nat → Nat → Bool

/-- What a whole-class instruction does in one bank once its checks have passed. -/
structure WholePlan where
  regs : List (Fin 16)
  needs : List Needs
  eval : Bank → Taint → Edits

/-- The words that a whole-class instruction's lanes read: the beats of the elements it needs (07:R146). -/
def Needs.reads (n : Needs) : Reads := (n.reg, beatsOf n.w n.els)

/-- The poison flags of a bank's latches. -/
def taintOf (x : Bank) : Taint := fun k w n => latchBad x.w[k].poison (elemWord w n)

/-- The least number of a list that passes a test. -/
def leastOf (f : Nat → Bool) (l : List Nat) : Option Nat :=
  l.foldl (fun acc i => if f i then some (match acc with | some n => Nat.min n i | none => i) else acc) none

/-- The least poisoned element that a whole-class instruction needs in a bank (09:R200); the words that hold VPOISON's element take no trap
(21:R452). -/
def wholePoison (x : Bank) (v : VPoison) (j : Nat) (p : WholePlan) : Option PoisonHit :=
  leastHit (p.needs.map (fun n =>
    (leastOf (fun i => taintOf x n.reg n.w i && !(v.v && decide (elemWord n.w i = elemWord n.w v.elem.toNat ∨ elemWord n.w i = elemWord n.w (n.of v.elem.toNat)))) n.els).map
      (fun i => ⟨i, j, n.reg, n.pos⟩)))

/-- A plan needs an element of that number. -/
def WholePlan.needsEl (p : WholePlan) (i : Nat) : Bool := p.needs.any (fun n => n.els.contains i)

/-- Edits of a bank before anything is written. -/
def Edits.start (x : Bank) : Edits := ⟨[], [], 0, x.lfsr, false⟩

/-- What comes before the first result beat of an instruction that completes whole once it has written one (09:R200, R290, 11:R250, 21:R457): a hard
pre-emption that has arrived, a poisoned source, a lane disagreement. Then `k` goes on. -/
def beforeWhole (e : VEnv) (hit : Option PoisonHit) (k : State → Out) (s : State) : Out :=
  if s.stopAfter = some 0 then stopVector e s
  else
    match hit, laneHit s e 0 with
    | some h, _ => trapPoison e h e.vstart s
    | none, some h => if h.1.third then laneFatal e h s else k (laneBlame s h)
    | none, none => k s

/-- Runs a whole-class instruction: checks, every source read, then every result (09:R200). A resumed one whose VSTART is at or above LIVE
commits nothing (20:R434). -/
def runWhole (e : VEnv) (check : Nat → Nat → Except VFail WholePlan) (s : State) : Out :=
  match checkBanks check e.banks with
  | .error f => trapCheck e f s
  | .ok l =>
    let s := (l.flatMap (fun p => p.2.2.regs.map (fun k => (p.2.1, k)))).foldl (fun acc q => touchW acc q.1 q.2) (s.setVstart e.vstart)
    let s := lanesRead s (l.map (fun p => (p.2.1, p.2.2.needs.map Needs.reads)))
    if 0 < e.vstart ∧ e.live ≤ e.vstart then vdone e s
    else
      beforeWhole e (leastHit (l.map (fun p => wholePoison (s.bank p.2.1) s.front.vpoison p.1 p.2.2)))
        (fun s => vdone e (clearPoisonV (l.foldl (fun acc p => applyEdits acc p.2.1 (p.2.2.eval (s.bank p.2.1) (taintOf (s.bank p.2.1)))) s)
          (fun i => l.any (fun p => p.2.2.needsEl i)))) s

/-- Answers a whole-class plan when every check of a list passes. -/
def wholeIf (checks : List (Option VFail)) (p : WholePlan) : Except VFail WholePlan :=
  match firstFail checks with
  | some f => .error f
  | none => .ok p

/-- The loop indices active under a mask at granule `g`, ascending. -/
def activeIdx (e : VEnv) (x : Bank) (m : Fin 16) (g : Nat) : List Nat :=
  ((List.range e.live).filter (fun i => decide (e.vstart ≤ i))).filter (fun i => maskBit (x.getM m) (i / g))

/-! ### Permutes -/

/-- Where a written element comes from: an element of wa, or a value. -/
inductive PSrc where
  | elem (k : Nat)
  | const (v : Nat)
  deriving DecidableEq, Repr

/-- The tag checks of a permute (09:R202). -/
def permTags (x : Bank) (j : Nat) (d a : Fin 16) : Option VFail :=
  let ta := x.w[a].tag
  let td := x.w[d].tag
  if ta = 15 then some (tagFail j a ta 1)
  else if td = 15 ∨ (ta ≠ 0 ∧ td ≠ 0 ∧ ta ≠ td) then some (tagFail j d td 0)
  else none

/-- The element width of a permute (09:R202). -/
def permWidth (e : VEnv) (x : Bank) (d a : Fin 16) : Nat :=
  let t := if x.w[a].tag = 0 then x.w[d].tag else x.w[a].tag
  if t = 0 then fmtWidth e.ctx.vlcfg.fmt else tagWidth t

/-- A permute: its moves as (destination element, source), given the width; `idx` is VPICK's index register with its width (09:R201-R203). -/
def permPlan (e : VEnv) (s : State) (j bk : Nat) (d a : Fin 16) (idx : Option (Fin 16)) (moves : Bank → Nat → List (Nat × PSrc)) :
    Except VFail WholePlan :=
  let x := s.bank bk
  let w := permWidth e x d a
  let iw (k : Fin 16) : Nat := if x.w[k].tag = 0 then fmtWidth e.ctx.vlcfg.fmt else tagWidth x.w[k].tag
  let ixs := idx.toList
  let mv := moves x w
  wholeIf ([permTags x j d a] ++ ixs.map (fun k => if shiftTag x.w[k].tag then none else some (tagFail j k x.w[k].tag 2)) ++
      [lenCheck e j d w, lenCheck e j a w] ++ ixs.map (fun k => lenCheck e j k (iw k)) ++ [wpCheck e s j bk d])
    { regs := [d, a] ++ ixs
      needs := [⟨a, w, 1, mv.filterMap (fun p => match p.2 with | .elem k => some k | _ => none),
          fun i => match ixs, mv.find? (fun p => p.1 == i) with | _ :: _, some (_, .elem k) => k | _, _ => i⟩] ++
        ixs.map (fun k => ⟨k, iw k, 2, mv.map (fun p => p.1), id⟩)
      eval := fun x tn =>
        let r := mv.foldl (fun (acc : RowEdit) p =>
          let bad := ixs.any (fun k => tn k (iw k) p.1)
          match p.2 with
          | .elem k => acc.put w p.1 (getEl x.w[a].latch w k) (bad || tn a w k)
          | .const v => acc.put w p.1 v bad) ⟨x.w[d].latch, 0, 0⟩
        { Edits.start x with rows := if mv.isEmpty then [] else [(d, r)] } }

/-- Runs a permute. -/
def runPerm (e : VEnv) (d a : Fin 16) (idx : Option (Fin 16)) (moves : Bank → Nat → List (Nat × PSrc)) (s : State) : Out :=
  runWhole e (fun j b => permPlan e s j b d a idx moves) s

/-- VPICK (09:R203): element k of wa, k being the index; 0 where k is not live. -/
def execVpick (d a b m : Fin 16) (s : State) : Out :=
  let e := s.venv (.vpick d a b m) 4 0 0
  runPerm e d a (some b) (fun x w => (activeIdx e x m (granule w)).map (fun i =>
    let iw := if x.w[b].tag = 0 then fmtWidth e.ctx.vlcfg.fmt else tagWidth x.w[b].tag
    let k := getEl x.w[b].latch iw i
    (i, if k < e.live then PSrc.elem k else PSrc.const 0))) s

/-- VPACK (09:R204): the selected elements, packed from element 0. -/
def execVpack (d a m : Fin 16) (s : State) : Out :=
  let e := s.venv (.vpack d a m) 4 0 0
  runPerm e d a none (fun x w =>
    ((enumFrom 0 ((List.range e.live).filter (fun i => maskBit (x.getM m) (i / granule w)))).filter (fun p => decide (e.vstart ≤ p.1))).map
      (fun p => (p.1, PSrc.elem p.2))) s

/-- VSPREAD (09:R203): the active elements take the elements of wa in order. -/
def execVspread (d a m : Fin 16) (s : State) : Out :=
  let e := s.venv (.vspread d a m) 4 0 0
  runPerm e d a none (fun x w =>
    ((enumFrom 0 ((List.range e.live).filter (fun i => maskBit (x.getM m) (i / granule w)))).filter (fun p => decide (e.vstart ≤ p.2))).map
      (fun p => (p.2, PSrc.elem p.1))) s

/-- The moves of an element move: `f n i` gives the source of element `i` for the distance or inserted value in xb (09:R203). -/
def runMove (e : VEnv) (d a : Fin 16) (xb m : Fin 16) (f : Nat → Nat → Nat → PSrc) (s : State) : Out :=
  runPerm e d a none (fun x w => (activeIdx e x m (granule w)).map (fun i =>
    (i, f w (x.getX ⟨xb.val, by omega⟩).val.toNat i))) s

/-- VMOVUP (09:R203). -/
def execVmovup (d a x m : Fin 16) (s : State) : Out :=
  runMove (s.venv (.vmovup d a x m) 4 0 0) d a x m (fun _ n i => if n ≤ i then .elem (i - n) else .const 0) s

/-- VMOVDN (09:R203). -/
def execVmovdn (d a x m : Fin 16) (s : State) : Out :=
  let e := s.venv (.vmovdn d a x m) 4 0 0
  runMove e d a x m (fun _ n i => if i + n < e.live then .elem (i + n) else .const 0) s

/-- VPUSHLO (09:R203). -/
def execVpushlo (d a x m : Fin 16) (s : State) : Out :=
  runMove (s.venv (.vpushlo d a x m) 4 0 0) d a x m (fun w n i => if i = 0 then .const (n % 2 ^ w) else .elem (i - 1)) s

/-- VPUSHHI (09:R203). -/
def execVpushhi (d a x m : Fin 16) (s : State) : Out :=
  let e := s.venv (.vpushhi d a x m) 4 0 0
  runMove e d a x m (fun w n i => if i + 1 < e.live then .elem (i + 1) else .const (n % 2 ^ w)) s

/-! ### Table lookup and butterfly -/

/-- VLUT's planner (09:R207): the table is elements 0 to 15 of wb at wd's width, read whole. -/
def planVlut (d a b : Fin 16) (i : BitVec 8) (m : Fin 16) : Planner := fun e s j bk =>
  let x := s.bank bk
  let ta := x.w[a].tag
  let tb := x.w[b].tag
  let td := x.w[d].tag
  let fw := fmtWidth e.ctx.vlcfg.fmt
  let aw := regWidth ta fw
  let dw := regWidth td fw
  let p := partForm e j a aw d dw (i.toNat % 16)
  planIf [if ta = 15 then some (tagFail j a ta 1) else none, if tb = td ∨ tb = 0 then none else some (tagFail j b tb 2),
      if td = 15 then some (tagFail j d td 0) else none, lenCheck e j d dw, lenCheck e j a aw, p.check, wpCheck e s j bk d]
    ⟨granule p.wide, some m, ⟨a, aw, 1, fun n => n + p.offA⟩ :: (List.range 16).map (fun k => ⟨b, dw, 2, fun _ => k⟩),
     .row d dw (fun n => n + p.offD), fun _ c l => plainRes ((c.drop (1 + c.headD 0 % 16)).headD 0) l⟩

/-- VLUT (09:R207). -/
def execVlut (d a b : Fin 16) (i : BitVec 8) (m : Fin 16) (s : State) : Out :=
  runPlan (s.venv (.vlut d a b i m) 8 0 0) (planVlut d a b i m) s

/-- One butterfly stage at distance `d` on (index, code) pairs; flags count for indices below `live` (09:R208). -/
def hadStage (add sub : Nat → Nat → Rounded) (d live : Nat) : Nat → List (Nat × Nat) → List (Nat × Nat) × BitVec 5
  | 0, l => (l, 0)
  | n + 1, l =>
    if l.isEmpty then ([], 0)
    else
      let lo := l.take d
      let hi := (l.drop d).take d
      let fl (i : Nat) (r : Rounded) : BitVec 5 := if i < live then r.flags else 0
      let u := (lo.zip hi).map (fun p => (p.1.1, add p.1.2 p.2.2))
      let v := (lo.zip hi).map (fun p => (p.2.1, sub p.1.2 p.2.2))
      let rest := hadStage add sub d live n (l.drop (2 * d))
      ((u ++ v).map (fun p => (p.1, p.2.code)) ++ rest.1, (u ++ v).foldl (fun f p => f ||| fl p.1 p.2) rest.2)

/-- The stages from distance 2^k, `n` of them. -/
def hadStages (add sub : Nat → Nat → Rounded) (live : Nat) : Nat → Nat → List (Nat × Nat) → List (Nat × Nat) × BitVec 5
  | _, 0, l => (l, 0)
  | k, n + 1, l =>
    let r := hadStage add sub (2 ^ k) live l.length l
    let z := hadStages add sub live (k + 1) n r.1
    (z.1, r.2 ||| z.2)

/-- The internal format of VHAD (09:R208). -/
def hadFormat (t : BitVec 4) : BitVec 4 := if t = 12 then 12 else if isFloatTag t then 11 else if t = 5 then 5 else 4

/-- VHAD in one bank (09:R208). -/
def planVhad (d a : Fin 16) (i : BitVec 8) (p : Fin 16) (rm : Nat) (sat : Bool) (m : Fin 16) (e : VEnv) (s : State) (j bk : Nat) :
    Except VFail WholePlan :=
  let x := s.bank bk
  let ta := x.w[a].tag
  let td := x.w[d].tag
  let ok (t : BitVec 4) : Bool := isIntTag t || isFloatTag t
  let aw := tagWidth ta
  let dw := tagWidth td
  let k := i.toNat % 16
  let n := i.toNat / 16 + 1
  let pf := partForm e j a aw d dw p.val
  let f := hadFormat ta
  wholeIf [if ok ta then none else some (tagFail j a ta 1), if ok td then none else some (tagFail j d td 0),
      lenCheck e j d dw, lenCheck e j a aw,
      if e.vl ≠ 0 ∧ (14 < k + n ∨ e.vl % 2 ^ (k + n) ≠ 0) then some (vlFail j a.val e.vl) else none, pf.check, wpCheck e s j bk d]
    { regs := [d, a]
      needs := [⟨a, aw, 1, (List.range e.live).map (fun n => n + pf.offA), id⟩]
      eval := fun x tn =>
        let c : RCtl := ⟨rmRNE, s.front.rmode.ftz, false⟩
        let add (u v : Nat) : Rounded := combAdd f c 0 u v
        let sub (u v : Nat) : Rounded := if isFloatTag f then fbin .sub f c 0 u v else plainRes (ibin .sub f u v) 0
        let src := (List.range e.vl).map (fun n => (n, if n < e.live then widen ta f (getEl x.w[a].latch aw (n + pf.offA)) else 0))
        let r := hadStages add sub e.live k n src
        let act := activeIdx e x m (granule pf.wide)
        let bad (n : Nat) : Bool := (List.range e.live).any (fun o => decide (o / 2 ^ (k + n) = n / 2 ^ (k + n)) && tn a aw (o + pf.offA))
        let z := act.foldl (fun (acc : RowEdit × BitVec 5 × BitVec 32) n =>
          let v := convertVal f td (s.rctl rm sat) acc.2.2 (((r.1[n]?).map (fun q => q.2)).getD 0)
          (acc.1.put dw (n + pf.offD) v.code (bad n), acc.2.1 ||| v.flags, v.lfsr)) (⟨x.w[d].latch, 0, 0⟩, r.2, x.lfsr)
        { Edits.start x with rows := if act.isEmpty then [] else [(d, z.1)], flags := z.2.1, lfsr := z.2.2 } }

/-- VHAD (09:R208). -/
def execVhad (d a : Fin 16) (i : BitVec 8) (p : Fin 16) (rm : Fin 8) (sat : Bool) (m : Fin 16) (s : State) : Out :=
  let e := s.venv (.vhad d a i p rm sat m) 8 0 0
  runWhole e (planVhad d a i p rm.val sat m e s) s

/-! ### Reductions -/

/-- The flags and LFSR a tree of combinations carries along. -/
structure RedSt where
  flags : BitVec 5
  lfsr : BitVec 32

/-- Comb of two values, either of which may be absent (07:R161). -/
def comb (f : BitVec 32 → Nat → Nat → Rounded) (z : RedSt) (a b : Option Nat) : RedSt × Option Nat :=
  match a, b with
  | none, y => (z, y)
  | x, none => (z, x)
  | some x, some y =>
    let r := f z.lfsr x y
    (⟨z.flags ||| r.flags, r.lfsr⟩, some r.code)

/-- Comb of adjacent values, one pass. -/
def combPairs (f : BitVec 32 → Nat → Nat → Rounded) : RedSt → List (Option Nat) → RedSt × List (Option Nat)
  | z, a :: b :: t =>
    let r := comb f z a b
    let q := combPairs f r.1 t
    (q.1, r.2 :: q.2)
  | z, l => (z, l)

/-- A pairwise tree down to one value. -/
def combTree (f : BitVec 32 → Nat → Nat → Rounded) : Nat → RedSt → List (Option Nat) → RedSt × Option Nat
  | 0, z, l => (z, (l.head?).getD none)
  | n + 1, z, l =>
    if l.length ≤ 1 then (z, (l.head?).getD none)
    else
      let r := combPairs f z l
      combTree f n r.1 r.2

/-- Stage 1 of 07:R161: each 256-bit chunk in order. -/
def combChunks (f : BitVec 32 → Nat → Nat → Rounded) (per : Nat) : Nat → RedSt → List (Option Nat) → RedSt × List (Option Nat)
  | 0, z, _ => (z, [])
  | n + 1, z, l =>
    if l.isEmpty then (z, [])
    else
      let r := combTree f 7 z (l.take per)
      let q := combChunks f per n r.1 (l.drop per)
      (q.1, r.2 :: q.2)

/-- Stage 2 of 07:R161: per lane group, the beats in order. -/
def combLanes (f : BitVec 32 → Nat → Nat → Rounded) (chunks : List (Option Nat)) (z : RedSt) : List Nat → RedSt × List (Option Nat)
  | [] => (z, [])
  | g :: t =>
    let mine := ((enumFrom 0 chunks).filter (fun p => p.1 % 8 == g)).map (fun p => p.2)
    let r := mine.foldl (fun (acc : RedSt × Option Nat) v => comb f acc.1 acc.2 v) (z, none)
    let q := combLanes f chunks r.1 t
    (q.1, r.2 :: q.2)

/-- The order of an unordered reduction (07:R161) over element values of width `w`, absent ones as none. -/
def reduceTree (f : BitVec 32 → Nat → Nat → Rounded) (w : Nat) (z : RedSt) (l : List (Option Nat)) : RedSt × Option Nat :=
  let c := combChunks f (256 / w) l.length z l
  let q := combLanes f c.2 c.1 (List.range 8)
  combTree f 3 q.1 q.2

/-- The accumulation format of VTOTAL, VTOTAL.SEQ, VLEAST and VMOST (09:R210). -/
def accFormat (x : Bank) (j : Nat) (d a : Fin 16) : Except VFail (BitVec 4) :=
  let td := x.w[d].tag
  let ta := x.w[a].tag
  let f := if td = 0 then ta else td
  if opFormat ta f = some f then .ok f
  else .error (if td = 13 ∨ td = 15 then tagFail j d td 0 else tagFail j a ta 1)

/-- A reduction in one bank: source width, accumulation format width, the combining operation, what an absent total is, the conversion of a
source code (09:R209-R211). -/
def redPlan (d a m : Fin 16) (checks : List (Option VFail)) (aw dw : Nat) (f : BitVec 32 → Nat → Nat → Rounded) (absent : Option Nat)
    (conv : Nat → Nat) (e : VEnv) (s : State) (j bk : Nat) : Except VFail WholePlan :=
  let act (x : Bank) : List Nat := activeIdx e x m (granule aw)
  wholeIf (checks ++ [lenCheck e j a aw, wpCheck e s j bk d])
    { regs := [d, a]
      needs := [⟨d, dw, 0, [0], fun _ => 0⟩, ⟨a, aw, 1, act (s.bank bk), id⟩]
      eval := fun x tn =>
        let on (i : Nat) : Bool := decide (e.vstart ≤ i ∧ i < e.live) && maskBit (x.getM m) (i / granule aw)
        let vals := (List.range e.live).map (fun i => if on i then some (conv (getEl x.w[a].latch aw i)) else none)
        let r := reduceTree f aw ⟨0, x.lfsr⟩ vals
        let t := match r.2 with | some v => some v | none => absent
        let z := comb f r.1 t (some (getEl x.w[d].latch dw 0))
        let row := RowEdit.put ⟨x.w[d].latch, 0, 0⟩ dw 0 (z.2.getD 0) false
        { rows := [(d, row)], masks := [], flags := z.1.flags, lfsr := z.1.lfsr,
          unmarked := tn d dw 0 || (act x).any (fun i => tn a aw i) } }

/-- VTOTAL, VLEAST and VMOST (09:R210, R211). -/
def arithRed (d a m : Fin 16) (f : BitVec 4 → RCtl → BitVec 32 → Nat → Nat → Rounded) (absent : Option Nat) (e : VEnv) (s : State)
    (j bk : Nat) : Except VFail WholePlan :=
  let x := s.bank bk
  match accFormat x j d a with
  | .error v => .error v
  | .ok t =>
    let ta := x.w[a].tag
    redPlan d a m [] (regWidth ta (tagWidth t)) (tagWidth t) (f t (s.rctl 0 false)) absent (fun c => widen ta t c) e s j bk

/-- Least or most of two codes (08:R180, R182). -/
def minmaxCode (max : Bool) (t : BitVec 4) (c : RCtl) (l : BitVec 32) (a b : Nat) : Rounded :=
  if isFloatTag t then fbin (if max then .max else .min) t c l a b else plainRes (ibin (if max then .max else .min) t a b) l

/-- VTOTAL (09:R211). -/
def execVtotal (d a m : Fin 16) (s : State) : Out :=
  let e := s.venv (.vtotal d a m) 4 0 0
  runWhole e (arithRed d a m combAdd (some 0) e s) s

/-- VLEAST (09:R211). -/
def execVleast (d a m : Fin 16) (s : State) : Out :=
  let e := s.venv (.vleast d a m) 4 0 0
  runWhole e (arithRed d a m (minmaxCode false) none e s) s

/-- VMOST (09:R211). -/
def execVmost (d a m : Fin 16) (s : State) : Out :=
  let e := s.venv (.vmost d a m) 4 0 0
  runWhole e (arithRed d a m (minmaxCode true) none e s) s

/-- The bitwise reductions (09:R210, R211). -/
def bitsRed (o : BOp) (d a m : Fin 16) (e : VEnv) (s : State) (j bk : Nat) : Except VFail WholePlan :=
  let x := s.bank bk
  let w := permWidth e x d a
  let intOr0 (k : Fin 16) (pos : Nat) : Option VFail := if shiftTag x.w[k].tag then none else some (tagFail j k x.w[k].tag pos)
  redPlan d a m [permTags x j d a, intOr0 a 1, intOr0 d 0, if w = 1 then some (fmtFail j e.ctx.vlcfg.fmt) else none] w w
    (fun l u v => plainRes (o.run w u v) l) none id e s j bk

/-- VBAND (09:R211). -/
def execVband (d a m : Fin 16) (s : State) : Out :=
  let e := s.venv (.vband d a m) 4 0 0
  runWhole e (bitsRed .and d a m e s) s

/-- VBOR (09:R211). -/
def execVbor (d a m : Fin 16) (s : State) : Out :=
  let e := s.venv (.vbor d a m) 4 0 0
  runWhole e (bitsRed .or d a m e s) s

/-- VBXOR (09:R211). -/
def execVbxor (d a m : Fin 16) (s : State) : Out :=
  let e := s.venv (.vbxor d a m) 4 0 0
  runWhole e (bitsRed .xor d a m e s) s

/-- The FP32 code of an MX element (06:R138): an INT8 element is its integer times 2^-6. -/
def mxCode (t : BitVec 4) (c : Nat) : Nat :=
  if t = 1 then (roundTo 11 ⟨rmRNE, false, false⟩ 0 ((realOfInt (toSigned 8 c)).scale (-6))).code else widen t 11 c

/-- An infinity. -/
def FReal.isInf : FReal → Bool
  | .inf _ => true
  | _ => false

/-- A block's sum times 2^k (07:R162): exact in FP32's normal range, else one Round; a signalling NaN raises NV (06:R132). -/
def scaleSum (c : RCtl) (z : RedSt) (sum : Nat) (k : Int) : RedSt × Nat :=
  let v := (fdecode 11 c.ftz sum).scale k
  let x := roundTo 11 ⟨rmRNE, false, false⟩ 0 v
  let e := x.code / 2 ^ 23 % 256
  let zero := decide (x.code % 2 ^ 31 = 0) && x.flags == 0
  if v.isNaN then (⟨z.flags ||| v.sig, z.lfsr⟩, x.code)
  else if zero || v.isInf || decide (x.flags = 0 ∧ e ≠ 0 ∧ e ≠ 255) then (z, x.code)
  else
    let r := roundTo 11 c z.lfsr v
    (⟨z.flags ||| r.flags, r.lfsr⟩, r.code)

/-- VTOTAL.MX block by block (07:R162, R154): `sum b` gives a block's values and whether it has an active element. -/
def mxBlocks (c : RCtl) (aw : Nat) (scale : Nat → Nat) (vals : Nat → List (Option Nat) × Bool) : List Nat → RedSt × Option Nat → RedSt × Option Nat
  | [], acc => acc
  | b :: t, acc =>
    let v := vals b
    let f : BitVec 32 → Nat → Nat → Rounded := fun l x y => combAdd 11 c l x y
    if v.1.all (fun o => o.isNone) then mxBlocks c aw scale vals t acc
    else if scale b = 255 ∧ v.2 then mxBlocks c aw scale vals t (comb f acc.1 acc.2 (some (canonNaN 11)))
    else
      let r := reduceTree f aw acc.1 v.1
      let p := scaleSum c r.1 (r.2.getD 0) (if scale b = 255 then 0 else (scale b : Int) - 127)
      mxBlocks c aw scale vals t (comb f p.1 acc.2 (some p.2))

/-- VTOTAL.MX in one bank (09:R210, R211). -/
def mxRed (d a b m : Fin 16) (e : VEnv) (s : State) (j bk : Nat) : Except VFail WholePlan :=
  let x := s.bank bk
  let ta := x.w[a].tag
  let tb := x.w[b].tag
  let td := x.w[d].tag
  let aw := tagWidth ta
  let bl := 2 ^ e.ctx.vlcfg.blk.toNat
  let nb := (e.vl + bl - 1) / bl
  let act (x : Bank) : List Nat := activeIdx e x m (granule aw)
  wholeIf [if isMxTag ta then none else some (tagFail j a ta 1), if tb = 13 then none else some (tagFail j b tb 2),
      if td = 11 ∨ td = 0 then none else some (tagFail j d td 0), lenCheck e j a aw,
      if 2048 < nb then some (vlFail j 0 e.vl) else none, wpCheck e s j bk d]
    { regs := [d, a, b]
      needs := [⟨a, aw, 1, act x, id⟩, ⟨b, 8, 2, (act x).map (fun i => i / bl), fun i => i / bl⟩]
      eval := fun x tn =>
        let on (i : Nat) : Bool := decide (e.vstart ≤ i ∧ i < e.live) && maskBit (x.getM m) (i / granule aw)
        let vals (n : Nat) : List (Option Nat) × Bool :=
          let idx := (List.range e.vl).map (fun i =>
            if i / bl ≠ n then none
            else if e.live ≤ i then some 0
            else if on i then some (mxCode ta (getEl x.w[a].latch aw i)) else none)
          (idx, (List.range bl).any (fun o => on (n * bl + o)))
        let z := mxBlocks (s.rctl 0 false) aw (fun n => getEl x.w[b].latch 8 n) vals (List.range nb) (⟨0, x.lfsr⟩, none)
        { rows := [(d, RowEdit.put ⟨x.w[d].latch, 0, 0⟩ 32 0 (z.2.getD 0) false)], masks := [], flags := z.1.flags, lfsr := z.1.lfsr,
          unmarked := (act x).any (fun i => tn a aw i || tn b 8 (i / bl)) } }

/-- VTOTAL.MX (09:R211). -/
def execVtotalMX (d a b m : Fin 16) (s : State) : Out :=
  let e := s.venv (.vtotalMX d a b m) 4 0 0
  runWhole e (mxRed d a b m e s) s

/-- The ordered reduction (07:R163, 09:R212): format and source width of one bank. -/
structure SeqPlan where
  fmt : BitVec 4
  ta : BitVec 4
  aw : Nat

/-- The checks of VTOTAL.SEQ in one bank. -/
def seqCheck (d a : Fin 16) (e : VEnv) (s : State) (j bk : Nat) : Except VFail SeqPlan :=
  let x := s.bank bk
  match accFormat x j d a with
  | .error v => .error v
  | .ok t =>
    let ta := x.w[a].tag
    let aw := regWidth ta (tagWidth t)
    match firstFail [lenCheck e j a aw, wpCheck e s j bk d] with
    | some v => .error v
    | none => .ok ⟨t, ta, aw⟩

/-- The active elements from VSTART up to `stop` added in order, from elements 0 and 1 of wd on resumption (07:R163). `final` says that the
sticky flags are raised. -/
def seqRun (d a m : Fin 16) (e : VEnv) (s : State) (stop : Nat) (final : Bool) (bk : Nat) (p : SeqPlan) : State :=
  let x := s.bank bk
  let w := tagWidth p.fmt
  let els := (activeIdx e x m (granule p.aw)).filter (fun i => decide (i < stop))
  let z0 : RedSt := ⟨if e.vstart = 0 then 0 else BitVec.ofNat 5 (getEl x.w[d].latch w 1), x.lfsr⟩
  let r := els.foldl (fun (acc : RedSt × Nat) i =>
    let v := combAdd p.fmt (s.rctl 0 false) acc.1.lfsr acc.2 (widen p.ta p.fmt (getEl x.w[a].latch p.aw i))
    (⟨acc.1.flags ||| v.flags, v.lfsr⟩, v.code)) (z0, getEl x.w[d].latch w 0)
  let row := RowEdit.put (RowEdit.put ⟨x.w[d].latch, 0, 0⟩ w 0 r.2 false) w 1 r.1.flags.toNat false
  let tn := taintOf x
  applyEdits s bk { rows := [(d, row)], masks := [], flags := if final then r.1.flags else 0, lfsr := r.1.lfsr,
                    unmarked := tn d w 0 || els.any (fun i => tn a p.aw i) }

/-- The first poisoned element of an ordered reduction in a bank: the destination's elements go with the first that is added, then come the
source's. The words that VPOISON's element needs take no trap (21:R452). -/
def seqPoison (d a m : Fin 16) (e : VEnv) (s : State) (j bk : Nat) (p : SeqPlan) : Option PoisonHit :=
  let x := s.bank bk
  let v := s.front.vpoison
  if taintOf x d (tagWidth p.fmt) 0 && !(v.v && decide (v.elem.toNat = e.vstart)) then some ⟨e.vstart, j, d, 0⟩
  else
    ((activeIdx e x m (granule p.aw)).find? (fun i => taintOf x a p.aw i &&
      !(v.v && decide (elemWord p.aw i = elemWord p.aw v.elem.toNat)))).map (fun i => ⟨i, j, a, 1⟩)

/-- The element at which a hard pre-emption stops an ordered reduction, between two elements (09:R212). -/
def cutSeq (s : State) (e : VEnv) : Option Nat := (s.stopAfter.map (fun n => e.vstart + n)).filter (fun n => decide (n < e.live))

/-- VTOTAL.SEQ with its checks passed: it adds up to a hard pre-emption's stop, a lane disagreement or a poisoned element, or completes (07:R163,
09:R212). -/
def runSeq (d a m : Fin 16) (e : VEnv) (l : List (Nat × Nat × SeqPlan)) (s : State) : Out :=
  let hit := leastHit (l.map (fun p => seqPoison d a m e s p.1 p.2.1 p.2.2))
  let lane := laneHit s e (l.foldl (fun n p => Nat.max n (2048 / p.2.2.aw)) 1)
  let upTo (n : Nat) (final : Bool) (s : State) : State := l.foldl (fun acc p => seqRun d a m e acc n final p.2.1 p.2.2) s
  let poisonAt := match hit with | some h => h.elem | none => e.live
  let laneAt := match lane with | some h => if h.1.third then h.2.2 else e.live | none => e.live
  let stop := Nat.min ((cutSeq s e).getD e.live) (Nat.min laneAt poisonAt)
  let s := match lane with | some h => if !h.1.third && decide (h.2.2 < stop) then laneBlame s h else s | none => s
  let part (s : State) : State := clearPoisonV (if stop = e.vstart then s else upTo stop false s) (ranTo e.vstart stop)
  if cutSeq s e = some stop then stopVector e ((part s).setVstart stop)
  else
    match lane, hit with
    | some h, hit =>
      if h.1.third && decide (laneAt = stop) then laneFatal e h ((part s).setVstart stop)
      else match hit with
        | some p => trapPoison e p p.elem (if p.pos = 0 then upTo e.vstart false s else clearPoisonV (upTo p.elem false s) (ranTo e.vstart p.elem))
        | none => vdone e (clearPoisonV (upTo e.live true s) (ranTo e.vstart e.live))
    | none, some p => trapPoison e p p.elem (if p.pos = 0 then upTo e.vstart false s else clearPoisonV (upTo p.elem false s) (ranTo e.vstart p.elem))
    | none, none => vdone e (clearPoisonV (upTo e.live true s) (ranTo e.vstart e.live))

/-- VTOTAL.SEQ (07:R163, 09:R209, R212): illegal with wd = wa. -/
def execVtotalSeq (d a m : Fin 16) (s : State) : Out :=
  if d = a then illegal (.vtotalSeq d a m) s
  else
    let e := s.venv (.vtotalSeq d a m) 4 0 0
    match checkBanks (seqCheck d a e s) e.banks with
    | .error f => trapCheck e f s
    | .ok l =>
      let s := l.foldl (fun acc p => touchW (touchW acc p.2.1 d) p.2.1 a) (s.setVstart e.vstart)
      let s := lanesRead s (l.map (fun p => (p.2.1, [(a, beatsOf p.2.2.aw (List.range e.vl)), (d, fun w => decide (w = 0))])))
      if 0 < e.vstart ∧ e.live ≤ e.vstart then vdone e s else runSeq d a m e l s

/-! ### Masks -/

/-- The live bits of a mask: LIVE at the granule of VLCFG.FMT (09:R214). -/
def liveBits (c : VlCfg) : Nat := (c.live.toNat + granule (fmtWidth c.fmt) - 1) / granule (fmtWidth c.fmt)

/-- The first 1 among the `n` lowest bits. -/
def firstOne (m : MaskBits) (n : Nat) : Option Nat := (List.range n).find? (fun i => maskBit m i)

/-- The mask whose `n` lowest bits are 1. -/
def lowMask (n : Nat) : MaskBits := BitVec.ofNat 2048 (2 ^ n - 1)

/-- Runs a mask instruction: md of every executing bank from ma and mb and the number of live bits (09:R214). -/
def runMask (e : VEnv) (d a b : Fin 16) (f : Nat → MaskBits → MaskBits → MaskBits) (s : State) : Out :=
  beforeWhole e none (fun s => vdone e (e.banks.foldl (fun acc p =>
    let x := acc.bank p.2
    acc.setBank p.2 (x.setM d (f (liveBits e.ctx.vlcfg) (x.getM a) (x.getM b)))) s)) s

/-- MKAND (09:R214). -/
def execMkand (d a b : Fin 16) (s : State) : Out := runMask (s.venv (.mkand d a b) 4 0 0) d a b (fun _ x y => x &&& y) s

/-- MKOR (09:R214). -/
def execMkor (d a b : Fin 16) (s : State) : Out := runMask (s.venv (.mkor d a b) 4 0 0) d a b (fun _ x y => x ||| y) s

/-- MKXOR (09:R214). -/
def execMkxor (d a b : Fin 16) (s : State) : Out := runMask (s.venv (.mkxor d a b) 4 0 0) d a b (fun _ x y => x ^^^ y) s

/-- MKANDN (09:R214). -/
def execMkandn (d a b : Fin 16) (s : State) : Out := runMask (s.venv (.mkandn d a b) 4 0 0) d a b (fun _ x y => x &&& ~~~ y) s

/-- MKNOT (09:R214). -/
def execMknot (d a : Fin 16) (s : State) : Out := runMask (s.venv (.mknot d a) 4 0 0) d a a (fun _ x _ => ~~~ x) s

/-- MKBELOW (09:R214): the live bits below the first live 1. -/
def execMkbelow (d a : Fin 16) (s : State) : Out :=
  runMask (s.venv (.mkbelow d a) 4 0 0) d a a (fun n x _ => lowMask ((firstOne x n).getD n)) s

/-- MKUPTO (09:R214): the live bits up to the first live 1. -/
def execMkupto (d a : Fin 16) (s : State) : Out :=
  runMask (s.venv (.mkupto d a) 4 0 0) d a a (fun n x _ => lowMask (match firstOne x n with | some k => k + 1 | none => n)) s

/-- MKFIRST (09:R214): only the first live 1. -/
def execMkfirst (d a : Fin 16) (s : State) : Out :=
  runMask (s.venv (.mkfirst d a) 4 0 0) d a a (fun n x _ => match firstOne x n with | some k => BitVec.ofNat 2048 (2 ^ k) | none => 0) s

/-- What VMOVMS reads (09:R215) over the executing banks; a RAW read with no executing bank has no stated value (log 15). -/
def movmsValue (s : State) (banks : List (Nat × Nat)) (o : Nat) (m : Fin 16) : State × Word :=
  let n := liveBits s.front.vlcfg
  let mk (p : Nat × Nat) : MaskBits := (s.bank p.2).getM m
  let bits (f : MaskBits → Bool) : Word := BitVec.ofNat 64 ((banks.filter (fun p => f (mk p))).foldl (fun acc p => acc + 2 ^ p.1) 0)
  match o with
  | 0 => (s, bits (fun v => (firstOne v n).isSome))
  | 1 => (s, bits (fun v => (firstOne (~~~ v) n).isNone))
  | 2 => (s, BitVec.ofNat 64 (banks.foldl (fun acc p => acc + ((List.range n).filter (fun i => maskBit (mk p) i)).length) 0))
  | 3 =>
    (s, match banks.findSome? (fun p => (firstOne (mk p) n).map (fun k => p.1 * 2 ^ 16 + k)) with
      | some v => BitVec.ofNat 64 v
      | none => BitVec.allOnes 64)
  | _ =>
    match banks with
    | p :: _ => (s, (mk p).setWidth 64)
    | [] => (s.draw.2, Config.rawMask s.draw.1)

/-- The mask register that a vector-side instruction writes (08:R189, 09:R214, R215). -/
def maskWritten : Instr → Option (Fin 16)
  | .vcmpEq d _ _ _ => some d
  | .vcmpNe d _ _ _ => some d
  | .vcmpLt d _ _ _ => some d
  | .vcmpLe d _ _ _ => some d
  | .vcmpGt d _ _ _ => some d
  | .vcmpGe d _ _ _ => some d
  | .vcmpUn d _ _ _ => some d
  | .vcmpOr d _ _ _ => some d
  | .mkand d _ _ => some d
  | .mkor d _ _ => some d
  | .mkxor d _ _ => some d
  | .mkandn d _ _ => some d
  | .mknot d _ => some d
  | .mkbelow d _ => some d
  | .mkupto d _ => some d
  | .mkfirst d _ => some d
  | .vmovsm _ m => some m
  | _ => none

/-- An instruction in the queue writes mask `m`, alone or in a complement pair (09:R216). -/
def maskPending (s : State) (m : Fin 16) : Bool :=
  s.thr.queue.any (fun q => match q.instr with
    | .complementPair i j => decide (maskWritten i = some m ∨ maskWritten j = some m)
    | i => decide (maskWritten i = some m))

/-- VMOVMS (09:R215, R216): after the queued instructions that write its mask, and no others; modes 5 to 31 are illegal. -/
def execVmovms (d : Fin 64) (o : BitVec 5) (m : Fin 16) (s : State) : Out :=
  if 5 ≤ o.toNat then illegal (.vmovms d o m) s
  else if maskPending s m then drainWait s
  else
    let c := captureCtx s 0 0
    let e : VEnv := ⟨c, ctxBanks s c, .vmovms d o m, 4⟩
    let give (s : State) : Out :=
      let r := movmsValue s e.banks o.toNat m
      done 4 (r.1.setV d r.2)
    match laneHit s e 0 with
    | some h => if h.1.third then laneReport h s else give (laneBlame s h)
    | none => give s

/-- VMOVSM (09:R215): ra into bits [63:0] of md, zero above. -/
def execVmovsm (a : Fin 64) (m : Fin 16) (s : State) : Out :=
  let e := s.venv (.vmovsm a m) 4 a 0
  beforeWhole e none
    (fun s => vdone e (e.banks.foldl (fun acc p => acc.setBank p.2 ((acc.bank p.2).setM m (e.ctx.sa.setWidth 2048))) s)) s

/-! ### Configuration (08:R173-R177) -/

/-- VCFG (08:R175): the tag of wd in every executing bank. -/
def execVcfg (d t : Fin 16) (s : State) : Out :=
  let e := s.venv (.vcfg d t) 4 0 0
  beforeWhole e none (fun s => vdone e (e.banks.foldl (fun acc p => acc.setW p.2 d { acc.wreg p.2 d with tag := BitVec.ofNat 4 t.val }) s)) s

/-- VSPLAT and VIOTA (08:R176, R177): unmasked; `f` gives element `i`. -/
def planSplat (iota : Bool) (d : Fin 16) : Planner := fun e s j bk =>
  let td := (s.bank bk).w[d].tag
  let w := regWidth td (fmtWidth e.ctx.vlcfg.fmt)
  planIf [if iota && !shiftTag td then some (tagFail j d td 0) else none, lenCheck e j d w, wpCheck e s j bk d]
    ⟨granule w, none, [], VDst.plain d w, fun i _ l => plainRes ((e.ctx.sa.toNat + (if iota then i else 0)) % 2 ^ w) l⟩

/-- VSPLAT (08:R176). -/
def execVsplat (d : Fin 16) (a : Fin 64) (s : State) : Out := runPlan (s.venv (.vsplat d a) 4 a 0) (planSplat false d) s

/-- VIOTA (08:R177). -/
def execViota (d : Fin 16) (a : Fin 64) (s : State) : Out := runPlan (s.venv (.viota d a) 4 a 0) (planSplat true d) s

end Sys2Proof.Machine
end

