-- ==== Sys2Proof/Machine/VPlane.lean ====
section
/-!
DEFINITION. Plane instructions (07:R164, R165, 09:R217-R222): a plane value of width W lies in W registers of tag 15, one bit of every element in each.
-/

namespace Sys2Proof.Machine

/-- Registers base to base + w - 1 that exist. -/
def planeRegs (base : Fin 16) (w : Nat) : List (Fin 16) := ((List.range w).filter (fun n => decide (base.val + n < 16))).map (fun n => idx16 (base.val + n))

/-- The widths of PCFG. -/
def PCfg.wdN (p : PCfg) : Nat := p.wd.toNat + 1
def PCfg.waN (p : PCfg) : Nat := p.wa.toNat + 1
def PCfg.wbN (p : PCfg) : Nat := p.wb.toNat + 1

/-- The tag check of a plane value's members: 15, and for a destination also 0 (09:R219). -/
def memberTags (x : Bank) (j : Nat) (base : Fin 16) (w pos : Nat) : List (Option VFail) :=
  (planeRegs base w).map (fun k =>
    let t := x.w[k].tag
    if t = 15 ∨ (pos = 0 ∧ t = 0) then none else some (tagFail j k t pos))

/-- A plane value must end at w15 (09:R219). -/
def baseRange (e : VEnv) (j : Nat) (base : Fin 16) (w : Nat) : Option VFail :=
  if 16 < base.val + w then some (vlFail j base.val e.vl) else none

/-- The destination's registers must not meet a source's, but where it shares its base with the first source and is no wider (09:R219). -/
def overlap (e : VEnv) (j : Nat) (d : Fin 16) (wd : Nat) (a : Fin 16) (wa : Nat) (share : Bool) : Option VFail :=
  if share ∧ d = a ∧ wd ≤ wa then none
  else if d.val < a.val + wa ∧ a.val < d.val + wd then some (vlFail j d.val e.vl)
  else none

/-- Element `i` of a plane value, unsigned. -/
def planeGet (x : Bank) (base : Fin 16) : Nat → Nat → Nat
  | 0, _ => 0
  | w + 1, i => planeGet x base w i + 2 ^ w * getEl x.w[idx16 (base.val + w)].latch 1 i

/-- ext (09:R220): signed or unsigned from its width. -/
def planeExt (sgn : Bool) (w n : Nat) : Int := if sgn then toSigned w n else (n : Int)

/-- Writes element `i` of a plane value into the edits of its registers. -/
def planePut (x : Bank) (a : Edits) (base : Fin 16) (w i v : Nat) (bad : Bool) : Edits :=
  (List.range w).foldl (fun acc n =>
    let k := idx16 (base.val + n)
    acc.setRow k ((acc.row x k).put 1 i (v / 2 ^ n % 2) bad)) a

/-- A plane instruction of one or two sources in one bank: destination width, source widths, checks in the order of 09:R219, and the result of an
element from its unsigned source values, taken modulo 2^WD. -/
def planePlan (d : Fin 16) (wd : Nat) (a : Fin 16) (wa : Nat) (b : Option (Fin 16 × Nat)) (above : List (Option VFail)) (m : Fin 16)
    (f : Nat → Nat → Int) (e : VEnv) (s : State) (j bk : Nat) : Except VFail WholePlan :=
  let x := s.bank bk
  let act := activeIdx e x m 8
  let srcs : List (Fin 16 × Nat × Nat) := (a, wa, 1) :: (match b with | some p => [(p.1, p.2, 2)] | none => [])
  wholeIf ((if e.ctx.vlcfg.fmt = 15 then none else some (fmtFail j e.ctx.vlcfg.fmt)) :: memberTags x j d wd 0 ++
      srcs.flatMap (fun p => memberTags x j p.1 p.2.1 p.2.2) ++ [baseRange e j d wd] ++ srcs.map (fun p => baseRange e j p.1 p.2.1) ++ above ++
      (planeRegs d wd).map (fun k => wpCheck e s j bk k))
    { regs := planeRegs d wd ++ srcs.flatMap (fun p => planeRegs p.1 p.2.1)
      needs := srcs.flatMap (fun p => (planeRegs p.1 p.2.1).map (fun k => ⟨k, 1, p.2.2, act, id⟩))
      eval := fun x tn =>
        act.foldl (fun acc i =>
          let vb := match b with | some p => planeGet x p.1 p.2 i | none => 0
          let bad := srcs.any (fun p => (planeRegs p.1 p.2.1).any (fun k => tn k 1 i))
          planePut x acc d wd i (wrapInt wd (f (planeGet x a wa i) vb)) bad) (Edits.start x) }

/-- VPADD, VPSUB, VPMUL: two sources; `share` lets the destination share the first source's base. -/
def planeBin (share : Bool) (f : Int → Int → Int) (i : Instr) (d a b m : Fin 16) (s : State) : Out :=
  let e := s.venv i 4 0 0
  let p := e.ctx.pcfg
  runWhole e (fun j bk =>
    planePlan d p.wdN a p.waN (some (b, p.wbN)) [overlap e j d p.wdN a p.waN share, overlap e j d p.wdN b p.wbN false] m
      (fun u v => f (planeExt p.sgn p.waN u) (planeExt p.sgn p.wbN v)) e s j bk) s

/-- VPCMP: one result plane, which may lie anywhere. -/
def planeCmp (f : Int → Int → Bool) (i : Instr) (d a b m : Fin 16) (s : State) : Out :=
  let e := s.venv i 4 0 0
  let p := e.ctx.pcfg
  runWhole e (planePlan d 1 a p.waN (some (b, p.wbN)) [] m
    (fun u v => (b2n (f (planeExt p.sgn p.waN u) (planeExt p.sgn p.wbN v)) : Int)) e s) s

/-- One source. -/
def planeSolo (share : Bool) (f : PCfg → Nat → Int) (i : Instr) (d a m : Fin 16) (s : State) : Out :=
  let e := s.venv i 4 0 0
  let p := e.ctx.pcfg
  runWhole e (fun j bk => planePlan d p.wdN a p.waN none [overlap e j d p.wdN a p.waN share] m (fun u _ => f p u) e s j bk) s

/-- VPCFG (09:R217, R218): writes PCFG at issue. -/
def execVpcfg (d a b : Fin 16) (sgn : Bool) (s : State) : Out :=
  let f := s.front
  done 4 (s.setFront { f with pcfg := ⟨sgn, BitVec.ofNat 4 d.val, BitVec.ofNat 4 a.val, BitVec.ofNat 4 b.val⟩ })

/-- VPADD (09:R220). -/
def execVpadd (d a b m : Fin 16) (s : State) : Out := planeBin true (fun u v => u + v) (.vpadd d a b m) d a b m s

/-- VPSUB (09:R220). -/
def execVpsub (d a b m : Fin 16) (s : State) : Out := planeBin true (fun u v => u - v) (.vpsub d a b m) d a b m s

/-- VPMUL (09:R220). -/
def execVpmul (d a b m : Fin 16) (s : State) : Out := planeBin false (fun u v => u * v) (.vpmul d a b m) d a b m s

/-- VPCMP.EQ (09:R220). -/
def execVpcmpEq (d a b m : Fin 16) (s : State) : Out := planeCmp (fun u v => decide (u = v)) (.vpcmpEq d a b m) d a b m s

/-- VPCMP.NE (09:R220). -/
def execVpcmpNe (d a b m : Fin 16) (s : State) : Out := planeCmp (fun u v => decide (u ≠ v)) (.vpcmpNe d a b m) d a b m s

/-- VPCMP.LT (09:R220). -/
def execVpcmpLt (d a b m : Fin 16) (s : State) : Out := planeCmp (fun u v => decide (u < v)) (.vpcmpLt d a b m) d a b m s

/-- VPCMP.LE (09:R220). -/
def execVpcmpLe (d a b m : Fin 16) (s : State) : Out := planeCmp (fun u v => decide (u ≤ v)) (.vpcmpLe d a b m) d a b m s

/-- VPCMP.GT (09:R220). -/
def execVpcmpGt (d a b m : Fin 16) (s : State) : Out := planeCmp (fun u v => decide (v < u)) (.vpcmpGt d a b m) d a b m s

/-- VPCMP.GE (09:R220). -/
def execVpcmpGe (d a b m : Fin 16) (s : State) : Out := planeCmp (fun u v => decide (v ≤ u)) (.vpcmpGe d a b m) d a b m s

/-- VPSLL (09:R220): ext(a) x 2^c. -/
def execVpsll (d a c m : Fin 16) (s : State) : Out :=
  planeSolo true (fun p u => planeExt p.sgn p.waN u * ((2 ^ c.val : Nat) : Int)) (.vpsll d a c m) d a m s

/-- VPSRL (09:R220): a read unsigned, shifted right by c. -/
def execVpsrl (d a c m : Fin 16) (s : State) : Out := planeSolo true (fun _ u => ((u / 2 ^ c.val : Nat) : Int)) (.vpsrl d a c m) d a m s

/-- VPSRA (09:R220): a read signed, shifted right by c. -/
def execVpsra (d a c m : Fin 16) (s : State) : Out :=
  planeSolo true (fun p u => toSigned p.waN u / ((2 ^ c.val : Nat) : Int)) (.vpsra d a c m) d a m s

/-- VPCNT (09:R220): the number of 1 bits among a's planes. -/
def execVpcnt (d a m : Fin 16) (s : State) : Out :=
  planeSolo false (fun p u => (((List.range p.waN).filter (fun n => u.testBit n)).length : Int)) (.vpcnt d a m) d a m s

/-- The word register of VTRP and VTRW carries tag 1, 2, 3 or 14 (09:R222). -/
def wordTag (t : BitVec 4) : Bool := t = 1 || t = 2 || t = 3 || t = 14

/-- The active plane elements of part `p`, as (plane element, word element) (09:R222). -/
def partIdx (e : VEnv) (x : Bank) (m : Fin 16) (w p : Nat) : List (Nat × Nat) :=
  ((activeIdx e x m 8).filter (fun i => decide (i / capOf w = p))).map (fun i => (i, i % capOf w))

/-- VTRP (09:R222): a word register's elements into a plane value. -/
def trpPlan (d a p m : Fin 16) (e : VEnv) (s : State) (j bk : Nat) : Except VFail WholePlan :=
  let x := s.bank bk
  let wd := e.ctx.pcfg.wdN
  let t := x.w[a].tag
  let w := tagWidth t
  let idx := partIdx e x m w p.val
  wholeIf ((if e.ctx.vlcfg.fmt = 15 then none else some (fmtFail j e.ctx.vlcfg.fmt)) :: memberTags x j d wd 0 ++
      [if wordTag t then none else some (tagFail j a t 1), baseRange e j d wd, overlap e j d wd a 1 false,
       if w ≤ p.val then some (vlFail j a.val e.vl) else none] ++ (planeRegs d wd).map (fun k => wpCheck e s j bk k))
    { regs := a :: planeRegs d wd
      needs := [⟨a, w, 1, idx.map (fun q => q.2), id⟩]
      eval := fun x tn => idx.foldl (fun acc q => planePut x acc d wd q.1 (wrapInt wd (intValue t (getEl x.w[a].latch w q.2))) (tn a w q.2))
        (Edits.start x) }

/-- VTRP (09:R222). -/
def execVtrp (d a p m : Fin 16) (s : State) : Out :=
  let e := s.venv (.vtrp d a p m) 4 0 0
  runWhole e (trpPlan d a p m e s) s

/-- VTRW (09:R222): a plane value's elements into a word register. -/
def trwPlan (d a p m : Fin 16) (e : VEnv) (s : State) (j bk : Nat) : Except VFail WholePlan :=
  let x := s.bank bk
  let wa := e.ctx.pcfg.waN
  let t := x.w[d].tag
  let w := tagWidth t
  let idx := partIdx e x m w p.val
  wholeIf ((if e.ctx.vlcfg.fmt = 15 then none else some (fmtFail j e.ctx.vlcfg.fmt)) :: memberTags x j a wa 1 ++
      [if wordTag t then none else some (tagFail j d t 0), baseRange e j a wa, overlap e j d 1 a wa false,
       if w ≤ p.val then some (vlFail j d.val e.vl) else none, wpCheck e s j bk d])
    { regs := d :: planeRegs a wa
      needs := (planeRegs a wa).map (fun k => ⟨k, 1, 1, idx.map (fun q => q.1), id⟩)
      eval := fun x tn => idx.foldl (fun acc q =>
        let bad := (planeRegs a wa).any (fun k => tn k 1 q.1)
        acc.setRow d ((acc.row x d).put w q.2 (wrapInt w (planeExt e.ctx.pcfg.sgn wa (planeGet x a wa q.1))) bad)) (Edits.start x) }

/-- VTRW (09:R222). -/
def execVtrw (d a p m : Fin 16) (s : State) : Out :=
  let e := s.venv (.vtrw d a p m) 4 0 0
  runWhole e (trwPlan d a p m e s) s

end Sys2Proof.Machine
end

