-- ==== Sys2Proof/Machine/Matrix.lean ====
section
/-!
DEFINITION. Tiles, matrix and pinnate instructions (10:R223-R245, 11:R246-R262).
-/

namespace Sys2Proof.Machine

/-! ### Tiles -/

/-- The number whose elements of width `w` are `f 0` to `f (n - 1)`. -/
def packEls (w n : Nat) (f : Nat → Nat) : Nat := (List.range n).foldr (fun i acc => acc * 2 ^ w + f i % 2 ^ w) 0

/-- Element (i, j) of a tile (10:R223). -/
def tileGet (t : TileBits) (i j : Nat) : Nat := getEl t 32 (64 * i + j)

/-- The sum of row `i` of a tile read as INT32, modulo 2^32 (10:R244). -/
def rowSum (t : TileBits) (i : Nat) : Nat := (List.range 64).foldl (fun a j => (a + tileGet t i j) % 2 ^ 32) 0

/-- The tiles of a bank with one replaced. -/
def Bank.setTile (x : Bank) (t : Fin 4) (v : TileBits) : Bank := { x with t := x.t.set t v }

/-- The checksum row of a tile replaced. -/
def Bank.setQ (x : Bank) (t : Fin 4) (v : MaskBits) : Bank := { x with q := x.q.set t v }

/-- Applies a change to one bank. -/
def onBank (s : State) (b : Nat) (f : Bank → Bank) : State := s.setBank b (f (s.bank b))

/-- A number as a tile. -/
def tile4 (n : Nat) : Fin 4 := ⟨n % 4, Nat.mod_lt _ (by decide)⟩

/-- The even and the odd tile of a pair (10:R223). -/
def pairEven (tp : Bool) : Fin 4 := tile4 (2 * b2n tp)
def pairOdd (tp : Bool) : Fin 4 := tile4 (2 * b2n tp + 1)

/-! ### Indivisible instructions -/

/-- What an indivisible instruction does in one bank: registers it touches, words it needs, its effect given the poison found (11:R250). -/
structure FixPlan where
  regs : List (Fin 16)
  needs : List Needs
  run : State → State

/-- Completes an instruction that leaves VSTART unchanged (11:R250). -/
def keepDone (e : VEnv) (s : State) : Out := .next ((vcomplete e s).setVstart s.front.vstart.toNat)

/-- The lowest element of a poisoned word at the source's width (11:R250). -/
def wordFirst (w i : Nat) : Nat := elemWord w i * 256 / w

/-- Runs an indivisible instruction: every check, every poison, then the whole effect in every bank (11:R248, R250). -/
def runFixed (e : VEnv) (check : Nat → Nat → Except VFail FixPlan) (s : State) : Out :=
  match checkBanks check e.banks with
  | .error f => trapCheck e f s
  | .ok l =>
    let s := (l.flatMap (fun p => p.2.2.regs.map (fun k => (p.2.1, k)))).foldl (fun acc q => touchW acc q.1 q.2) (s.setVstart e.vstart)
    let s := lanesRead s (l.map (fun p => (p.2.1, p.2.2.needs.map Needs.reads)))
    let least := leastHit (l.map (fun p =>
      wholePoison (s.bank p.2.1) s.front.vpoison p.1 ⟨p.2.2.regs, p.2.2.needs, fun x _ => Edits.start x⟩))
    let named (h : PoisonHit) : PoisonHit :=
      let w := ((l.flatMap (fun p => p.2.2.needs)).find? (fun n => n.reg == h.reg && n.pos == h.pos)).map (fun n => n.w)
      { h with elem := wordFirst (w.getD 8) h.elem }
    beforeWhole e (least.map named) (fun s =>
      let s1 := l.foldl (fun acc p =>
        let bad := p.2.2.needs.any (fun n => n.els.any (fun i => taintOf (s.bank p.2.1) n.reg n.w i))
        let acc := p.2.2.run acc
        if bad then logUnmarked acc p.2.1 else acc) s
      keepDone e (clearPoisonV s1 (fun i => l.any (fun p => p.2.2.needs.any (fun n => n.els.contains i))))) s

/-- Answers a plan when every check of a list passes. -/
def fixIf (checks : List (Option VFail)) (p : FixPlan) : Except VFail FixPlan :=
  match firstFail checks with
  | some f => .error f
  | none => .ok p

/-- MZERO (11:R252): the tile and its checksum row to zero. -/
def execMzero (t : Fin 4) (s : State) : Out :=
  runFixed (s.venv (.mzero t) 4 0 0)
    (fun _ b => .ok ⟨[], [], fun s => onBank s b (fun x => (x.setTile t 0).setQ t 0)⟩) s

/-- The tag check of MLD and MST (11:R256). -/
def blockTag (pair : Bool) (j : Nat) (a : Fin 16) (tag : BitVec 4) (pos : Nat) : Option VFail :=
  if tag = 0 ∨ (if pair then tag = 5 ∨ tag = 12 else tag = 4 ∨ tag = 11) then none else some (tagFail j a tag pos)

/-- Rows 8b to 8b + 7 of a tile set to the beats of a latch (11:R255). -/
def putBlock (t : TileBits) (b : Nat) (latch : RowBits) : TileBits := setEl t 16384 b latch.toNat

/-- The 32-bit halves of the elements of a latch for the even (`h` = 0) or odd tile of a pair (11:R255). -/
def pairHalf (latch : RowBits) (h : Nat) : Nat := packEls 32 256 (fun n => getEl latch 32 (2 * n + h))

/-- The checksum rows of `n` tile rows from `i` set to their row sums (11:R256). -/
def sumRows (x : Bank) (t : Fin 4) (i n : Nat) : Bank :=
  x.setQ t ((List.range n).foldl (fun q d => setEl q 32 (i + d) (rowSum x.t[t] (i + d))) x.q[t])

/-- MLD (11:R255, R256). -/
def execMld (t : Fin 4) (a b : Fin 16) (s : State) : Out :=
  if 8 ≤ b.val then illegal (.mld t a b) s
  else
    let e := s.venv (.mld t a b) 4 0 0
    runFixed e (fun j bk => fixIf [blockTag false j a (s.bank bk).w[a].tag 1]
      ⟨[a], [⟨a, 32, 1, List.range 512, id⟩], fun s => onBank s bk (fun x => sumRows (x.setTile t (putBlock x.t[t] b.val x.w[a].latch)) t (8 * b.val) 8)⟩) s

/-- MLD.P (11:R255, R256). -/
def execMldP (t : Fin 4) (a b : Fin 16) (s : State) : Out :=
  if t.val % 2 = 1 then illegal (.mldP t a b) s
  else
    let e := s.venv (.mldP t a b) 4 0 0
    let o := tile4 (t.val + 1)
    runFixed e (fun j bk => fixIf [blockTag true j a (s.bank bk).w[a].tag 1]
      ⟨[a], [⟨a, 64, 1, List.range 256, id⟩], fun s => onBank s bk (fun x =>
        let l := x.w[a].latch
        let x := x.setTile t (setEl x.t[t] 8192 b.val (pairHalf l 0))
        let x := x.setTile o (setEl x.t[o] 8192 b.val (pairHalf l 1))
        sumRows (sumRows x t (4 * b.val) 4) o (4 * b.val) 4)⟩) s

/-- The write-protect check of MST (11:R256): whatever LIVE is. -/
def wpBound (s : State) (j b : Nat) (k : Fin 16) : Option VFail :=
  let r := s.wreg b k
  if r.state.bound ∧ !r.writable then some ⟨cWrite, rowVa s j k.val r.row.toNat⟩ else none

/-- A whole-row local write of a register: every poison flag clears (04:R85, 21:R449). -/
def storeRow (s : State) (b : Nat) (k : Fin 16) (v : Nat) : State := localWrite (freshLatch s b k.val) b k (BitVec.ofNat 16384 v) 0

/-- MST (11:R255, R256). -/
def execMst (t : Fin 4) (a b : Fin 16) (s : State) : Out :=
  if 8 ≤ b.val then illegal (.mst t a b) s
  else
    let e := s.venv (.mst t a b) 4 0 0
    runFixed e (fun j bk => fixIf [blockTag false j a (s.bank bk).w[a].tag 0, wpBound s j bk a]
      ⟨[a], [], fun s => storeRow s bk a (getEl (s.bank bk).t[t] 16384 b.val)⟩) s

/-- MST.P (11:R255, R256). -/
def execMstP (t : Fin 4) (a b : Fin 16) (s : State) : Out :=
  if t.val % 2 = 1 then illegal (.mstP t a b) s
  else
    let e := s.venv (.mstP t a b) 4 0 0
    let o := tile4 (t.val + 1)
    runFixed e (fun j bk => fixIf [blockTag true j a (s.bank bk).w[a].tag 0, wpBound s j bk a]
      ⟨[a], [], fun s =>
        let x := s.bank bk
        storeRow s bk a (packEls 64 256 (fun n => getEl x.t[t] 32 (256 * b.val + n) + 2 ^ 32 * getEl x.t[o] 32 (256 * b.val + n)))⟩) s

/-- The rounding of the matrix array: RMODE, with SR carried out as RNE (10:R227). -/
def matCtl (s : State) : RCtl :=
  let c := s.rctl 0 false
  if c.mode = rmSR then { c with mode := rmRNE } else c

/-- A tile's elements computed anew in row order, with the flags they raise; `f n old` gives element n = 64 i + j. -/
def mapTile (t : TileBits) (f : Nat → Nat → Nat × BitVec 5) : TileBits × BitVec 5 :=
  let l := (List.range 4096).map (fun n => f n (getEl t 32 n))
  (BitVec.ofNat 131072 (l.foldr (fun p acc => acc * 2 ^ 32 + p.1 % 2 ^ 32) 0), l.foldl (fun a p => a ||| p.2) 0)

/-- MSCALE (10:R232, 11:R257): every element of column j times 2^(c_j - 127), rounded. -/
def execMscale (t : Fin 4) (a : Fin 16) (s : State) : Out :=
  let e := s.venv (.mscale t a) 4 0 0
  let c := matCtl s
  runFixed e (fun j bk => fixIf [if (s.bank bk).w[a].tag = 13 then none else some (tagFail j a (s.bank bk).w[a].tag 1)]
    ⟨[a], [⟨a, 8, 1, List.range 64, id⟩], fun s => onBank s bk (fun x =>
      let r := mapTile x.t[t] (fun n old =>
        let sc := getEl x.w[a].latch 8 (n % 64)
        if sc = 255 then (canonNaN 11, 0)
        else
          let z := roundTo 11 c 0 ((fdecode 11 c.ftz old).scale ((sc : Int) - 127))
          (z.code, z.flags))
      { x.setTile t r.1 with flags := x.flags ||| r.2 })⟩) s

/-! ### Checksum comparison -/

/-- The lowest row of a tile whose sum differs from its checksum entry (10:R245). -/
def missRow (x : Bank) (t : Fin 4) : Option Nat := (List.range 64).find? (fun i => rowSum x.t[t] i != getEl x.q[t] 32 i)

/-- The first bank, lowest logical number first, with a mismatch: logical bank, bank, row. -/
def firstMiss (s : State) (t : Fin 4) (banks : List (Nat × Nat)) : Option (Nat × Nat × Nat) :=
  banks.findSome? (fun p => (missRow (s.bank p.2) t).map (fun r => (p.1, p.2, r)))

/-- A checksum mismatch (10:R245): every bank clears the tile and its checksum row, SPROG names where to resume, the mismatch is logged, the
trap taken. -/
def trapCheckRow (e : VEnv) (t : Fin 4) (h : Nat × Nat × Nat) (weight : Nat) (sp : SProg) (s : State) : Out :=
  let s := e.banks.foldl (fun acc p => onBank acc p.2 (fun x => (x.setTile t 0).setQ t 0)) s
  let s := checksumMiss s h.2.1 t.val h.2.2
  let s := s.setFront { s.front with sprog := sp }
  trapVector e ⟨cCheck, BitVec.ofNat 64 (h.1 % 256 + t.val * 2 ^ 8 + h.2.2 * 2 ^ 10 + weight * 2 ^ 16), true, false⟩ s

/-- MCHK (11:R258). -/
def execMchk (t : Fin 4) (s : State) : Out :=
  let e := s.venv (.mchk t) 4 0 0
  let s := s.setVstart e.vstart
  match firstMiss s t e.banks with
  | none => keepDone e s
  | some h => trapCheckRow e t h 0 ⟨true, 0, false, false, false, BitVec.ofNat 2 t.val, 0, 0, 0⟩ s

/-! ### Matrix steps -/

/-- The format in which the matrix array reads a pair of tags: each source's own, the other's for tag 0 (10:R226). None where the pair is not
accepted. The flag says that the tile is FP32. -/
def matPair (ta tb : BitVec 4) : Option (BitVec 4 × BitVec 4 × Bool) :=
  let a := if ta = 0 then tb else ta
  let b := if tb = 0 then ta else tb
  let f8 (t : BitVec 4) : Bool := t = 6 || t = 7
  let i8 (t : BitVec 4) : Bool := t = 1 || t = 2
  if f8 a && f8 b then some (a, b, true)
  else if i8 a && i8 b then some (a, b, false)
  else if a = b then
    (if a = 8 ∨ a = 9 ∨ a = 10 then some (a, b, true) else if a = 14 then some (a, b, false) else none)
  else none

/-- The pairs of the MX forms (11:R254): two FP8, two E2M1 or two INT8 registers, each under its own tag. -/
def mxPair (ta tb : BitVec 4) : Option (BitVec 4 × BitVec 4 × Bool) :=
  let f8 (t : BitVec 4) : Bool := t = 6 || t = 7
  if (f8 ta && f8 tb) || decide (ta = 8 ∧ tb = 8) || decide (ta = 1 ∧ tb = 1) then some (ta, tb, true) else none

/-- The register a refused pair of an MX form names (11:R254; DEDUCED, log 13): wa where its tag stands in no pair, else wb. -/
def mxFail (j : Nat) (a b : Fin 16) (ta tb : BitVec 4) : VFail :=
  if (mxPair ta ta).isSome then tagFail j b tb 2 else tagFail j a ta 1

/-- A tag that stands in some accepted pair (10:R226). -/
def matTag (t : BitVec 4) : Bool := (matPair t t).isSome

/-- The register a refused pair names (11:R253; DEDUCED, log 13): wa where its tag stands in no pair or both tags are 0, else wb. -/
def matFail (j : Nat) (a b : Fin 16) (ta tb : BitVec 4) : VFail :=
  if (ta = 0 ∧ tb = 0) ∨ (ta ≠ 0 ∧ !matTag ta) then tagFail j a ta 1 else tagFail j b tb 2

/-- What a matrix step does in one bank: tile and checksum, source formats, activity of loop index 64k + i, and the A scale of an element. -/
structure StepPlan where
  t : Fin 4
  a : Fin 16
  b : Fin 16
  fa : BitVec 4
  fb : BitVec 4
  fp : Bool
  mx : Option (Fin 16 × Nat)
  sub : Bool
  ck : Bool
  on : Nat → Bool

/-- The value of a source element: an INT8 element of an MX form is its integer times 2^-6 (06:R138, 10:R231). -/
def StepPlan.val (p : StepPlan) (t : BitVec 4) (code : Nat) : FReal :=
  if isIntTag t then (realOfInt (intValue t code)).scale (if p.mx.isSome then -6 else 0) else fdecode t false code

/-- A element `n` with its block scale. -/
def StepPlan.aVal (p : StepPlan) (x : Bank) (n : Nat) : FReal :=
  let v := p.val p.fa (getEl x.w[p.a].latch (tagWidth p.fa) n)
  match p.mx with
  | none => v
  | some (ms, bl) =>
    let c := getEl x.w[ms].latch 8 (n / bl)
    if c = 255 then .nan false else v.scale ((c : Int) - 127)

/-- The rank-1 update `k` of a bank (10:R227-R229, R244). -/
def StepPlan.update (p : StepPlan) (c : RCtl) (x : Bank) (k : Nat) : Bank :=
  let ia (i : Nat) : Int := intValue p.fa (getEl x.w[p.a].latch (tagWidth p.fa) (64 * k + i))
  let ib (j : Nat) : Int := intValue p.fb (getEl x.w[p.b].latch (tagWidth p.fb) (64 * k + j))
  let sg : Int := if p.sub then -1 else 1
  let av := (List.range 64).map (fun i => if p.fp then p.aVal x (64 * k + i) else .nan false)
  let bv := (List.range 64).map (fun j => if p.fp then p.val p.fb (getEl x.w[p.b].latch (tagWidth p.fb) (64 * k + j)) else .nan false)
  let r := mapTile x.t[p.t] (fun n old =>
    if p.on (64 * k + n / 64) && p.on (64 * k + n % 64) then
      if p.fp then
        let a := (av[n / 64]?).getD (.nan false)
        let b := (bv[n % 64]?).getD (.nan false)
        let z := finishF 11 c 0 (fmaX c.mode (if p.sub then a.neg else a) b (fdecode 11 c.ftz old))
        (z.code, z.flags)
      else (wrapInt 32 ((old : Int) + sg * ia (n / 64) * ib (n % 64)), 0)
    else (old, 0))
  let x1 := { x.setTile p.t r.1 with flags := x.flags ||| r.2 }
  if p.ck then
    let sigma : Int := ((List.range 64).filter (fun j => p.on (64 * k + j))).foldl (fun acc j => acc + ib j) 0
    x1.setQ p.t (((List.range 64).filter (fun i => p.on (64 * k + i))).foldl
      (fun q i => setEl q 32 i (wrapInt 32 ((getEl q 32 i : Int) + sg * ia i * sigma))) x1.q[p.t])
  else x1

/-- Updates lo to hi - 1 in one bank. -/
def StepPlan.updates (p : StepPlan) (c : RCtl) (lo hi : Nat) (x : Bank) : Bank :=
  ((List.range hi).filter (fun k => decide (lo ≤ k))).foldl (fun acc k => p.update c acc k) x

/-- The plan's sources as element picks, for the poison rules (10:R230). -/
def StepPlan.pick (p : StepPlan) : Pick := fun i =>
  if p.on i then
    some { gran := 1, mask := none, dst := .mask 0, run := fun _ _ l => plainRes 0 l,
           srcs := [VSrc.plain p.a (tagWidth p.fa) 1, VSrc.plain p.b (tagWidth p.fb) 2] ++
             (match p.mx with | some (ms, bl) => [⟨ms, 8, 3, fun n => n / bl⟩] | none => []) }
  else none

/-- Updates lo to hi - 1 in one bank, with the log entry of a tile that poisoned bits reach (21:R453). -/
def StepPlan.advance (p : StepPlan) (c : RCtl) (lo hi : Nat) (s : State) (b : Nat) : State :=
  let x := s.bank b
  let used := !(x.w.toList.all (fun r => r.poison == 0)) && (List.range (64 * hi)).any (fun i =>
    decide (64 * lo ≤ i) && (match p.pick i with | some q => tainted x q i | none => false))
  let s := onBank s b (p.updates c lo hi)
  if used then logUnmarked s b else s

/-- The words that a matrix step's lanes read (07:R146). -/
def StepPlan.reads (p : StepPlan) (vl : Nat) : List Reads :=
  [(p.a, beatsOf (tagWidth p.fa) (List.range vl)), (p.b, beatsOf (tagWidth p.fb) (List.range vl))] ++
  (match p.mx with | some (ms, bl) => [(ms, beatsOf 8 ((List.range vl).map (fun n => n / bl)))] | none => [])

/-- Runs a matrix step: all checks, then updates up to the first that needs a poisoned word, or that a hard pre-emption stops (10:R230,
11:R253). -/
def runStep (e : VEnv) (check : Nat → Nat → Except VFail StepPlan) (s : State) : Out :=
  match checkBanks check e.banks with
  | .error f => trapCheck e f s
  | .ok l =>
    let s := (l.flatMap (fun p => ([p.2.2.a, p.2.2.b] ++ (p.2.2.mx.map (fun m => m.1)).toList).map (fun k => (p.2.1, k)))).foldl
      (fun acc q => touchW acc q.1 q.2) (s.setVstart e.vstart)
    let s := lanesRead s (l.map (fun p => (p.2.1, p.2.2.reads e.vl)))
    let lo := e.vstart / 64
    let hit := leastHit (l.map (fun p => bankPoison s s.front.vpoison 64 p.1 p.2.1 p.2.2.pick (64 * lo) (e.vl - 64 * lo)))
    let cut := (s.stopAfter.map (fun n => lo + n)).filter (fun k => decide (k < e.vl / 64))
    let poisonAt := match hit with | some h => h.elem / 64 | none => e.vl / 64
    let hi := Nat.min (cut.getD (e.vl / 64)) poisonAt
    let s1 := clearPoisonV (l.foldl (fun acc p => p.2.2.advance (matCtl s) lo hi acc p.2.1) s) (ranTo (64 * lo) (64 * hi))
    if cut = some hi then stopVector e (s1.setVstart (64 * hi))
    else
      match hit with
      | some h => trapPoison e h (64 * hi) s1
      | none => vdone e s1

/-- VL must be a multiple of 64 (10:R229); the failure names wa (08:R169). -/
def vl64 (e : VEnv) (j : Nat) (a : Fin 16) : Option VFail := if e.vl % 64 = 0 then none else some (vlFail j a.val e.vl)

/-- MOPA and MOPS (11:R253). -/
def stepCheck (sub : Bool) (t : Fin 4) (a b m : Fin 16) (ck : Bool) (e : VEnv) (s : State) (j bk : Nat) : Except VFail StepPlan :=
  let x := s.bank bk
  match matPair x.w[a].tag x.w[b].tag with
  | none => .error (matFail j a b x.w[a].tag x.w[b].tag)
  | some (fa, fb, fp) =>
    let g := granule (tagWidth fa)
    match firstFail [if ck && fp then some (tagFail j a x.w[a].tag 1) else none, vl64 e j a, lenCheck e j a (tagWidth fa),
        lenCheck e j b (tagWidth fb)] with
    | some f => .error f
    | none => .ok ⟨t, a, b, fa, fb, fp, none, sub, ck, fun i => decide (e.vstart ≤ i ∧ i < e.live) && maskBit (x.getM m) (i / g)⟩

/-- MOPA.MX and MOPS.MX (10:R231, 11:R254): unmasked, scales in ms. -/
def stepCheckMX (sub : Bool) (ms : Fin 16) (t : Fin 4) (a b : Fin 16) (e : VEnv) (s : State) (j bk : Nat) : Except VFail StepPlan :=
  let x := s.bank bk
  let bl := 2 ^ e.ctx.vlcfg.blk.toNat
  match mxPair x.w[a].tag x.w[b].tag with
  | none => .error (mxFail j a b x.w[a].tag x.w[b].tag)
  | some (fa, fb, fp) =>
    match firstFail [if x.w[ms].tag = 13 then none else some (tagFail j ms x.w[ms].tag 3), vl64 e j a, lenCheck e j a (tagWidth fa),
        lenCheck e j b (tagWidth fb), if 2048 < (e.vl + bl - 1) / bl then some (vlFail j 0 e.vl) else none] with
    | some f => .error f
    | none => .ok ⟨t, a, b, fa, fb, fp, some (ms, bl), sub, false, fun i => decide (e.vstart ≤ i ∧ i < e.live)⟩

/-- MOPA (11:R253). -/
def execMopa (t : Fin 4) (a b m : Fin 16) (ck : Bool) (s : State) : Out :=
  let e := s.venv (.mopa t a b m ck) 4 0 0
  runStep e (stepCheck false t a b m ck e s) s

/-- MOPS (11:R253). -/
def execMops (t : Fin 4) (a b m : Fin 16) (ck : Bool) (s : State) : Out :=
  let e := s.venv (.mops t a b m ck) 4 0 0
  runStep e (stepCheck true t a b m ck e s) s

/-- MOPA.MX (11:R254). -/
def execMopaMX (ms : Fin 16) (t : Fin 4) (a b : Fin 16) (s : State) : Out :=
  let e := s.venv (.mopaMX ms t a b) 4 0 0
  runStep e (stepCheckMX false ms t a b e s) s

/-- MOPS.MX (11:R254). -/
def execMopsMX (ms : Fin 16) (t : Fin 4) (a b : Fin 16) (s : State) : Out :=
  let e := s.venv (.mopsMX ms t a b) 4 0 0
  runStep e (stepCheckMX true ms t a b e s) s

/-! ### Pinnate: exponents, slices, folds -/

/-- ⌊log2 |x|⌋ of a finite non-zero value. -/
def floorLog (m : Nat) (e : Int) : Int := (Nat.log2 m : Int) + e

/-- The tag check of a pinnate source (11:R259, R260): FP64, or FP32 with at most 4 slices. -/
def pinSrc (j : Nat) (a : Fin 16) (ta : BitVec 4) (S : Nat) : Option VFail :=
  if ta = 12 ∨ (ta = 11 ∧ S ≤ 4) then none else some (tagFail j a ta 1)

/-- The exponent of row r after PEXP has read an element (11:R259). -/
def expStep (e : Int) (x : FReal) : Int :=
  match x with
  | .fin _ m ex _ => if m = 0 then e else max e (floorLog m ex)
  | _ => 32767

/-- PEXP (11:R259). -/
def execPexp (d a : Fin 16) (i : BitVec 8) (S : Fin 8) (m : Fin 16) (s : State) : Out :=
  let e := s.venv (.pexp d a i S m) 8 0 0
  let acc := i.getLsbD 0
  runWhole e (fun j bk =>
    let x := s.bank bk
    let ta := x.w[a].tag
    let w := tagWidth ta
    wholeIf [if ta = 11 ∨ ta = 12 then none else some (tagFail j a ta 1), if x.w[d].tag = 3 then none else some (tagFail j d x.w[d].tag 0),
        pinSrc j a ta S.val, lenCheck e j a w, wpBound s j bk d]
      { regs := [d, a]
        needs := [⟨a, w, 1, activeIdx e x m (granule w), id⟩, ⟨d, 16, 0, if acc then List.range 64 else [], fun i => i % 64⟩]
        eval := fun x tn =>
          let act := activeIdx e x m (granule w)
          let ex (r : Nat) : Int := (act.filter (fun n => n % 64 == r)).foldl
            (fun v n => expStep v (fdecode ta false (getEl x.w[a].latch w n))) (if acc then toSigned 16 (getEl x.w[d].latch 16 r) else -1075)
          let bad (r : Nat) : Bool := (acc && tn d 16 r) || act.any (fun n => n % 64 == r && tn a w n)
          let row := (List.range 64).foldl (fun (q : RowEdit) r => q.put 16 r (wrapInt 16 (ex r)) (bad r)) ⟨x.w[d].latch, 0, 0⟩
          { Edits.start x with rows := [(d, row)] } }) s

/-- SliceOf (07:R166) of a finite value. -/
def sliceOf (neg : Bool) (m : Nat) (ex e : Int) (S n : Nat) : Int :=
  let sh := ex + 7 * (S : Int) - 1 - e
  let mag := if 0 ≤ sh then m * 2 ^ sh.toNat else m / 2 ^ (-sh).toNat
  let q : Int := ((mag / 2 ^ (7 * (S - 1 - n)) % 128 : Nat) : Int)
  if neg then -q else q

/-- PSPLIT raises NV for an element against its exponent (11:R260). -/
def splitFlags (v : FReal) (ex : Int) : BitVec 5 :=
  match v with
  | .fin _ m e0 _ => if m ≠ 0 ∧ ex + 1 ≤ floorLog m e0 then fNV else 0
  | _ => if ex = 32767 then 0 else fNV

/-- The slice of an element (11:R260). -/
def splitSlice (v : FReal) (ex : Int) (S n : Nat) : Int :=
  if ex = 32767 then 0
  else
    match v with
    | .fin neg m e0 _ => sliceOf neg m e0 ex S n
    | _ => 0

/-- PSPLIT (11:R260). -/
def execPsplit (d a c : Fin 16) (i : BitVec 8) (S : Fin 8) (m : Fin 16) (s : State) : Out :=
  let e := s.venv (.psplit d a c i S m) 8 0 0
  let part := i.toNat % 8
  runWhole e (fun j bk =>
    let x := s.bank bk
    let ta := x.w[a].tag
    let w := tagWidth ta
    let ds := planeRegs d S.val
    let o := part * capOf w
    let idx (x : Bank) : List Nat := activeIdx e x m (granule w)
    wholeIf ([if ta = 11 ∨ ta = 12 then none else some (tagFail j a ta 1)] ++
        ds.map (fun k => if x.w[k].tag = 1 then none else some (tagFail j k x.w[k].tag 0)) ++
        [if x.w[c].tag = 3 then none else some (tagFail j c x.w[c].tag 3), pinSrc j a ta S.val,
         if 16 < d.val + S.val then some (vlFail j d.val e.vl) else none, lenCheck e j a w,
         if w / 8 ≤ part then some (vlFail j d.val e.vl) else none] ++ ds.map (fun k => wpCheck e s j bk k))
      { regs := ds ++ [a, c]
        needs := [⟨a, w, 1, idx x, id⟩, ⟨c, 16, 3, (idx x).map (fun n => n % 64), fun n => n % 64⟩]
        eval := fun x tn =>
          (idx x).foldl (fun acc n =>
            let v := fdecode ta false (getEl x.w[a].latch w n)
            let ex := toSigned 16 (getEl x.w[c].latch 16 (n % 64))
            let bad := tn a w n || tn c 16 (n % 64)
            let acc := (enumFrom 0 ds).foldl (fun (q : Edits) p =>
              q.setRow p.2 ((q.row x p.2).put 8 (n + o) (wrapInt 8 (splitSlice v ex S.val p.1)) bad)) acc
            { acc with flags := acc.flags ||| splitFlags v ex }) (Edits.start x) }) s

/-- FP64 element (i, j) of a pair (10:R223). -/
def pairGet (x : Bank) (tp : Bool) (n : Nat) : Nat := getEl x.t[pairEven tp] 32 n + 2 ^ 32 * getEl x.t[pairOdd tp] 32 n

/-- The fold of tile `ti` into the pair at weight `v` (10:R236, 11:R262): the pair takes the sums, N and Q become zero. -/
def foldTile (tp : Bool) (ti : Fin 4) (c e : Fin 16) (v : Nat) (x : Bank) : Bank :=
  let ea (k : Fin 16) (i : Nat) : Int := toSigned 16 (getEl x.w[k].latch 16 i)
  let l := (List.range 4096).map (fun n =>
    let a := ea c (n / 64)
    let b := ea e (n % 64)
    if a = 32767 ∨ b = 32767 then (⟨canonNaN 12, fNV, 0⟩ : Rounded)
    else finishF 12 ⟨rmRNE, false, false⟩ 0
      (addX rmRNE (fdecode 12 false (pairGet x tp n)) ((realOfInt (toSigned 32 (getEl x.t[ti] 32 n))).scale (a + b - 12 - 7 * (v : Int)))))
  let half (h : Nat) : TileBits := BitVec.ofNat 131072 (l.foldr (fun (r : Rounded) acc => acc * 2 ^ 32 + r.code / 2 ^ h % 2 ^ 32) 0)
  let x := { x with flags := l.foldl (fun f (r : Rounded) => f ||| r.flags) x.flags }
  (((x.setTile (pairEven tp) (half 0)).setTile (pairOdd tp) (half 32)).setTile ti 0).setQ ti 0

/-- PFOLD (11:R262). -/
def execPfold (tp : Bool) (ti : Fin 4) (c e : Fin 16) (i : BitVec 8) (s : State) : Out :=
  if ti.val / 2 = b2n tp then illegal (.pfold tp ti c e i) s
  else
    let env := s.venv (.pfold tp ti c e i) 8 0 0
    runFixed env (fun j bk =>
      let x := s.bank bk
      fixIf [if x.w[c].tag = 3 then none else some (tagFail j c x.w[c].tag 3), if x.w[e].tag = 3 then none else some (tagFail j e x.w[e].tag 3)]
        ⟨[c, e], [⟨c, 16, 3, List.range 64, id⟩, ⟨e, 16, 3, List.range 64, id⟩], fun s => onBank s bk (foldTile tp ti c e i.toNat)⟩) s

/-! ### PMMA -/

/-- The fields of a PMMA. -/
structure Pin where
  tp : Bool
  ti : Fin 4
  a : Fin 16
  b : Fin 16
  c : Fin 16
  e : Fin 16
  S : Nat
  full : Bool
  ck : Bool
  m : Fin 16

/-- The highest weight W (10:R235). -/
def Pin.top (p : Pin) : Nat := if p.full then 2 * p.S - 2 else p.S - 1

/-- The first slice of the pairs of weight v, and how many there are (10:R235, R236). -/
def Pin.first (p : Pin) (v : Nat) : Nat := v + 1 - p.S
def Pin.count (p : Pin) (v : Nat) : Nat := min v (p.S - 1) + 1 - p.first v

/-- The resumption check of 10:R243. -/
def Pin.resumes (p : Pin) (sp : SProg) (kc : Nat) : Bool :=
  decide (sp.s.toNat = p.S) && sp.full == p.full && sp.ck == p.ck && sp.tp == p.tp && decide (sp.ti.toNat = p.ti.val) &&
  decide (sp.weight.toNat ≤ p.top) && decide (sp.pair.toNat < p.count sp.weight.toNat) && decide (sp.kstep.toNat < kc)

/-- SPROG of a stopped PMMA (10:R241). -/
def Pin.progress (p : Pin) (v n k : Nat) : SProg :=
  ⟨true, BitVec.ofNat 3 p.S, p.full, p.ck, p.tp, BitVec.ofNat 2 p.ti.val, BitVec.ofNat 4 v, BitVec.ofNat 3 n, BitVec.ofNat 6 k⟩

/-- Pair `n` of weight `v` as a matrix step of k steps: slices wa + s and wb + v - s. -/
def Pin.step (p : Pin) (e : VEnv) (x : Bank) (v n : Nat) : StepPlan :=
  let sl := p.first v + n
  ⟨p.ti, idx16 (p.a.val + sl), idx16 (p.b.val + (v - sl)), 1, 1, false, none, false, p.ck,
   fun i => decide (e.vstart ≤ i ∧ i < e.live) && maskBit (x.getM p.m) i⟩

/-- The pairs still to run as (weight, pair), from the top weight down (10:R235, R236). -/
def Pin.order (p : Pin) (v0 n0 : Nat) : List (Nat × Nat) :=
  ((List.range (v0 + 1)).reverse).flatMap (fun v =>
    ((List.range (p.count v)).filter (fun n => decide (v < v0 ∨ n0 ≤ n))).map (fun n => (v, n)))

/-- A poison met before k step `k` of pair `n` of weight `v`, k steps below `k0` apart. -/
def Pin.poison (p : Pin) (e : VEnv) (s : State) (v n k0 : Nat) : Option PoisonHit :=
  leastHit (e.banks.map (fun q => bankPoison s s.front.vpoison 64 q.1 q.2 (p.step e (s.bank q.2) v n).pick (64 * k0) (e.vl - 64 * k0)))

/-- The poison of the exponent registers, which a fold needs; none on resumption after a poison trap of k step 0, which they belong to (16:R371,
21:R452). -/
def Pin.foldPoison (p : Pin) (e : VEnv) (s : State) : Option PoisonHit :=
  let v := s.front.vpoison
  if v.v && decide (v.elem.toNat / 64 = 0) then none
  else leastHit (e.banks.map (fun q => wholePoison (s.bank q.2) v q.1
    ⟨[], [⟨p.c, 16, 3, List.range 64, id⟩, ⟨p.e, 16, 3, List.range 64, id⟩], fun x _ => Edits.start x⟩))

/-- Stops PMMA on poison before k step `k` of a pair (10:R242). -/
def Pin.stop (p : Pin) (e : VEnv) (h : PoisonHit) (v n k : Nat) (s : State) : Out :=
  trapPoison e h e.vstart (s.setFront { s.front with sprog := p.progress v n k })

/-- The fold of weight `v` in every executing bank, with the log entry of a tile that poisoned exponents reach (10:R236, 21:R453). -/
def Pin.fold (p : Pin) (e : VEnv) (v : Nat) (s : State) : State :=
  e.banks.foldl (fun acc q =>
    let x := acc.bank q.2
    let bad := (List.range 64).any (fun i => taintOf x p.c 16 i || taintOf x p.e 16 i)
    let acc := onBank acc q.2 (foldTile p.tp p.ti p.c p.e v)
    if bad then logUnmarked acc q.2 else acc) s

/-- Runs the pairs of a list; `k0` is the first k step of the first, `left` the k steps that a hard pre-emption leaves it (10:R236, R242, R245).
VPOISON.V clears as soon as the k step of its element has been added (21:R452). -/
def Pin.run (p : Pin) (e : VEnv) : Nat → Option Nat → List (Nat × Nat) → State → Out
  | _, _, [], s => vdone e (s.setFront { s.front with sprog := SProg.reset })
  | k0, left, (v, n) :: t, s =>
    let kc := e.vl / 64
    let go (hi : Nat) (s : State) : State :=
      clearPoisonV (e.banks.foldl (fun acc q => (p.step e (acc.bank q.2) v n).advance ⟨rmRNE, false, false⟩ k0 hi acc q.2) s)
        (ranTo (64 * k0) (64 * hi))
    let hit := p.poison e s v n k0
    let poisonAt := match hit with | some h => h.elem / 64 | none => kc
    match left.filter (fun r => decide (k0 + r < kc ∧ k0 + r ≤ poisonAt)), hit with
    | some r, _ =>
      let s := go (k0 + r) s
      stopVector e (s.setFront { s.front with sprog := p.progress v n (k0 + r) })
    | none, some h => p.stop e h v n (h.elem / 64) (go (h.elem / 64) s)
    | none, none =>
      let s := go kc s
      let left := left.map (fun r => r - (kc - k0))
      if n + 1 < p.count v then p.run e 0 left t s
      else
        match (if p.ck then firstMiss s p.ti e.banks else none) with
        | some h => trapCheckRow e p.ti h v (p.progress v 0 0) s
        | none => p.run e 0 left t (p.fold e v s)

/-- The checks of 10:R237 in one bank, after the illegal-instruction check. -/
def Pin.check (p : Pin) (e : VEnv) (sp : SProg) (x : Bank) (j : Nat) : Option VFail :=
  let sl (base : Fin 16) (pos : Nat) : List (Option VFail) :=
    (planeRegs base p.S).map (fun k => if x.w[k].tag = 1 then none else some (tagFail j k x.w[k].tag pos))
  firstFail ([if 16 < p.a.val + p.S then some (vlFail j p.a.val e.vl) else none,
      if 16 < p.b.val + p.S then some (vlFail j p.b.val e.vl) else none] ++ sl p.a 1 ++ sl p.b 2 ++
    [if x.w[p.c].tag = 3 then none else some (tagFail j p.c x.w[p.c].tag 3), if x.w[p.e].tag = 3 then none else some (tagFail j p.e x.w[p.e].tag 3),
     vl64 e j p.a, lenCheck e j p.a 8,
     if sp.active && !p.resumes sp (e.vl / 64) then some ⟨cPinnate, sp.word⟩ else none])

/-- The words that PMMA's lanes read: its slices below VL and its exponents (07:R146). -/
def Pin.reads (p : Pin) (vl : Nat) : List Reads :=
  (planeRegs p.a p.S ++ planeRegs p.b p.S).map (fun k => (k, beatsOf 8 (List.range vl))) ++
  [(p.c, beatsOf 16 (List.range 64)), (p.e, beatsOf 16 (List.range 64))]

/-- PMMA (10:R236, 11:R261). A poisoned exponent register stops it before its first k step. One resumed with VSTART at or above LIVE commits nothing
(20:R434). -/
def execPmma (tp : Bool) (ti : Fin 4) (a b c w : Fin 16) (S : Fin 8) (full ck : Bool) (m : Fin 16) (s : State) : Out :=
  let i := Instr.pmma tp ti a b c w S full ck m
  if ti.val / 2 = b2n tp then illegal i s
  else
    let e := s.venv i 8 0 0
    let p : Pin := ⟨tp, ti, a, b, c, w, S.val, full, ck, m⟩
    let sp := s.front.sprog
    match checkBanks (fun j bk => match p.check e sp (s.bank bk) j with | some f => .error f | none => .ok ()) e.banks with
    | .error f => trapCheck e f s
    | .ok _ =>
      let s := (e.banks.flatMap (fun q => (planeRegs a S.val ++ planeRegs b S.val ++ [c, w]).map (fun k => (q.2, k)))).foldl
        (fun acc q => touchW acc q.1 q.2) (s.setVstart e.vstart)
      let s := lanesRead s (e.banks.map (fun q => (q.2, p.reads e.vl)))
      if e.vl = 0 ∨ S.val = 0 ∨ (0 < e.vstart ∧ e.live ≤ e.vstart) then vdone e (s.setFront { s.front with sprog := SProg.reset })
      else
        let v0 := if sp.active then sp.weight.toNat else p.top
        let n0 := if sp.active then sp.pair.toNat else 0
        let k0 := if sp.active then sp.kstep.toNat else 0
        match (if v0 = p.top ∧ n0 = 0 ∧ k0 = 0 then p.foldPoison e s else none) with
        | some h => p.stop e h v0 n0 k0 s
        | none => p.run e k0 s.stopAfter (p.order v0 n0) s

end Sys2Proof.Machine
end

