-- ==== Sys2Proof/Machine/ScalarInt.lean ====
section
/-!
DEFINITION. Scalar integer instructions, literals, multiplication and division (15:R328-R333, R353, R354).
-/

namespace Sys2Proof.Machine

/-- The residue that ADD predicts for a + b (15:R354). -/
def addRes (a b : SReg) : BitVec 4 :=
  let c := if a.val.toNat + b.val.toNat < 2 ^ 64 then 0 else 1
  BitVec.ofNat 4 ((a.res.toNat + b.res.toNat + 15 - c) % 15)

/-- The residue that SUB predicts for a - b (15:R354). -/
def subRes (a b : SReg) : BitVec 4 :=
  let bw := if b.val.toNat ≤ a.val.toNat then 0 else 1
  BitVec.ofNat 4 ((a.res.toNat + 15 - b.res.toNat + bw) % 15)

/-- The residue that MUL predicts for a × b, from the high half of the unsigned product (15:R354). -/
def mulRes (a b : SReg) : BitVec 4 :=
  let h := a.val.toNat * b.val.toNat / 2 ^ 64
  BitVec.ofNat 4 ((a.res.toNat * b.res.toNat + 15 - h % 15) % 15)

/-- a + b with the predicted residue. -/
def addS (a b : SReg) : SReg := ⟨a.val + b.val, addRes a b⟩

/-- Writes a scalar register and completes an instruction of `n` bytes. -/
def writeS (n : Nat) (d : Fin 64) (v : SReg) (s : State) : Out := done n (s.setS d v)

/-- Writes a value with its own residue and completes (15:R354, last row). -/
def writeV (n : Nat) (d : Fin 64) (v : Word) (s : State) : Out := writeS n d (mkS v) s

/-- The truth value 1 or 0. -/
def boolWord (b : Bool) : Word := if b then 1 else 0

/-- The number of leading zero bits (15:R333). -/
def clz64 (v : Word) : Word := if v = 0 then 64 else BitVec.ofNat 64 (63 - Nat.log2 v.toNat)

/-- The number of trailing zero bits (15:R333). -/
def ctz64 (v : Word) : Word := clz64 (v &&& (-v)) |> fun z => if v = 0 then 64 else 63 - z

/-- The number of 1 bits (15:R333). -/
def popc64 (v : Word) : Word := BitVec.ofNat 64 ((List.range 64).filter (fun i => v.getLsbD i)).length

/-- DIV (15:R333). -/
def divS (a b : Word) : Word := if b = 0 then BitVec.allOnes 64 else BitVec.ofInt 64 (Int.tdiv a.toInt b.toInt)

/-- REM (15:R333). -/
def remS (a b : Word) : Word := if b = 0 then a else BitVec.ofInt 64 (Int.tmod a.toInt b.toInt)

/-- ADD (15:R330): a + b; the residue is predicted. -/
def execAdd (d a b : Fin 64) (s : State) : Out := writeS 4 d (addS (s.getS a) (s.getS b)) s

/-- SUB (15:R330): a - b; the residue is predicted. -/
def execSub (d a b : Fin 64) (s : State) : Out := writeS 4 d (⟨s.sval a - s.sval b, subRes (s.getS a) (s.getS b)⟩) s

/-- AND (15:R330): a AND b. -/
def execAnd (d a b : Fin 64) (s : State) : Out := writeV 4 d (s.sval a &&& s.sval b) s

/-- OR (15:R330): a OR b. -/
def execOr (d a b : Fin 64) (s : State) : Out := writeV 4 d (s.sval a ||| s.sval b) s

/-- XOR (15:R330): a XOR b. -/
def execXor (d a b : Fin 64) (s : State) : Out := writeV 4 d (s.sval a ^^^ s.sval b) s

/-- ANDN (15:R330): a AND NOT b. -/
def execAndn (d a b : Fin 64) (s : State) : Out := writeV 4 d (s.sval a &&& ~~~ (s.sval b)) s

/-- SLL (15:R330): a shifted left by b[5:0]. -/
def execSll (d a b : Fin 64) (s : State) : Out := writeV 4 d (s.sval a <<< ((s.sval b).toNat % 64)) s

/-- SRL (15:R330): a shifted right by b[5:0], zero-filled. -/
def execSrl (d a b : Fin 64) (s : State) : Out := writeV 4 d (s.sval a >>> ((s.sval b).toNat % 64)) s

/-- SRA (15:R330): a shifted right by b[5:0], sign-filled. -/
def execSra (d a b : Fin 64) (s : State) : Out := writeV 4 d ((s.sval a).sshiftRight ((s.sval b).toNat % 64)) s

/-- ROR (15:R330): a rotated right by b[5:0]. -/
def execRor (d a b : Fin 64) (s : State) : Out := writeV 4 d ((s.sval a).rotateRight ((s.sval b).toNat % 64)) s

/-- MIN (15:R330): the lesser, signed; the residue of the selected operand. -/
def execMin (d a b : Fin 64) (s : State) : Out := writeS 4 d (if (s.sval a).toInt ≤ (s.sval b).toInt then s.getS a else s.getS b) s

/-- MAX (15:R330): the greater, signed. -/
def execMax (d a b : Fin 64) (s : State) : Out := writeS 4 d (if (s.sval a).toInt ≤ (s.sval b).toInt then s.getS b else s.getS a) s

/-- MINU (15:R330): the lesser, unsigned. -/
def execMinu (d a b : Fin 64) (s : State) : Out := writeS 4 d (if (s.sval a).toNat ≤ (s.sval b).toNat then s.getS a else s.getS b) s

/-- MAXU (15:R330): the greater, unsigned. -/
def execMaxu (d a b : Fin 64) (s : State) : Out := writeS 4 d (if (s.sval a).toNat ≤ (s.sval b).toNat then s.getS b else s.getS a) s

/-- SEQ (15:R330): 1 if a = b. -/
def execSeq (d a b : Fin 64) (s : State) : Out := writeV 4 d (boolWord (decide (s.sval a = s.sval b))) s

/-- SNE (15:R330): 1 if a ≠ b. -/
def execSne (d a b : Fin 64) (s : State) : Out := writeV 4 d (boolWord (decide (s.sval a ≠ s.sval b))) s

/-- SLT (15:R330): 1 if a < b signed. -/
def execSlt (d a b : Fin 64) (s : State) : Out := writeV 4 d (boolWord (decide ((s.sval a).toInt < (s.sval b).toInt))) s

/-- SLTU (15:R330): 1 if a < b unsigned. -/
def execSltu (d a b : Fin 64) (s : State) : Out := writeV 4 d (boolWord (decide ((s.sval a).toNat < (s.sval b).toNat))) s

/-- SGE (15:R330): 1 if a ≥ b signed. -/
def execSge (d a b : Fin 64) (s : State) : Out := writeV 4 d (boolWord (decide ((s.sval b).toInt ≤ (s.sval a).toInt))) s

/-- SGEU (15:R330): 1 if a ≥ b unsigned. -/
def execSgeu (d a b : Fin 64) (s : State) : Out := writeV 4 d (boolWord (decide ((s.sval b).toNat ≤ (s.sval a).toNat))) s

/-- MUL (15:R333): (a × b) mod 2^64; the residue is predicted. -/
def execMul (d a b : Fin 64) (s : State) : Out := writeS 4 d (⟨s.sval a * s.sval b, mulRes (s.getS a) (s.getS b)⟩) s

/-- MULH (15:R333): bits [127:64] of a × b, both signed. -/
def execMulh (d a b : Fin 64) (s : State) : Out := writeV 4 d (BitVec.ofInt 64 ((s.sval a).toInt * (s.sval b).toInt / 2 ^ 64)) s

/-- MULHU (15:R333): bits [127:64] of a × b, both unsigned. -/
def execMulhu (d a b : Fin 64) (s : State) : Out := writeV 4 d (BitVec.ofNat 64 ((s.sval a).toNat * (s.sval b).toNat / 2 ^ 64)) s

/-- DIV (15:R333): a ÷ b signed, truncated; b = 0 gives all ones. -/
def execDiv (d a b : Fin 64) (s : State) : Out := writeV 4 d (divS (s.sval a) (s.sval b)) s

/-- DIVU (15:R333): a ÷ b unsigned; b = 0 gives all ones. -/
def execDivu (d a b : Fin 64) (s : State) : Out := writeV 4 d (if s.sval b = 0 then BitVec.allOnes 64 else BitVec.ofNat 64 ((s.sval a).toNat / (s.sval b).toNat)) s

/-- REM (15:R333): a - b × DIV(a, b); b = 0 gives a. -/
def execRem (d a b : Fin 64) (s : State) : Out := writeV 4 d (remS (s.sval a) (s.sval b)) s

/-- REMU (15:R333): a mod b unsigned; b = 0 gives a. -/
def execRemu (d a b : Fin 64) (s : State) : Out := writeV 4 d (if s.sval b = 0 then s.sval a else BitVec.ofNat 64 ((s.sval a).toNat % (s.sval b).toNat)) s

/-- CLZ (15:R333): the number of leading zero bits. -/
def execClz (d a : Fin 64) (s : State) : Out := writeV 4 d (clz64 (s.sval a)) s

/-- CTZ (15:R333): the number of trailing zero bits. -/
def execCtz (d a : Fin 64) (s : State) : Out := writeV 4 d (ctz64 (s.sval a)) s

/-- POPC (15:R333): the number of 1 bits. -/
def execPopc (d a : Fin 64) (s : State) : Out := writeV 4 d (popc64 (s.sval a)) s

/-- ADDI (15:R330): a + imm10 sign-extended. -/
def execAddi (d a : Fin 64) (i : BitVec 10) (s : State) : Out := writeS 4 d (addS (s.getS a) (mkS (i.signExtend 64))) s

/-- ANDI (15:R330): a AND imm10 sign-extended. -/
def execAndi (d a : Fin 64) (i : BitVec 10) (s : State) : Out := writeV 4 d (s.sval a &&& i.signExtend 64) s

/-- ORI (15:R330): a OR imm10 sign-extended. -/
def execOri (d a : Fin 64) (i : BitVec 10) (s : State) : Out := writeV 4 d (s.sval a ||| i.signExtend 64) s

/-- XORI (15:R330): a XOR imm10 sign-extended. -/
def execXori (d a : Fin 64) (i : BitVec 10) (s : State) : Out := writeV 4 d (s.sval a ^^^ i.signExtend 64) s

/-- SLTI (15:R330): 1 if a < imm10 signed. -/
def execSlti (d a : Fin 64) (i : BitVec 10) (s : State) : Out := writeV 4 d (boolWord (decide ((s.sval a).toInt < i.toInt))) s

/-- SLLI (15:R330): a shifted left by imm10[5:0]. -/
def execSlli (d a : Fin 64) (i : BitVec 6) (s : State) : Out := writeV 4 d (s.sval a <<< i.toNat) s

/-- SRLI (15:R330): a shifted right, zero-filled. -/
def execSrli (d a : Fin 64) (i : BitVec 6) (s : State) : Out := writeV 4 d (s.sval a >>> i.toNat) s

/-- SRAI (15:R330): a shifted right, sign-filled. -/
def execSrai (d a : Fin 64) (i : BitVec 6) (s : State) : Out := writeV 4 d ((s.sval a).sshiftRight i.toNat) s

/-- LI (15:R331): imm32 sign-extended. -/
def execLi (d : Fin 64) (imm : BitVec 32) (s : State) : Out := writeV 8 d (imm.signExtend 64) s

/-- LIU (15:R331): imm32 zero-extended. -/
def execLiu (d : Fin 64) (imm : BitVec 32) (s : State) : Out := writeV 8 d (imm.zeroExtend 64) s

/-- LIH (15:R331): (rd AND 0xFFFF_FFFF) OR (imm32 × 2^32). -/
def execLih (d : Fin 64) (imm : BitVec 32) (s : State) : Out := writeV 8 d ((s.sval d &&& 0xFFFFFFFF) ||| (imm.zeroExtend 64 <<< 32)) s

/-- ADDIL (15:R331): rd + imm32 sign-extended; the residue is predicted. -/
def execAddil (d : Fin 64) (imm : BitVec 32) (s : State) : Out := writeS 8 d (addS (s.getS d) (mkS (imm.signExtend 64))) s

/-- LEA (15:R332): pc + 4 × imm19 sign-extended, from the LEA's own address. -/
def execLea (d : Fin 64) (i : BitVec 19) (s : State) : Out := writeV 4 d (s.front.pc + (i.signExtend 64 <<< 2)) s

end Sys2Proof.Machine
end

