-- ==== Sys2Proof/Machine/Creg.lean ====
section
/-!
DEFINITION. Control registers: what each reads as, which fields a write changes, levels and drains (15:R349-R352 and the rules that lay each
register out), and CRR and CRW.
-/

namespace Sys2Proof.Machine

/-! ### Layouts -/

/-- BINDSTAT (01:R28). -/
def bindstat (k : Stack) (st fe : Nat) : Word :=
  match k.frond fe with
  | none => joinWord [(fe, 53), (st, 48), (0xFFFF, 32)]
  | some f =>
    let n := f.halfList.length
    let hop (j : Nat) : Nat := if 2 * j < n then 4 * j else 0xF
    joinWord [(1, 0), (b2n f.spareBk, 1), (b2n f.spareFe, 2), (b2n f.splitC, 3), (f.degr, 8), (f.nbanks, 16), (f.pairs, 24), (n, 28),
      (hop 0, 32), (hop 1, 36), (hop 2, 40), (hop 3, 44), (st, 48), (fe, 53)]

/-- RDEBT (04:R99): per group the largest debt over the banks owned under BMASK and BPART. -/
def rdebt (s : State) : Word :=
  let banks := ctxBanks s (captureCtx s 0 0)
  joinWord ((List.range 16).map (fun k => (banks.foldl (fun m p => max m ((s.bank p.2).debt[idx16 k]).toNat) 0, 4 * k)))

/-- A counter of elapsed time: it has grown by a free amount since its last access (15:R352, 16:R373). -/
def growCounter (s : State) (old : Word) : State × Word := (s.draw.2, old + Config.elapsed s.draw.1)

/-- A number as a stall counter. -/
def idx64 (n : Nat) : Fin 64 := ⟨n % 64, Nat.mod_lt _ (by decide)⟩

/-! ### Reads -/

/-- What control register `n` reads as (15:R350). -/
def cregRead (n : Nat) (s : State) : State × Word :=
  let t := s.thr
  let f := s.front
  if 0x100 ≤ n ∧ n < 0x120 then
    let i := idx64 (n - 0x100)
    let g := growCounter s f.stalls[i]
    (g.1.setFront { f with stalls := f.stalls.set i g.2 }, g.2)
  else if 0x10 ≤ n ∧ n ≤ 0x13 then (s, f.loops[lvl4 (n - 0x10)].word)
  else if 0x14 ≤ n ∧ n ≤ 0x17 then (s, f.loops[lvl4 (n - 0x14)].baseWord)
  else if n = 0x40 then
    let g := growCounter s t.cycle
    ({ g.1 with thr := { g.1.thr with cycle := g.2 } }, g.2)
  else
    (s, match n with
      | 0x000 => f.vlcfg.word
      | 0x001 => f.vstart.zeroExtend 64
      | 0x002 => f.vpoison.word
      | 0x003 => (flagsValue s).zeroExtend 64
      | 0x004 => f.rmode.word
      | 0x005 => t.srseed.zeroExtend 64
      | 0x006 => f.pcfg.word
      | 0x007 => f.sprog.word
      | 0x008 => t.bmask
      | 0x009 => t.bpart.word
      | 0x00A => boolWord f.verify
      | 0x020 => t.ui.vecWord
      | 0x021 => t.ui.statWord
      | 0x030 => bindstat (s.stack s.cur.st) s.cur.st (feOf s.cur.th)
      | 0x031 => Config.timing
      | 0x032 => rdebt s
      | 0x033 => joinWord [(t.bankva.toNat, 27)]
      | 0x034 => joinWord [(t.scrbase.toNat, 22)]
      | 0x035 => match (s.stack s.cur.st).frond (feOf s.cur.th) with | some x => x.waypart | none => 0
      | 0x041 => f.instret
      | 0x080 => t.tr.cause.zeroExtend 64
      | 0x081 => joinWord [(t.tr.pc.toNat, 2)]
      | 0x082 => t.tr.val
      | 0x083 => trapstat t
      | 0x084 => joinWord [(t.tr.handler.toNat, 2)]
      | 0x085 => t.tr.sscratch
      | _ => 0)

/-! ### Writes of single registers -/

/-- A write of VLCFG (07:R149): ignored as a whole when its fields break the rule. -/
def setVlcfg (s : State) (v : Word) : State :=
  if (VlCfg.ofWord v).ok then s.setFront { s.front with vlcfg := VlCfg.ofWord v } else s

/-- A write of RMODE (07:R155). -/
def setRmode (s : State) (v : Word) : State := s.setFront { s.front with rmode := s.front.rmode.put v }

/-- A write of SRSEED (07:R158): the LFSRs of the banks owned under BMASK and BPART are seeded. -/
def setSrseed (s : State) (v : Word) : State :=
  let seed := BitVec.ofNat 32 (fieldOf v 31 0)
  let banks := ctxBanks s (captureCtx s 0 0)
  banks.foldl (fun acc p => acc.setBank p.2 { acc.bank p.2 with lfsr := seedLfsr seed p.1 }) { s with thr := { s.thr with srseed := seed } }

/-- A write of BPART (16:R361): only REQ, and only to a value from MIN to NBANKS. -/
def setBpart (s : State) (v : Word) : State :=
  let p := s.thr.bpart
  let req := fieldOf v 55 48
  let nb := match (s.stack s.cur.st).frond (feOf s.cur.th) with | some f => f.nbanks | none => 0
  if p.min.toNat ≤ req ∧ req ≤ nb then { s with thr := { s.thr with bpart := { p with req := BitVec.ofNat 8 req } } } else s

/-- A write of TRAPSTAT (20:R433): BUSY and PPL; BUSY stays 1 while the resume list holds entries. -/
def setTrapstat (s : State) (v : Word) : State :=
  let t := s.thr
  let busy := bitOf v 63 || (t.tr.busy && !t.resume.isEmpty)
  { s with thr := { t with tr := { t.tr with busy := busy, ppl := if bitOf v 62 then .supervisor else .user } } }

/-- A write of TRAPPC (20:R436): a held resume list and scalar pc are discarded. -/
def setTrappc (s : State) (v : Word) : State :=
  let t := s.thr
  { s with thr := { t with tr := { t.tr with pc := BitVec.ofNat 50 (fieldOf v 51 2) }, resume := [],
                           heldPc := if t.resume.isEmpty then t.heldPc else 0 } }

/-- A write of UISTAT (12:R283): PEND bits clear where the written bit is 1. -/
def setUistat (s : State) (v : Word) : State :=
  let u := s.thr.ui
  { s with thr := { s.thr with ui := { u with pend1 := u.pend1 && !bitOf v 62, pend0 := u.pend0 && !bitOf v 61 } } }

/-- A write of VSTART (20:R434). -/
def setVstartReg (s : State) (v : Word) : State := s.setFront { s.front with vstart := BitVec.ofNat 15 (fieldOf v 14 0) }

/-- A write of VMODE (21:R455). -/
def setVmode (s : State) (v : Word) : State := s.setFront { s.front with verify := bitOf v 0 }

/-- Sets a loop level of the running hart. -/
def setLoop (s : State) (i : Fin 4) (g : LoopLevel → LoopLevel) : State :=
  let f := s.front
  s.setFront { f with loops := f.loops.set i (g f.loops[i]) }

/-- The effect of a permitted write of control register `n` (15:R349). -/
def cregWrite (n : Nat) (v : Word) (s : State) : State :=
  let t := s.thr
  let f := s.front
  if 0x100 ≤ n ∧ n < 0x120 then s.setFront { f with stalls := f.stalls.set (idx64 (n - 0x100)) v }
  else if 0x10 ≤ n ∧ n ≤ 0x13 then
    setLoop s (lvl4 (n - 0x10)) (fun l => l.put v)
  else if 0x14 ≤ n ∧ n ≤ 0x17 then setLoop s (lvl4 (n - 0x14)) (fun l => l.putBase v)
  else
    match n with
    | 0x000 => setVlcfg s v
    | 0x001 => setVstartReg s v
    | 0x002 => s.setFront { f with vpoison := VPoison.ofWord v }
    | 0x003 => setFlags s (BitVec.ofNat 5 (fieldOf v 4 0))
    | 0x004 => setRmode s v
    | 0x005 => setSrseed s v
    | 0x006 => s.setFront { f with pcfg := PCfg.ofWord v }
    | 0x007 => s.setFront { f with sprog := SProg.ofWord v }
    | 0x008 => { s with thr := { t with bmask := v } }
    | 0x009 => setBpart s v
    | 0x00A => setVmode s v
    | 0x020 => { s with thr := { t with ui := { t.ui with handler := BitVec.ofNat 50 (fieldOf v 51 2), en := bitOf v 0 } } }
    | 0x021 => setUistat s v
    | 0x033 => { s with thr := { t with bankva := BitVec.ofNat 25 (fieldOf v 51 27) } }
    | 0x034 => { s with thr := { t with scrbase := BitVec.ofNat 30 (fieldOf v 51 22) } }
    | 0x040 => { s with thr := { t with cycle := v } }
    | 0x041 => s.setFront { f with instret := v }
    | 0x080 => { s with thr := { t with tr := { t.tr with cause := BitVec.ofNat 8 (fieldOf v 7 0) } } }
    | 0x081 => setTrappc s v
    | 0x082 => { s with thr := { t with tr := { t.tr with val := v } } }
    | 0x083 => setTrapstat s v
    | 0x084 => { s with thr := { t with tr := { t.tr with handler := BitVec.ofNat 50 (fieldOf v 51 2) } } }
    | 0x085 => { s with thr := { t with tr := { t.tr with sscratch := v } } }
    | _ => s

/-! ### CRR and CRW -/

/-- Supervisor registers: any user access traps (15:R350). -/
def cregPriv (n : Nat) : Bool := decide (0x080 ≤ n ∧ n ≤ 0x085)

/-- Registers whose user write traps (15:R350). -/
def cregWriteTraps (n : Nat) : Bool :=
  cregPriv n || decide (n ≤ 2 ∨ n = 0x00A ∨ n = 0x033 ∨ n = 0x034 ∨ n = 0x040 ∨ n = 0x041 ∨ (0x100 ≤ n ∧ n ≤ 0x13F))

/-- Reads that drain (15:R350). -/
def cregDrainsRead (n : Nat) : Bool := decide (1 ≤ n ∧ n ≤ 3 ∨ n = 7 ∨ (0x100 ≤ n ∧ n ≤ 0x13F))

/-- Writes that drain (15:R350). -/
def cregDrainsWrite (n : Nat) : Bool := decide (1 ≤ n ∧ n ≤ 8 ∨ n = 0x00A)

/-- CRR (15:R349): rd takes the register. -/
def execCrr (d : Fin 64) (r : BitVec 12) (s : State) : Out :=
  let n := r.toNat
  if s.level = .user && cregPriv n then privViolation (.crr d r) s
  else if cregDrainsRead n && s.mustDrain then drainWait s
  else
    let v := cregRead n s
    writeV 4 d v.2 v.1

/-- CRW (15:R349): rd takes the old value and the register the writable fields of ra, as one access. -/
def execCrw (d a : Fin 64) (r : BitVec 12) (s : State) : Out :=
  let n := r.toNat
  let x := s.getS a
  if s.level = .user && cregWriteTraps n then privViolation (.crw d a r) s
  else if !dataResOk x then trapResidue a rkReg s
  else if (cregDrainsRead n || cregDrainsWrite n) && s.mustDrain then drainWait s
  else
    let v := cregRead n s
    writeV 4 d v.2 (cregWrite n x.val v.1)

/-! ### The steps that write or read one register -/

/-- REGISTER_WRITE (15:R349, 18:R397): the effect of a write of a control register of the running thread, or of a control-window register, alone. -/
def execRegisterWrite (win : Bool) (addr : Nat) (v : Word) (s : State) : Out :=
  .next (if win then ctrlWrite s (2 ^ 41 + addr % 2 ^ 30) v else cregWrite addr v s)

/-- FLAGS_READ (07:R160): after the vector side, rd takes the flags. -/
def execFlagsRead (d : Fin 64) (s : State) : Out :=
  if s.mustDrain then drainWait s else .next (s.setV d ((flagsValue s).zeroExtend 64))

/-- FLAGS_WRITE (07:R160). -/
def execFlagsWrite (v : Word) (s : State) : Out :=
  if s.mustDrain then drainWait s else .next (setFlags s (BitVec.ofNat 5 (fieldOf v 4 0)))

/-- SRSEED_WRITE (07:R158). -/
def execSrseedWrite (v : Word) (s : State) : Out := .next (setSrseed s v)

/-- RMODE_WRITE (07:R155). -/
def execRmodeWrite (v : Word) (s : State) : Out := .next (setRmode s v)

/-- VLCFG_WRITE (07:R149). -/
def execVlcfgWrite (v : Word) (s : State) : Out := .next (setVlcfg s v)

/-- BPART_WRITE (16:R361). -/
def execBpartWrite (v : Word) (s : State) : Out := .next (setBpart s v)

/-- VSTART_WRITE (20:R434). -/
def execVstartWrite (v : Word) (s : State) : Out := .next (setVstartReg s v)

/-- VMODE_WRITE (21:R455). -/
def execVmodeWrite (v : Word) (s : State) : Out := .next (setVmode s v)

/-- TRAPSTAT_WRITE (20:R433). -/
def execTrapstatWrite (v : Word) (s : State) : Out := .next (setTrapstat s v)

/-- TRAPPC_WRITE (20:R436). -/
def execTrappcWrite (v : Word) (s : State) : Out := .next (setTrappc s v)

/-- UISTAT_WRITE (12:R283). -/
def execUistatWrite (v : Word) (s : State) : Out := .next (setUistat s v)

end Sys2Proof.Machine
end

