-- ==== Sys2Proof/Machine/Fetch.lean ====
section
/-!
DEFINITION. Fetching an instruction: code pages of the task's address space, hashed pages, the bank instruction buffers, complement pairs, and
the checks of 02:R35 that come before an instruction's own (02:R41-R47, 16:R368, 22:R475, R476).
-/

namespace Sys2Proof.Machine

/-- What the fetch of one word gives. -/
inductive Word32 where
  | ok (w : Nat)
  | fault               -- the instruction-fetch fault
  | broken              -- a hashed page does not match: the launch ends (22:R476)
  deriving DecidableEq, Repr

/-- The task's address-space root. -/
def Thread.root (t : Thread) : Word := match t.task with | some i => i.root | none => 0

/-- The hash a code page of an address space must have (22:R475). -/
def pageHash (s : State) (root : Word) (page : Nat) : Option (BitVec 256) :=
  s.kernels.findSome? (fun k => if k.root = root then mapGet k.hashes page else none)

/-- Reads `n` 8-byte words from a physical address: bytes, and whether one was poisoned. -/
def readWords (s : State) (pa : Nat) : Nat → State × List Byte × Bool
  | 0 => (s, [], false)
  | n + 1 =>
    let r := physRead s pa 8 false
    let z := readWords r.1 (pa + 8) n
    (z.1, natToBytes 8 r.2.1 ++ z.2.1, r.2.2 || z.2.2)

/-- Marks the fetch translation of a page verified (22:R476). -/
def markHashed (s : State) (root : Word) (page base : Nat) : State :=
  let c := s.fetchAsker.cache
  { s with xlat := s.xlat.map (fun x => if x.cache = c ∧ x.root = root ∧ x.page = page ∧ x.base = base then { x with hashed := true } else x) }

/-- A virtual address as an instruction fetch translates it: translation, X, U, window (19:R419); a bank-private page is reached by no fetch
(R420). -/
def codePage (s : State) (root : Word) (lvl : Level) (va : Nat) : State × Option Xlat :=
  if va / 2 ^ 52 ≠ 0 then (s, none)
  else
    let t := translate s s.fetchAsker root va
    match t.2 with
    | .fault _ => (t.1, none)
    | .found x =>
      let bad := x.bit 9 || !x.bit 4 || (decide (lvl = .user) && !x.bit 5) || decide (windowOf (x.pa va) = .control) || !populatedN t.1 (x.pa va) 4
      (t.1, if bad then none else some x)

/-- The physical address of a code word, after the hash of a hashed page at its first use (22:R476). `broken` where the hash fails. -/
def codeAddr (s : State) (root : Word) (lvl : Level) (va : Nat) : State × Except Word32 Nat :=
  match codePage s root lvl va with
  | (s, none) => (s, .error .fault)
  | (s, some x) =>
    match pageHash s root (va / 2 ^ 16) with
    | none => (s, .ok (x.pa va))
    | some h =>
      if x.hashed then (s, .ok (x.pa va))
      else
        let r := readWords s x.base 8192
        if r.2.2 || decide (Config.sha256 r.2.1 ≠ h) then (r.1, .error .broken)
        else (markHashed r.1 root (va / 2 ^ 16) x.base, .ok (x.pa va))

/-- The window of a bank instruction buffer: half-slab and control thread (16:R368). -/
def bibKey (bank c : Nat) : Nat := 2 * (bank % 256 / 8) + c

/-- A word of a buffer window is read (21:R446). -/
def eccBib (s : State) (b key word : Nat) : State :=
  let st := b / 256
  let z := eccTake s (fun p => decide (p = .bib st key word)) unitBib b 0
  let k := z.1.stack st
  match z.2, mapGet k.bib key with
  | _ :: _, some w => z.1.setStack st { k with bib := mapSet k.bib key { w with poison := setInsert w.poison word } }
  | _, _ => z.1

/-- Reads one 32-bit word of code at a pc: a virtual address on a control thread, an offset of the buffer window in a bank thread. Of a word
written while the task runs it gives the new value, where the rule allows the old one as well (02:R36; DESIGN CHOICE, log 105). -/
def fetchWord32 (s : State) (pc : Nat) : State × Word32 :=
  match s.cur.bank with
  | some j =>
    let key := bibKey (s.ownBank j) (s.cur.th % 2)
    let s := eccBib s (s.ownBank j) key (pc / 32)
    match mapGet (s.stack s.cur.st).bib key with
    | some w =>
      if pc < 0x2000 ∧ w.valid.getLsbD (pc / 64) ∧ !w.poison.contains (pc / 32) then (s, .ok (memReadN w.bytes pc 4)) else (s, .fault)
    | none => (s, .fault)
  | none =>
    match codeAddr s s.thr.root s.level pc with
    | (s, .error e) => (s, e)
    | (s, .ok pa) =>
      let r := physRead s pa 4 false
      (r.1, if r.2.2 then .fault else .ok r.2.1)

/-- What a fetch gives: a legal instruction; an illegal word with its bits; a fetch fault at an address; a broken code page. -/
inductive Fetched where
  | ok (i : Instr)
  | illegal (bits : Word)
  | fault (va : Word)
  | broken
  deriving DecidableEq, Repr

/-- Fetches the 4 or 8 bytes of one instruction: its bits (02:R33). -/
def fetchBits (s : State) (pc : Nat) : State × Except Fetched Nat :=
  match fetchWord32 s pc with
  | (s, .fault) => (s, .error (.fault (BitVec.ofNat 64 pc)))
  | (s, .broken) => (s, .error .broken)
  | (s, .ok w0) =>
    if w0 % 4 = 3 then
      match fetchWord32 s ((pc + 4) % 2 ^ 64) with
      | (s, .fault) => (s, .error (.fault (BitVec.ofNat 64 (pc + 4))))
      | (s, .broken) => (s, .error .broken)
      | (s, .ok w1) => (s, .ok (w0 + w1 * 2 ^ 32))
    else (s, .ok w0)

/-- Majors that a bank thread may execute (02:R46); TASK only for JOIN and VFETCH (02:R47). -/
def bankMajor (w : Nat) : Bool :=
  let m := w % 128
  if m = 0x15 then decide (w / 2 ^ 25 % 128 = 2 ∨ w / 2 ^ 25 % 128 = 3)
  else !([0x11, 0x12, 0x16, 0x18, 0x36, 0x50, 0x51] : List Nat).contains m

/-- Bit 5 of every six-bit register field is zero (02:R37). -/
def bankFields (w : Nat) : Bool :=
  let m := w % 128
  let z (n : Nat) : Bool := decide (w / 2 ^ n % 2 = 0)
  if ([0x01, 0x04, 0x05, 0x0A, 0x14, 0x15] : List Nat).contains m then z 12 && z 18 && z 24
  else if ([0x02, 0x08, 0x09, 0x0C, 0x0E] : List Nat).contains m then z 12 && z 18
  else if ([0x03, 0x06, 0x0D, 0x10] : List Nat).contains m then z 12
  else true

/-- BARB and JOIN run only in a bank thread (17:R374). -/
def bankOnly (w : Nat) : Bool := decide (w = 0x20000014 ∨ w = 0x04000015)

/-- Checks 1 and 2 of 02:R35 on the instruction at the pc, forming a complement pair where 02:R41 does. An instruction with cp set that is
itself illegal is reported before its partner is fetched, and a pair whose partner's own word is illegal reports the first (DESIGN CHOICE,
log 106). -/
noncomputable def fetchInstr (s : State) : State × Fetched :=
  let pc := s.front.pc.toNat
  match fetchBits s pc with
  | (s, .error e) => (s, e)
  | (s, .ok w) =>
    let bits := BitVec.ofNat 64 w
    match decodeBits w with
    | .error _ => (s, .illegal bits)
    | .ok i =>
      if (match s.cur.bank with | some _ => !(bankMajor w && bankFields w) | none => bankOnly w) then (s, .illegal bits)
      else
        match i.cpFields with
        | some (true, _) =>
          match fetchBits s ((pc + i.len) % 2 ^ 64) with
          | (s, .error e) => (s, e)
          | (s, .ok v) =>
            match decodeBits v with
            | .error _ => (s, .illegal bits)
            | .ok j => if pairOk i j then (s, .ok (.complementPair i j)) else (s, .illegal bits)
        | _ => (s, .ok i)

end Sys2Proof.Machine
end

