-- ==== Sys2Proof/Machine/ScalarMem.lean ====
section
/-!
DEFINITION. Scalar loads, stores, synchronisation accesses and atomics (15:R337-R341).
-/

namespace Sys2Proof.Machine

/-- The address of a scalar access that has passed its residue check: bits [63:52], alignment to `n`, translation, permissions, windows for `bytes`
bytes (15:R338 steps 2-5). -/
def scalarSpan (s : State) (va n bytes : Nat) (need : Need) : State × Except (BitVec 8) (Xlat × Nat) :=
  if va / 2 ^ 52 ≠ 0 then (s, .error cPage)
  else if va % n ≠ 0 then (s, .error cAlign)
  else dataAddr s s.asker s.thr.root s.level va bytes need (decide (s.level = .supervisor)) true

/-- The address of a scalar access of `n` bytes. -/
def scalarAddr (s : State) (va n : Nat) (need : Need) : State × Except (BitVec 8) (Xlat × Nat) := scalarSpan s va n n need

/-- What comes before a scalar access to a physical address: the write buffer serves its stack (14:R310, R315), and a bank thread's own far stores
to the word take effect (14:R310). -/
def scalarReady (s : State) (pa : Nat) : State :=
  let s := landWord s s.cur.st pa
  if s.cur.bank.isSome && decide (windowOf pa = .dram) then ownFirst s (pa / 2 ^ 27) (fun p => p / 8 == pa / 8) else s

/-- The bank whose memory a physical address of the DRAM or scratch window names. -/
def bankOfPa (pa : Nat) : Nat := if windowOf pa = .scratch then scratchBank pa else pa / 2 ^ 27

/-- A load of `n` bytes from ra + imm: `fin` completes it with the bytes read (15:R337-R339). A poisoned word traps (21:R450), unless VPOISON
says that the load has been resumed: then rd takes the bits (21:R452, R453; a load's only element is 0: DEDUCED, log 45). -/
def loadAt (a : Fin 64) (imm : Word) (n : Nat) (fin : Nat → State → Out) (s : State) : Out :=
  let r := s.getS a
  if !addrResOk r imm then trapResidue a rkAddr s
  else
    let va := r.val + imm
    match scalarAddr s va.toNat n ⟨true, false, false⟩ with
    | (s, .error c) => trap c va s
    | (s, .ok (x, pa)) =>
      let v := anyRead (scalarReady s pa) pa n x.cacheable
      let vp := v.1.front.vpoison
      if !v.2.2 then fin v.2.1 v.1
      else if vp.v && decide (vp.elem = 0) then fin v.2.1 (clearPoisonV (logUnmarked v.1 (bankOfPa pa)) (fun _ => true))
      else trap cPoison va v.1

/-- A load into rd, sign-extended from its width. -/
def loadSigned (d a : Fin 64) (i : BitVec 10) (n : Nat) (s : State) : Out :=
  loadAt a (i.signExtend 64) n (fun v s => writeV 4 d (BitVec.ofInt 64 (toSigned (8 * n) v)) s) s

/-- A load into rd, zero-extended. -/
def loadZero (d a : Fin 64) (i : BitVec 10) (n : Nat) (s : State) : Out :=
  loadAt a (i.signExtend 64) n (fun v s => writeV 4 d (BitVec.ofNat 64 v) s) s

/-- Puts a store into effect, or delays a plain one of a control thread where that is what happens next (14:R314-R316). -/
def putStore (plain : Bool) (x : Xlat) (pa n v : Nat) (s : State) : State :=
  let s := scalarReady s pa
  if plain && s.delay && s.cur.bank.isNone && decide (windowOf pa ≠ .control) then
    { s with delay := false, stores := s.stores ++ [⟨s.tid, pa, n, v, x.cacheable, x.mark pa⟩] }
  else anyWrite s x pa n v x.cacheable

/-- A store of the low `n` bytes of `r` to ra + imm (15:R337-R339). -/
def storeAt (plain : Bool) (r a : Fin 64) (imm : Word) (n : Nat) (s : State) : Out :=
  let b := s.getS a
  let v := s.getS r
  if !addrResOk b imm then trapResidue a rkAddr s
  else if !dataResOk v then trapResidue r rkData s
  else
    let va := b.val + imm
    match scalarAddr s va.toNat n ⟨false, true, false⟩ with
    | (s, .error c) => trap c va s
    | (s, .ok (x, pa)) => done 4 (putStore plain x pa n (v.val.toNat % 2 ^ (8 * n)) s)

/-! ### Synchronisation accesses and atomics -/

/-- What a release waits for on a control thread (14:R316, R321): the vector side, the thread's stores to be visible, and the acknowledgements of
posted far elements; in a bank thread its own. -/
def released (k : State → Out) (s : State) : Out :=
  if s.mustDrain then drainWait s
  else
    match s.cur.bank with
    | none => k (flushPosted (landAll s s.tid) s.tid)
    | some j => k (flushBank s s.tid (s.ownBank j))

/-- An atomic on the word at ra (15:R341): rd takes the old value. `op` is numbered as in 13:R300; `cas` compares with rd on entry. -/
def atomicAt (op : Nat) (cas : Bool) (d a b : Fin 64) (s : State) : Out :=
  let r := s.getS a
  let v := s.getS b
  let c := s.getS d
  if !addrResOk r 0 then trapResidue a rkAddr s
  else if !dataResOk v then trapResidue b rkData s
  else if cas && !dataResOk c then trapResidue d rkData s
  else
    match scalarAddr s r.val.toNat 8 ⟨true, true, true⟩ with
    | (s, .error e) => trap e r.val s
    | (s, .ok (x, pa)) =>
      released (fun s =>
        if windowOf pa = .control then
          let q := ctrlRead s pa
          let z := rmwValue op 0 64 q.2.toNat v.val.toNat c.val.toNat
          writeV 4 d q.2 (match z.1 with | some w => ctrlWrite (setDirty q.1 (x.mark pa).due pa) pa (BitVec.ofNat 64 w) | none => q.1)
        else
          let t := applyAt (scalarReady s pa) pa 8 op 0 v.val.toNat c.val.toNat x.cacheable (x.mark pa)
          if t.lost then trap cPoison r.val t.st else writeV 4 d (BitVec.ofNat 64 t.old) t.st) s

/-- ACQLD (15:R340): an acquire load of 8 bytes at ra. -/
def execAcqld (d a : Fin 64) (_p : Fin 8) (s : State) : Out :=
  loadAt a 0 8 (fun v s => writeV 4 d (BitVec.ofNat 64 v) s) s

/-- RELST (15:R340): a release store of rb to the word at ra; the checks come before the release (15:R338). -/
def execRelst (a b : Fin 64) (_p : Fin 8) (s : State) : Out :=
  let r := s.getS a
  if !addrResOk r 0 then trapResidue a rkAddr s
  else if !dataResOk (s.getS b) then trapResidue b rkData s
  else
    match scalarAddr s r.val.toNat 8 ⟨false, true, false⟩ with
    | (s, .error c) => trap c r.val s
    | (s, .ok (x, pa)) => released (fun s => done 4 (putStore false x pa 8 (s.sval b).toNat s)) s

/-- LB (15:R337). -/
def execLb (d a : Fin 64) (i : BitVec 10) (s : State) : Out := loadSigned d a i 1 s

/-- LH (15:R337). -/
def execLh (d a : Fin 64) (i : BitVec 10) (s : State) : Out := loadSigned d a i 2 s

/-- LW (15:R337). -/
def execLw (d a : Fin 64) (i : BitVec 10) (s : State) : Out := loadSigned d a i 4 s

/-- LD (15:R337). -/
def execLd (d a : Fin 64) (i : BitVec 10) (s : State) : Out := loadZero d a i 8 s

/-- LBU (15:R337). -/
def execLbu (d a : Fin 64) (i : BitVec 10) (s : State) : Out := loadZero d a i 1 s

/-- LHU (15:R337). -/
def execLhu (d a : Fin 64) (i : BitVec 10) (s : State) : Out := loadZero d a i 2 s

/-- LWU (15:R337). -/
def execLwu (d a : Fin 64) (i : BitVec 10) (s : State) : Out := loadZero d a i 4 s

/-- SB (15:R337). -/
def execSb (r a : Fin 64) (i : BitVec 10) (s : State) : Out := storeAt true r a (i.signExtend 64) 1 s

/-- SH (15:R337). -/
def execSh (r a : Fin 64) (i : BitVec 10) (s : State) : Out := storeAt true r a (i.signExtend 64) 2 s

/-- SW (15:R337). -/
def execSw (r a : Fin 64) (i : BitVec 10) (s : State) : Out := storeAt true r a (i.signExtend 64) 4 s

/-- SD (15:R337). -/
def execSd (r a : Fin 64) (i : BitVec 10) (s : State) : Out := storeAt true r a (i.signExtend 64) 8 s

/-- RMW.ADD (15:R341): old + v. -/
def execRmwAdd (d a b : Fin 64) (_p : Fin 8) (s : State) : Out := atomicAt 16 false d a b s

/-- RMW.SWAP (15:R341): v. -/
def execRmwSwap (d a b : Fin 64) (_p : Fin 8) (s : State) : Out := atomicAt 25 false d a b s

/-- RMW.CAS (15:R341): v where old = c. -/
def execRmwCas (d a b : Fin 64) (_p : Fin 8) (s : State) : Out := atomicAt 26 true d a b s

/-- RMW.AND (15:R341): old AND v. -/
def execRmwAnd (d a b : Fin 64) (_p : Fin 8) (s : State) : Out := atomicAt 22 false d a b s

/-- RMW.OR (15:R341): old OR v. -/
def execRmwOr (d a b : Fin 64) (_p : Fin 8) (s : State) : Out := atomicAt 23 false d a b s

/-- RMW.XOR (15:R341): old XOR v. -/
def execRmwXor (d a b : Fin 64) (_p : Fin 8) (s : State) : Out := atomicAt 24 false d a b s

/-- RMW.MIN (15:R341): the lesser, signed. -/
def execRmwMin (d a b : Fin 64) (_p : Fin 8) (s : State) : Out := atomicAt 18 false d a b s

/-- RMW.MAX (15:R341): the greater, signed. -/
def execRmwMax (d a b : Fin 64) (_p : Fin 8) (s : State) : Out := atomicAt 19 false d a b s

/-- RMW.MINU (15:R341): the lesser, unsigned. -/
def execRmwMinu (d a b : Fin 64) (_p : Fin 8) (s : State) : Out := atomicAt 20 false d a b s

/-- RMW.MAXU (15:R341): the greater, unsigned. -/
def execRmwMaxu (d a b : Fin 64) (_p : Fin 8) (s : State) : Out := atomicAt 21 false d a b s

end Sys2Proof.Machine
end

