-- ==== Sys2Proof/Machine/Sys.lean ====
section
/-!
DEFINITION. Hints, system, synchronisation, task and privileged instructions, and SETVL (02:R48, 07:R150, 08:R174, 16:R362-R369, 17:R374-R395).
-/

namespace Sys2Proof.Machine

/-! ### Hints and illegal instructions -/

/-- HINT.CPF (17:R395): a no-operation. -/
def execHintCpf (_n : BitVec 21) (s : State) : Out := done 4 s

/-- Every hint word without a row of its own (02:R48): a no-operation of its length. -/
def execHint (long : Bool) (_bits : Word) (s : State) : Out := done (if long then 8 else 4) s

/-- NOP (17:R395). -/
def execNop (s : State) : Out := done 4 s

/-- HINT.BT (17:R395). -/
def execHintBt (s : State) : Out := done 4 s

/-- HINT.BN (17:R395). -/
def execHintBn (s : State) : Out := done 4 s

/-- An illegal instruction (02:R35): the illegal-instruction cause with the instruction's bits. -/
def execIllegalInstruction (bits : Word) (s : State) : Out := trap cIllegal bits s

/-- The privilege-violation cause of an instruction with these bits (02:R35). -/
def privBits (w : Nat) (s : State) : Out := trap cPriv (BitVec.ofNat 64 w) s

/-! ### SETVL -/

/-- Gives up one owned bank (16:R362): its flags and poison loss go to the thread, it is cleared, its BMASK bit falls. -/
def giveBank (s : State) (j b : Nat) : State :=
  let s := flushBank s s.tid b
  let x := s.bank b
  let t := s.thr
  let s := { s with thr := { t with flags := t.flags ||| x.flags, ploss := t.ploss || x.ploss, bmask := t.bmask &&& ~~~ (BitVec.ofNat 64 (2 ^ j)) } }
  let s := clearBank s b
  s.setBank b { s.bank b with flags := 0, ploss := false }

/-- The free banks next to the running thread's range, nearest first: banks in neither range (16:R360, R362). -/
def adjacentFree (s : State) : List (Nat × Nat) :=
  let p := s.thr.bpart
  let o := s.thread (tidOf s.cur.st (otherTh s.cur.th))
  let l := enumFrom 0 s.bankList
  let l := if s.cur.th % 2 = 0 then l.drop (p.base.toNat + p.count.toNat) else (l.take p.base.toNat).reverse
  l.takeWhile (fun q => !ownedAt o q.1)

/-- Renumbers x1 in every owned bank from the new base (16:R362). -/
def renumber (s : State) : State :=
  let base := s.thr.bpart.base.toNat
  s.ownedAll.foldl (fun acc p => acc.setBank p.2 ((acc.bank p.2).setX 1 (mkS (BitVec.ofNat 64 (p.1 - base))))) s

/-- The step "apply a pending bank-partition change" (16:R362), with the vector side empty. -/
def applyPartition (s : State) : State :=
  let p := s.thr.bpart
  let req := p.req.toNat
  let cnt := p.count.toNat
  let up := decide (s.cur.th % 2 = 0)
  let set (s : State) (base count : Nat) : State :=
    { s with thr := { s.thr with bpart := { s.thr.bpart with base := BitVec.ofNat 8 base, count := BitVec.ofNat 8 count } } }
  if req < cnt then
    let d := cnt - req
    let gone := s.ownedAll.filter (fun q => if up then decide (p.base.toNat + req ≤ q.1) else decide (q.1 < p.base.toNat + d))
    let s := gone.foldl (fun acc q => giveBank acc q.1 q.2) s
    let s := set s (if up then p.base.toNat else p.base.toNat + d) req
    if up then s else renumber s
  else
    let got := (adjacentFree s).take (req - cnt)
    let base := if up then p.base.toNat else p.base.toNat - got.length
    let seed := s.thr.srseed
    let s := got.foldl (fun acc q => startBank acc q.2 q.1 (q.1 - base) seed) s
    let s := set s base (cnt + got.length)
    if up || got.isEmpty then s else renumber s

/-- The grant of SETVL (07:R150): VL and LIVE for a requested length. -/
def grantVl (avl cap blk : Nat) : Nat × Nat := if cap ≤ avl then (cap, cap) else (2 ^ blk * ((avl + 2 ^ blk - 1) / 2 ^ blk), avl)

/-- SETVL (08:R174): the soft pre-emption point, whose trap writes its registers and enters no handler (20:R432, R440), the VL-range check, the
partition change, the grant. -/
def execSetvl (d : Fin 64) (k : Fin 32) (t : Fin 16) (a : Fin 64) (s : State) : Out :=
  let avl := (s.sval a).toNat
  let tag := BitVec.ofNat 4 t.val
  let cap := capOf (fmtWidth tag)
  if s.thr.softReq && s.thr.handlers.isEmpty && s.canSave s.tid then
    if s.mustDrain then drainWait s
    else
      let tr := { s.thr.tr with cause := cPreempt, val := 0, pc := BitVec.ofNat 50 (s.front.pc.toNat / 4) }
      .next (preempt { s with thr := { s.thr with tr := tr } } s.tid false false none)
  else if cap < 2 ^ k.val then trap cVl (s.sval a) s
  else if s.thr.bpart.req ≠ s.thr.bpart.count ∧ s.mustDrain then drainWait s
  else
    let s := if s.thr.bpart.req = s.thr.bpart.count then s else applyPartition s
    let g := grantVl avl cap k.val
    let s := s.setFront { s.front with vstart := 0, vlcfg := ⟨BitVec.ofNat 15 g.2, BitVec.ofNat 15 g.1, BitVec.ofNat 5 k.val, tag⟩ }
    writeV 4 d (BitVec.ofNat 64 g.2) s

/-! ### Ending, waiting, pausing -/

/-- END (16:R369, 17:R386): after the vector side and the posted elements, the task ends; at supervisor level its launch records TRAPPED. -/
def execEndTask (s : State) : Out :=
  if s.thr.ui.active then illegal .endTask s
  else if s.mustDrain then drainWait s
  else .next (endTask s.retire s.tid true (if s.level = .supervisor then lsTrapped else 0))

/-- HALT (17:R389): ends the task as CANCELLED, if there is one, and parks the thread. -/
def execHalt (s : State) : Out :=
  if s.level = .user then privViolation .halt s
  else if s.mustDrain then drainWait s
  else
    let st := s.cur.st
    let th := s.cur.th
    let s := endTask s.retire s.tid false lsCancelled
    .next (s.setStack st { s.stack st with park := (s.stack st).park ||| BitVec.ofNat 40 (2 ^ th) })

/-- One read of WAIT's word by the running thread (17:R387): it ends the WAIT when the word is not zero, else `again` says what follows. -/
def waitRead (d : Fin 64) (va : Word) (again : State → Out) (s : State) : Out :=
  match scalarAddr s va.toNat 8 ⟨true, false, false⟩ with
  | (s, .error c) => trap c va s
  | (s, .ok (x, pa)) =>
    let v := anyRead (scalarReady s pa) pa 8 x.cacheable
    if v.2.2 then trap cPoison va v.1
    else if v.2.1 = 0 then again v.1
    else writeV 4 d (BitVec.ofNat 64 v.2.1) { v.1 with thr := { v.1.thr with cond := .running } }

/-- WAIT (17:R387). -/
def execWait (d a b : Fin 64) (s : State) : Out :=
  let r := s.getS a
  let limit := BitVec.ofNat 32 (fieldOf (s.sval b) 31 0)
  if !addrResOk r 0 then trapResidue a rkAddr s
  else waitRead d r.val (fun s => .next { s with thr := { s.thr with cond := .waitWord d r.val limit } }) s

/-- The state an outcome leads to, or `s`. -/
def Out.state (o : Out) (s : State) : State :=
  match o with
  | .next t => t
  | _ => s

/-- A waiting thread reads its word again (17:R387). -/
def rereadWait (s : State) : State :=
  match s.thr.cond with
  | .waitWord d va _ => Out.state (waitRead d va (fun s => .next s) s) s
  | _ => s

/-- WAIT_REREAD (17:R387). -/
def execWaitReread (st : Fin 32) (th : Fin 40) (s : State) : Out := .next (onThread s st.val th.val rereadWait)

/-- A WAIT whose limit expires writes 0 (17:R387). -/
def expireWait (s : State) : State :=
  match s.thr.cond with
  | .waitWord d _ limit => if limit = 0 then s else complete 4 (({ s with thr := { s.thr with cond := .running } }).setV d 0)
  | _ => s

/-- WAIT_LIMIT_EXPIRY (17:R387). -/
def execWaitLimitExpiry (st : Fin 32) (th : Fin 40) (s : State) : Out := .next (onThread s st.val th.val expireWait)

/-- PAUSE (17:R388). -/
def execPause (_a : Fin 64) (s : State) : Out := .next { s with thr := { s.thr with cond := .paused } }

/-- A PAUSE that ends counts as complete (17:R388). -/
def expirePause (s : State) : State :=
  if s.thr.cond = .paused then complete 4 { s with thr := { s.thr with cond := .running } } else s

/-- PAUSE_EXPIRY (17:R388). -/
def execPauseExpiry (st : Fin 32) (th : Fin 40) (s : State) : Out := .next (onThread s st.val th.val expirePause)

/-! ### Traps and returns -/

/-- TRAP (17:R390): the software-trap cause; TRAPPC is the next instruction. -/
def execTrap (a : Fin 64) (s : State) : Out :=
  let x := s.getS a
  if !dataResOk x then trapResidue a rkReg s else trapScalar ⟨cSoft, x.val, false, true⟩ 4 s

/-- ERET (17:R391, 20:R436). A buffer pc that is no multiple of 4, which a record or a CRW may have left, traps at the ERET (02:R34). -/
def execEret (s : State) : Out :=
  if s.level = .user then privViolation .eret s
  else if s.thr.trapped.isSome ∧ s.thr.tr.bpc.toNat % 4 ≠ 0 then trap cMisfetch (BitVec.ofNat 64 s.thr.tr.bpc.toNat) s
  else .next (returnTrap s)

/-- Exchanges s48-s63 with their shadow copies (12:R282, R283). -/
def swapShadow (t : Thread) : Thread :=
  { t with sregs := (List.range 16).foldl (fun (v : Vector SReg 64) i =>
             if h : 48 + i < 64 then v.set (48 + i) ((t.shadow.toList[i]?).getD SReg.zero) h else v) t.sregs
           shadow := vecGen 16 (fun i => (t.sregs.toList[48 + i]?).getD SReg.zero) }

/-- UIRET (12:R283, 17:R392). -/
def execUiret (s : State) : Out :=
  if s.level = .supervisor ∨ !s.thr.ui.active then illegal .uiret s
  else
    let t := swapShadow s.thr
    let s := { s with thr := { t with ui := { t.ui with active := false } } }
    .next ((s.setFront { s.front with pc := BitVec.ofNat 64 (t.ui.epc.toNat * 4) }).retire)

/-- The completion interrupt is due at the boundary of the running control thread (12:R282). -/
def uiDue (s : State) : Bool :=
  let t := s.thr
  let u := t.ui
  u.en && !u.active && (u.pend0 || u.pend1) && decide (t.level = .user) && decide (t.cond ≠ .splitWait) && t.task.isSome &&
  !t.cond.isReady

/-- The completion interrupt enters its handler at a boundary (12:R282). -/
def enterUi (s : State) : State :=
  if uiDue s then
    let s := expirePause s
    let t := swapShadow s.thr
    let pc := t.front.pc
    { s with thr := { t with ui := { t.ui with epc := BitVec.ofNat 50 (fieldOf pc 51 2), active := true }, cond := .running,
                             front := { t.front with pc := BitVec.ofNat 64 (t.ui.handler.toNat * 4) } } }
  else s

/-- The oldest deadline that the running control thread is to take: bank and group (04:R100). -/
def dueDeadline (s : State) : Option (Nat × Fin 16) :=
  s.ownedAll.findSome? (fun p => ((List.range 16).find? (fun k => (s.bank p.2).deadline.getLsbD k)).map (fun k => (p.2, idx16 k)))

/-- The hard pre-emption of a thread acts at this boundary: no handler runs (20:R438). -/
def hardDueOn (s : State) (tid : Nat) : Bool := (s.thread tid).hardReq && (s.thread tid).handlers.isEmpty && s.mayStop tid

/-- The hard pre-emption of the running control thread acts at this boundary. -/
def hardDue (s : State) : Bool := hardDueOn s s.tid

/-- A trap or a pre-emption of this boundary goes before the completion interrupt (12:R282, 20:R435). -/
def beforeUi (s : State) : Bool := hardDue s || (!s.thr.tr.busy && ((dueDeadline s).isSome || s.thr.ueReq.isSome))

/-- COMPLETION_INTERRUPT (12:R282). -/
def execCompletionInterrupt (st : Fin 32) (th : Fin 40) (s : State) : Out :=
  .next (onThread s st.val th.val (fun s => if beforeUi s then s else enterUi s))

/-! ### Fences and barriers -/

/-- FENCE.scope (14:R320, 17:R376). -/
def execFence (_p : Fin 8) (s : State) : Out := released (done 4) s

/-- FENCE.SV (14:R316, 17:R377): the thread's earlier stores are visible before a later vector-side access; in a bank thread it orders nothing. -/
def execFenceSv (s : State) : Out :=
  match s.cur.bank with
  | none => done 4 (landAll s s.tid)
  | some _ => done 4 s

/-- FENCE.VS (14:R316, 17:R377): in a bank thread it orders nothing. -/
def execFenceVs (s : State) : Out :=
  match s.cur.bank with
  | none => if s.mustDrain then drainWait s else done 4 (flushPosted s s.tid)
  | some _ => done 4 s

/-- BSYNC (14:R313, 17:R378): in each owned bank, whatever BMASK holds. -/
def execBsync (s : State) : Out :=
  let e := s.venv .bsync 4 0 0
  vdone e ((ctxBanks s { e.ctx with bmask := BitVec.allOnes 64 }).foldl (fun acc p => flushBank acc s.tid p.2) s)

/-- BARB (17:R379): only in a bank thread. -/
def execBarb (s : State) : Out :=
  match s.cur.bank with
  | none => illegal .barb s
  | some j =>
    let s := flushBank s s.tid (s.ownBank j)
    let b := s.bt j
    .next (releaseBarrier (s.setBt j { b with barb := b.barb + 1, status := .atBarrier }))

/-! ### Tasks -/

/-- Reads `n` words of 8 bytes as scalar accesses; the flag says that one was poisoned. -/
def readAny (s : State) (pa : Nat) (alloc : Bool) : Nat → State × List Word × Bool
  | 0 => (s, [], false)
  | n + 1 =>
    let r := anyRead (scalarReady s pa) pa 8 alloc
    let z := readAny r.1 (pa + 8) alloc n
    (z.1, BitVec.ofNat 64 r.2.1 :: z.2.1, r.2.2 || z.2.2)

/-- LAUNCH (17:R381, R382): checks, release, copy, acceptance. -/
def execLaunch (d a : Fin 64) (s : State) : Out :=
  let r := s.getS a
  if !addrResOk r 0 then trapResidue a rkAddr s
  else
    match scalarSpan s r.val.toNat 256 160 ⟨true, false, false⟩ with
    | (s, .error c) => trap c r.val s
    | (s, .ok (x, pa)) =>
      released (fun s =>
        let w := readAny s pa x.cacheable 20
        if w.2.2 then trap cPoison r.val w.1
        else
          let i := s.thr.task
          let z := acceptDevice w.1 s.cur.st w.2.1 (match i with | some i => i.ctx | none => 0) s.thr.root
          writeV 4 d z.2 z.1) s

/-- A bank thread as SPLIT starts it (16:R367). -/
def newBankThread (s : State) (pc : Word) : BankThread :=
  let f := s.front
  { front := { Front.reset with pc := pc, vlcfg := f.vlcfg, rmode := f.rmode, pcfg := f.pcfg, verify := f.verify },
    level := s.thr.level, barb := 0, status := .running }

/-- SPLIT (16:R367, 17:R383). -/
def execSplit (a : Fin 64) (s : State) : Out :=
  let v := s.sval a
  if v.toNat / 2 ^ 13 ≠ 0 ∨ v.toNat % 4 ≠ 0 then trap cFetch v s
  else if s.mustDrain then drainWait s
  else
    let banks := ctxBanks s (captureCtx s 0 0)
    if banks.isEmpty then done 4 s
    else .next { s with thr := { s.thr with cond := .splitWait, bts := banks.map (fun p => (p.1, newBankThread s v)) } }

/-- JOIN (16:R367, 17:R384): only in a bank thread. -/
def execJoin (s : State) : Out :=
  match s.cur.bank with
  | none => illegal .join s
  | some j =>
    let s := flushBank s s.tid (s.ownBank j)
    let b := s.bt j
    .next (releaseBarrier ((s.setBt j { b with status := .joined }).retire))

/-- SPLIT completes when every bank thread has joined: each stall counter rises by the largest of theirs (16:R367). -/
def completeSplit (s : State) : State :=
  let l := s.thr.bts
  if decide (s.thr.cond = .splitWait) && l.all (fun p => decide (p.2.status = .joined)) then
    let f := s.thr.front
    let most (i : Nat) : Nat := l.foldl (fun m p => max m ((p.2.front.stalls.toList[i]?).getD 0).toNat) 0
    let st := vecGen 64 (fun i => (f.stalls.toList[i]?).getD 0 + BitVec.ofNat 64 (most i))
    complete 4 { s with thr := { s.thr with cond := .running, bts := [], front := { f with stalls := st } }, cur := { s.cur with bank := none } }
  else s

/-- The control thread at SPLIT takes the trap of its lowest stopped bank thread (16:R367, 20:R435, R436). -/
def takeBankTrap (s : State) : State :=
  if s.thr.cond ≠ .splitWait then s
  else
    match s.thr.bts.findSome? (fun p => match p.2.status with | .stopped t => some (p.1, p.2, t) | _ => none) with
    | none => s
    | some (j, b, t) =>
      enterTrap { s with cur := { s.cur with bank := none } } t.cause t.val s.thr.front.pc t.vec true j b.front.pc.toNat

/-- BANK_THREAD_TRAP (16:R367). -/
def execBankThreadTrap (st : Fin 32) (th : Fin 40) (s : State) : Out := .next (onThread s st.val th.val takeBankTrap)

/-! ### VFETCH -/

/-- The lowest address among `n` blocks of 64 bytes at which a page does not translate as an instruction fetch does (17:R385). -/
def codeFails (s : State) (va : Nat) : Nat → State × Option Nat
  | 0 => (s, none)
  | n + 1 =>
    match codePage s s.thr.root s.level va with
    | (s, none) => (s, some va)
    | (s, some _) => codeFails s (va + 64) n

/-- Reads `n` words of 32 bytes of code: the bytes, or how a hash or a word failed and where (21:R450, 22:R476). -/
def readUnits (s : State) (va : Nat) : Nat → State × Except (Word32 × Nat) (List Byte)
  | 0 => (s, .ok [])
  | n + 1 =>
    match codeAddr s s.thr.root s.level va with
    | (s, .error e) => (s, .error (e, va))
    | (s, .ok pa) =>
      let r := readWords s pa 4
      if r.2.2 then (r.1, .error (.fault, va))
      else
        match readUnits r.1 (va + 32) n with
        | (s, .error e) => (s, .error e)
        | (s, .ok l) => (s, .ok (r.2.1 ++ l))

/-- Reads `n` blocks of 64 bytes of code from a virtual address (17:R385): every page translates before any is hashed or read. -/
def readCode (s : State) (va n : Nat) : State × Except (Word32 × Nat) (List Byte) :=
  match codeFails s va n with
  | (s, some a) => (s, .error (.fault, a))
  | (s, none) => readUnits s va (2 * n)

/-- Writes bytes into a buffer window and marks its blocks valid (16:R368). -/
def fillWin (w : BibWin) (off : Nat) (l : List Byte) : BibWin :=
  { bytes := (enumFrom off l).foldl (fun m p => memWrite m p.1 p.2) w.bytes
    poison := w.poison.filter (fun i => !(decide (off ≤ 32 * i ∧ 32 * i < off + l.length)))
    valid := (List.range (l.length / 64)).foldl (fun v i => v ||| BitVec.ofNat 128 (2 ^ (off / 64 + i))) w.valid }

/-- The windows a VFETCH writes (17:R385): every half-slab of the frond, or the bank thread's own half-slab. -/
def fetchWins (s : State) : List Nat :=
  let c := s.cur.th % 2
  match s.cur.bank with
  | some j => [bibKey (s.ownBank j) c]
  | none =>
    match (s.stack s.cur.st).frond (feOf s.cur.th) with
    | some f => f.halfList.map (fun h => 2 * h + c)
    | none => []

/-- VFETCH (17:R385). -/
def execVfetch (a b : Fin 64) (s : State) : Out :=
  let r := s.getS a
  let v := s.sval b
  let off := fieldOf v 15 0
  let n := fieldOf v 24 16
  if !addrResOk r 0 then trapResidue a rkAddr s
  else if r.val.toNat % 64 ≠ 0 then trap cAlign r.val s
  else if fieldOf v 63 25 ≠ 0 ∨ 128 < n ∨ off % 64 ≠ 0 ∨ 0x2000 < off + 64 * n then trap cAccess v s
  else
    match readCode s r.val.toNat n with
    | (s, .error (.broken, _)) =>
      match s.thr.task with
      | some i => .next (endLaunch s i.id.stack i.id.launch lsCode i.id.num)
      | none => trap cFetch r.val s
    | (s, .error (_, va)) => trap cFetch (BitVec.ofNat 64 va) s
    | (s, .ok l) =>
      let k := s.stack s.cur.st
      let win (key : Nat) : BibWin := (mapGet k.bib key).getD ⟨[], 0, []⟩
      let fresh (s : State) : State := dropUpsets s (fun p => match p with
        | .bib st' key w => decide (st' = s.cur.st ∧ off ≤ 32 * w ∧ 32 * w < off + l.length) && (fetchWins s).contains key
        | _ => false)
      done 4 ((fresh s).setStack s.cur.st { k with bib := (fetchWins s).foldl (fun m key => mapSet m key (fillWin (win key) off l)) k.bib })

/-! ### Translation invalidation and the way partition -/

/-- Removes cached translations and pointer entries (17:R393): stores are visible first, elements sent under a removed one are applied at their targets
(19:R427). -/
def invalidate (s : State) (sel : Xlat → Bool) (ptr : Ptr → Bool) : State :=
  let s := landWhere s (fun _ => true)
  let s := (List.range s.posted.length).foldl applyPosted s
  { s with xlat := s.xlat.filter (fun x => !sel x), ptrs := s.ptrs.filter (fun p => !ptr p) }

/-- A cached translation maps the page, of its size, that holds a virtual address (17:R393, 19:R417). -/
def Xlat.maps (x : Xlat) (va : Word) : Bool :=
  let page := va.toNat / 2 ^ 16
  decide (x.page = page) || ((x.bit 10 || x.run.isSome) && decide (x.page / 32 = page / 32))

/-- A pointer entry lies on the walk of a virtual address (17:R393). -/
def Ptr.maps (p : Ptr) (va : Word) : Bool := decide (p.page / 2 ^ p.low = va.toNat / 2 ^ 16 / 2 ^ p.low)

/-- TLBI.VA (17:R393). -/
def execTlbiVA (a b : Fin 64) (s : State) : Out :=
  let r := s.getS a
  let root := s.sval b
  if s.level = .user then privBits (packed 0x18 [(a.val, 13), (b.val, 19)]) s
  else if !addrResOk r 0 then trapResidue a rkAddr s
  else done 4 (invalidate s (fun x => decide (x.root = root) && x.maps r.val) (fun p => decide (p.root = root) && p.maps r.val))

/-- TLBI.AS (17:R393). -/
def execTlbiAS (a : Fin 64) (s : State) : Out :=
  let root := s.sval a
  if s.level = .user then privBits (packed 0x2000018 [(a.val, 13)]) s
  else done 4 (invalidate s (fun x => decide (x.root = root)) (fun p => decide (p.root = root)))

/-- TLBI.ALL (17:R393). -/
def execTlbiAll (s : State) : Out :=
  if s.level = .user then privViolation .tlbiAll s else done 4 (invalidate s (fun _ => true) (fun _ => true))

/-- WAYSET (17:R394). -/
def execWayset (d a : Fin 64) (s : State) : Out :=
  let x := s.getS a
  if s.level = .user then privBits (packed 0x10000018 [(d.val, 7), (a.val, 13)]) s
  else if !dataResOk x then trapResidue a rkReg s
  else if !waysOk x.val then writeV 4 d (BitVec.allOnes 64) s
  else if s.mustDrain then drainWait s
  else
    let old := match (s.stack s.cur.st).frond (feOf s.cur.th) with | some f => f.waypart | none => 0
    writeV 4 d old (setWays s s.cur.st (feOf s.cur.th) x.val)

end Sys2Proof.Machine
end

