-- ==== Sys2Proof/Machine/Engines.lean ====
section
/-!
DEFINITION. Engine queues and spore engines: QUEUE instructions, command checks, copies, WAITCW, engine programs, remote commands
(12:R277-R286, 13:R304-R307, 19:R430, 23:R480-R490).
-/

namespace Sys2Proof.Machine

/-! ### Taking commands -/

/-- The words of one owner in a command FIFO. -/
def ownedWords (l : List (Word × QOwner)) (id : TaskId) : List Word := (l.filter (fun w => decide (w.2.task = id))).map (fun w => w.1)

/-- A list of command words ends with a whole command (12:R278). -/
def endsCmd : Nat → List Word → Bool
  | _, [] => true
  | 0, _ => false
  | n + 1, h :: t => decide (fieldOf h 55 53 ≤ t.length) && endsCmd n (t.drop (fieldOf h 55 53))

/-- Removes the first `n` words of an owner. -/
def dropOwned (id : TaskId) : Nat → List (Word × QOwner) → List (Word × QOwner)
  | 0, l => l
  | _, [] => []
  | n + 1, w :: t => if w.2.task = id then dropOwned id n t else w :: dropOwned id (n + 1) t

/-- The first whole command in a FIFO: header, operands, owner, the words left. -/
def firstCmd (all : List (Word × QOwner)) : List (Word × QOwner) → Option (Word × List Word × QOwner × List (Word × QOwner))
  | [] => none
  | w :: t =>
    match ownedWords all w.2.task with
    | [] => firstCmd all t
    | h :: ops =>
      let n := fieldOf h 55 53
      if n ≤ ops.length then some (h, ops.take n, w.2, dropOwned w.2.task (n + 1) all) else firstCmd all t

/-- The number of operand words a command takes (12:R279, R286, 23:R484). -/
def opCount (op n : Nat) : Bool :=
  match op with
  | 1 => n == 4
  | 2 => n == 4
  | 3 => n == 5
  | 4 => n == 6
  | 5 => decide (1 ≤ n)
  | 6 => n == 2
  | _ => false

/-- The header is legal: OP, N, reserved fields (12:R278, R279). -/
def hdrOk (h : Word) : Bool := opCount (fieldOf h 63 56) (fieldOf h 55 53) && decide (fieldOf h 51 48 = 0 ∧ fieldOf h 31 0 = 0)

/-- The formats of COLL (23:R484). -/
def collTag (t : Nat) : Bool := ([4, 5, 10, 11, 12] : List Nat).contains t

/-- The element bytes of a COLL. -/
def collBytes (c : Word) : Nat := tagWidth (BitVec.ofNat 4 (fieldOf c 59 56)) / 8

/-- The operand checks that give BADCMD (12:R279, R286, 23:R484). -/
def opsOk (h : Word) (o : List Word) : Bool :=
  let w (n : Nat) : Word := wordAt o n
  let cw := decide ((w 3).toNat % 8 = 0)
  match fieldOf h 63 56 with
  | 1 => cw && decide (1 ≤ (w 2).toNat ∧ (w 2).toNat ≤ 2 ^ 40)
  | 2 => cw && decide (fieldOf (w 1) 63 60 = 0 ∧ fieldOf (w 2) 62 41 = 0 ∧ 1 ≤ fieldOf (w 2) 40 0 ∧ fieldOf (w 2) 40 0 ≤ 2 ^ 40)
  | 3 => cw && decide ((w 0).toNat % 4096 = 0 ∧ fieldOf (w 1) 63 60 = 0 ∧ (w 2).toNat % 4096 = 0 ∧ fieldOf (w 4) 63 5 = 0)
  | 4 =>
    let e := collBytes (w 2)
    cw && collTag (fieldOf (w 2) 59 56) &&
      decide (fieldOf (w 1) 63 60 = 0 ∧ fieldOf (w 2) 63 60 = 0 ∧ fieldOf (w 2) 55 41 = 0 ∧ fieldOf (w 2) 40 0 % e = 0 ∧ (w 0).toNat % e = 0 ∧
        fieldOf (w 1) 33 0 % e = 0 ∧ fieldOf (w 4) 63 34 = 0 ∧ (w 4).toNat % 8 = 0)
  | 5 => decide (fieldOf (w 0) 63 6 = 0)
  | 6 => decide ((w 0).toNat % 8 = 0)
  | _ => false

/-- A node that no remote command may name: NODECFG not valid, bit 19 set, or this module (23:R480). -/
def nodeBad (s : State) (h : Word) (o : List Word) : Bool :=
  let op := fieldOf h 63 56
  let node := fieldOf (wordAt o 1) 59 40
  decide (2 ≤ op ∧ op ≤ 4) && (!bitOf s.nodecfg 63 || decide (2 ^ 19 ≤ node) || decide (node = fieldOf s.nodecfg 19 0))

/-- The key that a PRECOPY names (23:R486). -/
def keyOf (s : State) (slot : Nat) : Option (BitVec 256) := s.keys[idx16 slot]

/-- A queue starts its next command: the checks of 12:R279 in order. A command that fails one has its status at once; a completion word that
cannot be written is forgotten. -/
def startNext (s : State) (st : Nat) (q : Fin 64) : State :=
  let e := s.engq st q
  if e.run.isSome || e.held.isSome then s
  else
    match firstCmd e.fifo e.fifo with
    | none => s
    | some (h, ops, own, rest) =>
      let s := s.setEngq st q { e with fifo := rest, started := e.started + 1 }
      let named := opCount (fieldOf h 63 56) (fieldOf h 55 53)
      let cw := if named then completionAddr h ops else 0
      let word := if named ∧ fieldOf h 63 56 = 6 then wordAt ops 0 else cw
      let need : Need := if fieldOf h 63 56 = 6 then ⟨true, false, false⟩ else ⟨false, true, false⟩
      let a := if word = 0 ∨ word.toNat % 8 ≠ 0 then (s, true)
               else let z := unitAddr s st own.root own.level word.toNat 8 need
                    (z.1, z.2.isSome)
      let s := a.1
      let good := hdrOk h && opsOk h ops
      let status : Option (BitVec 8) :=
        if !good then some csBadCmd
        else if !a.2 then some csBadAddr
        else if nodeBad s h ops then some csBadAddr
        else if fieldOf h 63 56 = 3 ∧ (keyOf s (fieldOf (wordAt ops 4) 3 0)).isNone then some csAuth
        else none
      let ops := if named && a.2 then ops else listSet ops 3 0
      s.setEngq st q { s.engq st q with run := some { id := e.started, op := BitVec.ofNat 8 (fieldOf h 63 56), hdr := h, ops := ops, done := 0,
                                                      pos := 0, sent := 0, acked := [], got := [], status := status, pages := [], carry := [],
                                                      own := own } }

/-- Delivers a held-back result once its FIFO has room (12:R277). -/
def deliverHeld (s : State) (st : Nat) (q : Fin 64) : State :=
  match (s.engq st q).held with
  | none => s
  | some (w, id) =>
    let g := giveResult s id (queueNo q.val) w
    if g.2 then g.1.setEngq st q { g.1.engq st q with held := none } else s

/-! ### QUEUE instructions -/

/-- The queue number of a QUEUE instruction. -/
def qIdx (q : Bool) : Fin 2 := if q then 1 else 0

/-- The running thread's engine queue (12:R277, 18:R399). -/
def ownQueue (s : State) (q : Bool) : Fin 64 := engQueueOf s s.cur.st s.cur.th (qIdx q)

/-- QPUSH (13:R305): waits while the FIFO is full; the word that completes a command is a release. -/
def execQpush (a : Fin 64) (q : Bool) (s : State) : Out :=
  let v := s.getS a
  if !dataResOk v then trapResidue a rkReg s
  else
    match s.thr.task with
    | none => done 4 s
    | some i =>
      let n := ownQueue s q
      let e := s.engq s.cur.st n
      if 32 ≤ e.fifo.length then .next s
      else
        let own : QOwner := ⟨i.id, i.root, s.level⟩
        let put (s : State) : Out := done 4 (s.setEngq s.cur.st n { e with fifo := e.fifo ++ [(v.val, own)] })
        if endsCmd 64 (ownedWords e.fifo i.id ++ [v.val]) then released put s else put s

/-- Takes the oldest result of a queue into rd (13:R306); a result held back then has room. -/
def popResult (d : Fin 64) (q : Bool) (w : Word) (s : State) : Out :=
  let t := s.thr
  let n := qIdx q
  let s := { s with thr := { t with results := t.results.set n (t.results[n].drop 1) } }
  writeV 4 d w (deliverHeld s s.cur.st (ownQueue s q))

/-- QPOP (13:R306): waits while the FIFO is empty. -/
def execQpop (d : Fin 64) (q : Bool) (s : State) : Out :=
  match s.thr.results[qIdx q] with
  | [] => .next s
  | w :: _ => popResult d q w s

/-- QPOP.NB (13:R306): 0 when the FIFO is empty. -/
def execQpopNB (d : Fin 64) (q : Bool) (s : State) : Out :=
  match s.thr.results[qIdx q] with
  | [] => writeV 4 d 0 s
  | w :: _ => popResult d q w s

/-- QSTAT's value (13:R307). -/
def qstatWord (e : EngQ) (results : Nat) : Nat :=
  b2n e.held.isSome + results * 2 ^ 8 + (32 - e.fifo.length) * 2 ^ 16 + b2n e.run.isSome * 2 ^ 32

/-- QSTAT (13:R307). -/
def execQstat (d : Fin 64) (q : Bool) (s : State) : Out :=
  writeV 4 d (BitVec.ofNat 64 (qstatWord (s.engq s.cur.st (ownQueue s q)) s.thr.results[qIdx q].length)) s

/-! ### Bytes moved by an engine -/

/-- A byte with whether it came from a poisoned word. -/
abbrev EByte := Byte × Bool

/-- Reads up to `n` bytes at a virtual address, an aligned 8-byte word at a time (14:R323): the bytes read before the address failed, and
whether all were. `fuel` bounds the words. -/
def engineRead (s : State) (st : Nat) (own : QOwner) (va n : Nat) : Nat → State × List EByte × Bool
  | 0 => (s, [], decide (n = 0))
  | fuel + 1 =>
    if n = 0 then (s, [], true)
    else
      let k := min n (8 - va % 8)
      match unitRead s st own.root own.level va k with
      | (s, none) => (s, [], false)
      | (s, some (v, bad)) =>
        let z := engineRead s st own ((va + k) % 2 ^ 64) (n - k) fuel
        (z.1, (natToBytes k v).map (fun b => (b, bad)) ++ z.2.1, z.2.2)

/-- Marks the word at a virtual address poisoned. -/
def enginePoison (s : State) (st : Nat) (own : QOwner) (va : Nat) : State :=
  match unitAddr s st own.root own.level va 1 ⟨false, true, false⟩ with
  | (s, none) => s
  | (s, some z) => poisonWord s z.2

/-- Writes bytes at a virtual address, an aligned 8-byte word at a time; a poisoned byte poisons its word (21:R448). The answer is how many were
written: all, unless an address failed. -/
def engineWrite (s : State) (st : Nat) (own : QOwner) (va : Nat) (l : List EByte) : Nat → State × Nat
  | 0 => (s, 0)
  | fuel + 1 =>
    if l.isEmpty then (s, 0)
    else
      let k := min l.length (8 - va % 8)
      let here := l.take k
      match unitWrite s st own.root own.level va k (bytesToNat (here.map (fun b => b.1))) with
      | (s, false) => (s, 0)
      | (s, true) =>
        let s := if here.any (fun b => b.2) then enginePoison s st own va else s
        let z := engineWrite s st own ((va + k) % 2 ^ 64) (l.drop k) fuel
        (z.1, k + z.2)

/-- What a piece of a command's work gives: the state, its progress in bytes, the bytes kept for the next piece, whether it is complete, whether
every address was good. -/
structure Piece where
  st : State
  pos : Nat
  carry : List EByte
  fin : Bool
  ok : Bool

/-- Where a piece that starts at byte `pos` of a range ends: at the range's end, or about 4,096 bytes on at the end of a word of the side at
`base`. -/
def pieceEnd (base pos len : Nat) : Nat := if len ≤ pos + 4096 then len else pos + 4096 - (base + pos + 4096) % 8

/-- Where the word of the side at `base` that holds byte `pos - 1` of a range ends, at most at the range's end. -/
def wordEnd (base pos len : Nat) : Nat := min len (pos + (8 - (base + pos) % 8) % 8)

/-- A piece of a copy from byte `pos` on: it ends with a whole destination word, and reads whole source words, of which it keeps what lies past its
end (14:R323, R324). -/
def copyPiece (s : State) (st : Nat) (own : QOwner) (src dst len pos : Nat) (carry : List EByte) : Piece :=
  let fin := pieceEnd dst pos len
  let from_ := pos + carry.length
  let n := wordEnd src fin len - from_
  let r := engineRead s st own ((src + from_) % 2 ^ 64) n (n + 1)
  let all := carry ++ r.2.1
  let w := engineWrite r.1 st own ((dst + pos) % 2 ^ 64) (all.take (fin - pos)) (fin - pos + 1)
  ⟨w.1, pos + w.2, all.drop (fin - pos), decide (len ≤ pos + w.2), decide (pos + w.2 = fin)⟩

/-- The running command of a queue replaced. -/
def setRun (s : State) (st : Nat) (q : Fin 64) (r : Running) : State := s.setEngq st q { s.engq st q with run := some r }

/-- Works on the running command of a queue when it is of kind `op` and has no status yet. A queue at rest takes its next command first. -/
def onCommand (op : BitVec 8) (f : State → Nat → Fin 64 → Running → State) (st : Fin 32) (q : Fin 64) (s : State) : State :=
  let s := startNext (deliverHeld s st.val q) st.val q
  match (s.engq st.val q).run with
  | some r => if r.op = op ∧ r.status = none then f s st.val q r else s
  | none => s

/-- The length of a remote command (23:R484). -/
def remoteLen (r : Running) : Nat := if r.op = 3 then (wordAt r.ops 2).toNat else fieldOf (wordAt r.ops 2) 40 0

/-- DONE of a command that ends with a status (12:R280): a part-step counts under OK only. -/
def doneUnder (r : Running) (status : BitVec 8) : Nat :=
  if status ≠ csOk ∧ 2 ≤ r.op.toNat ∧ r.op.toNat ≤ 4 then min r.done (remoteLen r / 4096) else r.done

/-- Ends the running command with a status; it completes at its completion step. -/
def stopRun (s : State) (st : Nat) (q : Fin 64) (r : Running) (status : BitVec 8) : State :=
  setRun s st q { r with status := some status, done := doneUnder r status }

/-! ### COPY and WAITCW -/

/-- The number of 4,096-byte steps of a length (12:R280). -/
def units (n : Nat) : Nat := (n + 4095) / 4096

/-- One piece of a COPY: up to 4,096 bytes from where it stands (12:R279, R280). -/
def copyStep (s : State) (st : Nat) (q : Fin 64) (r : Running) : State :=
  let len := (wordAt r.ops 2).toNat
  let z := copyPiece s st r.own (wordAt r.ops 0).toNat (wordAt r.ops 1).toNat len r.pos r.carry
  let r' := { r with pos := z.pos, carry := z.carry, done := z.pos / 4096 }
  if !z.ok then stopRun z.st st q r' csBadAddr
  else if z.fin then stopRun z.st st q { r' with done := units len } csOk
  else setRun z.st st q r'

/-- COPY (12:R279). -/
def execCopy (st : Fin 32) (q : Fin 64) (s : State) : Out := .next (onCommand 1 copyStep st q s)

/-- One read of WAITCW's word (12:R279). -/
def waitcwStep (s : State) (st : Nat) (q : Fin 64) (r : Running) : State :=
  match unitRead s st r.own.root r.own.level (wordAt r.ops 0).toNat 8 with
  | (s, none) => stopRun s st q r csBadAddr
  | (s, some v) => if v.1 = 0 then setRun s st q { r with pos := 1 } else stopRun s st q r csOk

/-- WAITCW (12:R279). -/
def execWaitcw (st : Fin 32) (q : Fin 64) (s : State) : Out := .next (onCommand 6 waitcwStep st q s)

/-- WAITCW_REREAD (12:R279): a later read of a word that has read zero. -/
def execWaitcwReread (st : Fin 32) (q : Fin 64) (s : State) : Out :=
  .next (onCommand 6 (fun s st q r => if r.pos = 0 then s else waitcwStep s st q r) st q s)

/-- WAITCW_TIMEOUT (12:R279): the limit passes, where there is one. -/
def execWaitcwTimeout (st : Fin 32) (q : Fin 64) (s : State) : Out :=
  .next (onCommand 6 (fun s st q r => if r.pos = 0 ∨ wordAt r.ops 1 = 0 then s else stopRun s st q r csTimeout) st q s)

/-- ENGINE_COMMAND_COMPLETION (12:R277, R280-R282): a command with a status completes, and a held-back result is delivered where there is room. -/
def completeStep (st : Nat) (q : Fin 64) (s : State) : State :=
  let s := startNext (deliverHeld s st q) st q
  match (s.engq st q).run with
  | some r =>
    match r.status with
    | some c => completeCmd s st q r c r.done false
    | none => s
  | none => s

/-- ENGINE_COMMAND_COMPLETION (12:R280). -/
def execEngineCommandCompletion (st : Fin 32) (q : Fin 64) (s : State) : Out := .next (completeStep st.val q s)

/-! ### Engine programs -/

/-- This part's engine revision (22:R477). -/
def engineRev : BitVec 32 := 0x00010002

/-- A register of a program slot (12:R285). -/
def gelReg (s : State) (st slot off : Nat) : Word := mapGetD ((mapGet (s.stack st).gel slot).getD []) off 0

/-- The parameters of a running program (12:R286). -/
def gelParam (s : State) (st : Nat) (r : Running) (k : Nat) : Word :=
  if k + 1 < r.ops.length then wordAt r.ops (k + 1) else gelReg s st (fieldOf (wordAt r.ops 0) 5 0) (8 + 8 * k)

/-- The value of an operand word: none for a parameter index of 6 or 7 (12:R285). -/
def gelValue (s : State) (st : Nat) (r : Running) (w : Word) : Option Word :=
  if !bitOf w 63 then some w
  else if 6 ≤ fieldOf w 62 60 then none
  else some (gelParam s st r (fieldOf w 62 60) + BitVec.ofInt 64 (toSigned 60 (fieldOf w 59 0)))

/-- How many operand words a step uses (12:R286); 0 for a code not in the table. -/
def gelArity (code : Nat) : Nat :=
  match code with
  | 1 => 3
  | 2 => 6
  | 3 => 3
  | 4 => 2
  | 5 => 2
  | 6 => 2
  | _ => 0

/-- A step of a program: code and operand values; none where it gives BADCMD whatever its values (12:R285, R286). -/
def gelStep (s : State) (st : Nat) (r : Running) : Option (Nat × List Nat) :=
  let slot := fieldOf (wordAt r.ops 0) 5 0
  let base := 0x40 + 64 * r.done
  let op := gelReg s st slot base
  let code := fieldOf op 63 56
  let n := gelArity code
  let raw := (List.range 7).map (fun m => gelReg s st slot (base + 8 + 8 * m))
  let vals := (raw.take n).map (gelValue s st r)
  if n = 0 ∨ fieldOf op 55 0 ≠ 0 ∨ (raw.drop n).any (fun w => w != 0) ∨ vals.any (fun v => v.isNone) then none
  else some (code, vals.map (fun v => (v.getD 0).toNat))

/-- The ranges that a step's values must lie in (12:R286). -/
def gelRange (code : Nat) (v : List Nat) : Bool :=
  let w (n : Nat) : Nat := (v[n]?).getD 0
  match code with
  | 1 => decide (1 ≤ w 2 ∧ w 2 ≤ 2 ^ 40)
  | 2 => decide (1 ≤ w 4 ∧ w 4 ≤ 2 ^ 20 ∧ 1 ≤ w 5 ∧ w 5 ≤ 2 ^ 20)
  | 3 => decide (w 0 % 8 = 0 ∧ w 2 % 8 = 0 ∧ 8 ≤ w 2 ∧ w 2 ≤ 2 ^ 40)
  | _ => decide (w 0 % 8 = 0)

/-- A piece of a step: up to 4,096 bytes of a copy or fill, one row's part of a COPY2D, one read of a WAITNZ, or the whole of a STREL or
ADDREL (12:R286). -/
def gelWork (s : State) (st : Nat) (own : QOwner) (code : Nat) (v : List Nat) (pos : Nat) (carry : List EByte) : Piece :=
  let w (n : Nat) : Nat := (v[n]?).getD 0
  match code with
  | 1 => copyPiece s st own (w 1) (w 0) (w 2) pos carry
  | 2 =>
    let row := pos / w 4
    let z := copyPiece s st own (w 2 + row * w 3) (w 0 + row * w 1) (w 4) (pos % w 4) carry
    { z with pos := row * w 4 + z.pos, fin := decide (w 4 * w 5 ≤ row * w 4 + z.pos) }
  | 3 =>
    let n := min (w 2 - pos) 4096
    let l := ((List.range (n / 8)).flatMap (fun _ => natToBytes 8 (w 1))).map (fun b => (b, false))
    let z := engineWrite s st own ((w 0 + pos) % 2 ^ 64) l (n + 1)
    ⟨z.1, pos + z.2, [], decide (w 2 ≤ pos + z.2), decide (z.2 = n)⟩
  | 4 =>
    match unitRead s st own.root own.level (w 0) 8 with
    | (s, none) => ⟨s, pos, [], false, false⟩
    | (s, some x) => ⟨s, 1, [], decide (x.1 ≠ 0), true⟩
  | 5 =>
    let z := unitWrite s st own.root own.level (w 0) 8 (w 1)
    ⟨z.1, pos, [], true, z.2⟩
  | _ =>
    match unitAddr s st own.root own.level (w 0) 8 ⟨true, true, true⟩ with
    | (s, none) => ⟨s, pos, [], false, false⟩
    | (s, some (x, pa)) => ⟨(applyAt s pa 8 16 0 (w 1) 0 x.cacheable (x.mark pa)).st, pos, [], true, true⟩

/-- One piece of an engine program (12:R284, R286). -/
def rungelStep (s : State) (st : Nat) (q : Fin 64) (r : Running) : State :=
  let slot := fieldOf (wordAt r.ops 0) 5 0
  let count := fieldOf (gelReg s st slot 0) 7 0
  if count = 0 then stopRun s st q r csBadCmd
  else if mapGetD (s.stack st).gelRev slot engineRev ≠ engineRev then stopRun s st q r csBadRev
  else if count ≤ r.done then stopRun s st q r csOk
  else
    match gelStep s st r with
    | none => stopRun s st q r csBadCmd
    | some (code, v) =>
      if !gelRange code v then stopRun s st q r csBadCmd
      else
        let z := gelWork s st r.own code v r.pos r.carry
        if !z.ok then stopRun z.st st q r csBadAddr
        else if !z.fin then setRun z.st st q { r with pos := z.pos, carry := z.carry }
        else
          let r' := { r with done := r.done + 1, pos := 0, carry := [] }
          if r'.done = count then stopRun z.st st q r' csOk else setRun z.st st q r'

/-- RUNGEL (12:R286). -/
def execRungel (st : Fin 32) (q : Fin 64) (s : State) : Out := .next (onCommand 5 rungelStep st q s)

/-- WAITNZ_TIMEOUT (12:R286): the limit of a WAITNZ step that has read zero passes. -/
def execWaitnzTimeout (st : Fin 32) (q : Fin 64) (s : State) : Out :=
  .next (onCommand 5 (fun s st q r =>
    match gelStep s st r with
    | some (4, v) => if r.pos = 0 ∨ (v[1]?).getD 0 = 0 then s else stopRun s st q r csTimeout
    | _ => s) st q s)

/-! ### Remote commands at their source -/

/-- The number that a running command's packets carry: no other command of this module has it (23:R488). -/
def cmdKey (st : Nat) (q : Fin 64) (r : Running) : Nat := (r.id * 32 + st) * 64 + q.val

/-- PRECOPY with HARVEST: its units are the harvested ones (23:R486). -/
def isHarvest (r : Running) : Bool := r.op = 3 && bitOf (wordAt r.ops 4) 4

/-- The bytes from the start of a unit of 4,096 bytes up to the first remote word that starts in it (14:R323, R324). -/
def unitPad (r : Running) : Nat := (8 - fieldOf (wordAt r.ops 1) 33 0 % 8) % 8

/-- Unit `u` is one of the command's. -/
def hasUnit (r : Running) (u : Nat) : Bool := if isHarvest r then r.pages.contains u else decide (u < units (remoteLen r))

/-- Where the packet of unit `u` starts in the range: a remote word that lies in two units goes with the earlier, so that each end reads or writes it
once (14:R323, R324, 23:R485). -/
def unitFrom (r : Running) (u : Nat) : Nat :=
  min (remoteLen r) (4096 * u + if u ≠ 0 ∧ hasUnit r (u - 1) then unitPad r else 0)

/-- Where the packet of unit `u` ends. -/
def unitTo (r : Running) (u : Nat) : Nat := if hasUnit r (u + 1) then unitFrom r (u + 1) else min (remoteLen r) (4096 * (u + 1))

/-- How many packets with bytes of its range the running remote command sends or asks for. -/
def remoteUnits (r : Running) : Nat :=
  if isHarvest r then r.pages.length else if remoteLen r = 0 then 0 else max 1 (units (remoteLen r - unitPad r))

/-- The unit that packet `i` of the running remote command is about. -/
def unitAt (r : Running) (i : Nat) : Nat := if isHarvest r then (r.pages[i]?).getD 0 else i

/-- The packets up to the first that has not been acknowledged. -/
def ackedPrefix (l : List Nat) : Nat := l.foldl (fun n i => if i = n then n + 1 else n) 0

/-- A packet of the running command: number `i`, about bytes [off, off + n) of its range (23:R484). -/
def packetOf (s : State) (st : Nat) (q : Fin 64) (r : Running) (kind : PacketKind) (i off n : Nat) (l : List EByte) : Packet :=
  let a := wordAt r.ops 1
  { kind := kind, node := fieldOf a 59 40, src := fieldOf s.nodecfg 19 0, cmd := cmdKey st q r, unit := i,
    exp := ⟨fieldOf a 39 34 % 64, Nat.mod_lt _ (by decide)⟩, off := fieldOf a 33 0 + off, len := n,
    data := if kind = .precopy then (match keyOf s (fieldOf (wordAt r.ops 4) 3 0) with
              | some k => Config.encryptUnit k (l.map (fun b => b.1))
              | none => [])
            else l.map (fun b => b.1),
    tag := idx16 (fieldOf (wordAt r.ops 2) 59 56), slot := idx16 (fieldOf (wordAt r.ops 4) 3 0),
    poison := ((enumFrom 0 l).filter (fun p => p.2.2)).map (fun p => p.1), refused := false, ok := true }

/-- Some port reaches a node (23:R481): a peer-link port, 0-47, for a node of this domain; an Ultra Ethernet port, 48-63, for any other. -/
def reaches (s : State) (node : Nat) : Bool :=
  let alive (l : List Nat) : Bool := l.any (fun p => !s.ports.contains p)
  if node / 2 ^ 8 = fieldOf s.nodecfg 19 8 then alive (List.range 48) else alive ((List.range 16).map (fun i => 48 + i))

/-- Sends a packet, where a port reaches its node; the timeout follows where none does (23:R481, R488). -/
def sendPacket (s : State) (p : Packet) : State := if reaches s p.node then { s with outbox := s.outbox ++ [p] } else s

/-- Reads the bytes of packet `r.sent` from the local range and sends it (23:R485-R487); the last source word is read whole, and what lies past the
packet is kept for the next (14:R323). -/
def sendUnit (s : State) (st : Nat) (q : Fin 64) (r : Running) (kind : PacketKind) : State :=
  let u := unitAt r r.sent
  let off := unitFrom r u
  let n := unitTo r u - off
  let src := (wordAt r.ops 0).toNat
  let from_ := off + r.carry.length
  let m := wordEnd src (off + n) (remoteLen r) - from_
  let z := engineRead s st r.own ((src + from_) % 2 ^ 64) m (m + 1)
  let all := r.carry ++ z.2.1
  if !z.2.2 then stopRun z.1 st q r csBadAddr
  else
    setRun (sendPacket z.1 (packetOf z.1 st q r kind r.sent off n (all.take n))) st q
      { r with sent := r.sent + 1, carry := if hasUnit r (u + 1) then all.drop n else [] }

/-- COPY.NODE pulls (23:R484). -/
def isPull (r : Running) : Bool := r.op = 2 && bitOf (wordAt r.ops 2) 63

/-- One unit of a COPY.NODE (23:R485): its bytes, or with PULL a request for them. -/
def copyNodeStep (s : State) (st : Nat) (q : Fin 64) (r : Running) : State :=
  if remoteUnits r ≤ r.sent then s
  else if isPull r then
    let off := unitFrom r r.sent
    setRun (sendPacket s (packetOf s st q r .read r.sent off (unitTo r r.sent - off) [])) st q { r with sent := r.sent + 1 }
  else sendUnit s st q r .write

/-- COPY.NODE (23:R485). -/
def execCopyNode (st : Fin 32) (q : Fin 64) (s : State) : Out := .next (onCommand 2 copyNodeStep st q s)

/-- Steps 1 and 2 of 19:R430 for one page: reads and clears DIRTY of its leaf entry, removes its translations. The answer is the set of units;
none where the page does not translate. -/
def harvestPage (s : State) (st : Nat) (own : QOwner) (page : Nat) : State × Option (List Nat) :=
  match unitAddr s st own.root own.level (page * 2 ^ 16) 1 ⟨true, false, false⟩ with
  | (s, none) => (s, none)
  | (s, some (x, _)) =>
    let r := dramRead s x.leafAddr 8 false
    let s := dramWrite r.1 x.leafAddr 8 (r.2.1 % 2 ^ 48) false Mark.none
    let s := invalidate s (fun t => decide (t.root = own.root) && t.maps (BitVec.ofNat 64 (page * 2 ^ 16))) (fun _ => false)
    (s, some (((List.range 16).filter (fun u => decide (r.2.1 / 2 ^ (48 + u) % 2 = 1))).map (fun u => 16 * page + u)))

/-- Harvests pages `first`, `first + 1`, … of a range. -/
def harvestPages (s : State) (st : Nat) (own : QOwner) (first : Nat) : Nat → State × Option (List Nat)
  | 0 => (s, some [])
  | n + 1 =>
    match harvestPage s st own first with
    | (s, none) => (s, none)
    | (s, some l) =>
      match harvestPages s st own (first + 1) n with
      | (s, none) => (s, none)
      | (s, some t) => (s, some (l ++ t))

/-- One unit of a PRECOPY (23:R486): the next unit of the range, or with HARVEST the next harvested one; the harvest comes first. -/
def precopyStep (s : State) (st : Nat) (q : Fin 64) (r : Running) : State :=
  let len := remoteLen r
  let u0 := (wordAt r.ops 0).toNat / 4096
  if isHarvest r ∧ r.pos = 0 then
    let p0 := u0 / 16
    match harvestPages s st r.own p0 (if len = 0 then 0 else (u0 + len / 4096 - 1) / 16 + 1 - p0) with
    | (s, none) => stopRun s st q r csBadAddr
    | (s, some l) =>
      let mine := (l.filter (fun u => decide (u0 ≤ u ∧ u < u0 + len / 4096))).map (fun u => u - u0)
      if mine.isEmpty then stopRun s st q r csOk else setRun s st q { r with pages := mine, pos := 1 }
  else if remoteUnits r = 0 then stopRun s st q r csOk
  else if remoteUnits r ≤ r.sent then s
  else sendUnit s st q r .precopy

/-- PRECOPY (23:R486). -/
def execPrecopy (st : Fin 32) (q : Fin 64) (s : State) : Out := .next (onCommand 3 precopyStep st q s)

/-- One unit of a COLL (23:R487), and its flag, the last packet, once every unit has been acknowledged. -/
def collStep (s : State) (st : Nat) (q : Fin 64) (r : Running) : State :=
  let n := remoteUnits r
  if r.sent < n then sendUnit s st q r .coll
  else if r.sent ≠ n ∨ ackedPrefix r.acked < n then s
  else
    let f := { packetOf s st q r .flag n 0 0 ((natToBytes 8 (wordAt r.ops 5).toNat).map (fun b => (b, false))) with off := (wordAt r.ops 4).toNat }
    setRun (sendPacket s f) st q { r with sent := n + 1 }

/-- COLL (23:R487). -/
def execColl (st : Fin 32) (q : Fin 64) (s : State) : Out := .next (onCommand 4 collStep st q s)

/-- How many packets of the running remote command wait for an acknowledgement in all: a COLL's flag is one more. -/
def remoteTotal (r : Running) : Nat := remoteUnits r + if r.op = 4 then 1 else 0

/-- DONE once the packets in `r.acked` have been acknowledged (12:R280, 23:R486, R488): whole units from the start of the range, or with HARVEST the
units copied. -/
def ackedDone (r : Running) : Nat := if isHarvest r then r.acked.length else min (ackedPrefix r.acked) (units (remoteLen r))

/-- The packet of the running command that an acknowledgement answers: the one that `ackFor` names, else the oldest that waits; none where it answers
no packet that waits, and is discarded (23:R488). -/
def ackedUnit (s : State) (st : Nat) (q : Fin 64) (r : Running) : Option Nat :=
  let i := match s.ackFor with
    | some a => if a.1 = cmdKey st q r then some a.2 else none
    | none => some (ackedPrefix r.acked)
  i.filter (fun i => decide (i < r.sent) && !r.acked.contains i)

/-- The bytes of a pulled packet are taken: those received from the front of the range are written, up to the last whole word of the local range; the
others wait (14:R324, 23:R485). -/
def pullPiece (s : State) (st : Nat) (r : Running) (i : Nat) (data : List Byte) (poison : List Nat) : Piece × List (Nat × List EByte) :=
  let len := remoteLen r
  let dst := (wordAt r.ops 0).toNat
  let n := ackedPrefix (setInsert r.acked i)
  let got := mapSet r.got i ((enumFrom 0 data).map (fun p => (p.2, poison.contains p.1)))
  let all := r.carry ++ (got.filter (fun g => decide (g.1 < n))).flatMap (fun g => g.2)
  let stop := r.pos + all.length
  let fin := if len ≤ stop then stop else max r.pos (stop - (dst + stop) % 8)
  let w := engineWrite s st r.own ((dst + r.pos) % 2 ^ 64) (all.take (fin - r.pos)) (fin - r.pos + 1)
  (⟨w.1, r.pos + w.2, all.drop (fin - r.pos), false, decide (w.2 = fin - r.pos)⟩, got.filter (fun g => decide (n ≤ g.1)))

/-- A packet of the running command is acknowledged, with its bytes where it asked for some (23:R485, R488). Once a status stands, bytes sent and
acknowledged still count, and none are written here. -/
def takeAck (s : State) (st : Nat) (q : Fin 64) (r : Running) (i : Nat) (data : List Byte) (poison : List Nat) : State :=
  let r' := { r with acked := setInsert r.acked i }
  match r.status with
  | some c => if isPull r then s else setRun s st q { r' with done := doneUnder { r' with done := ackedDone r' } c }
  | none =>
    if isPull r then
      if data.length ≠ unitTo r i - unitFrom r i then s
      else
        let z := pullPiece s st r i data poison
        let r' := { r' with pos := z.1.pos, carry := z.1.carry, got := z.2, done := z.1.pos / 4096 }
        if !z.1.ok then stopRun z.1.st st q r' csBadAddr
        else if r'.acked.length = remoteTotal r then stopRun z.1.st st q { r' with done := units (remoteLen r) } csOk
        else setRun z.1.st st q r'
    else if r'.acked.length = remoteTotal r then
      stopRun s st q { r' with done := if isHarvest r then r.pages.length else units (remoteLen r) } csOk
    else setRun s st q { r' with done := ackedDone r' }

/-- An acknowledgement of the running remote command (23:R484, R488, R490): a packet that did not authenticate, a refusal by the target, or a packet
acknowledged. It answers one packet of one command; after a timeout it is discarded. -/
def acknowledge (data : List Byte) (auth refused : Bool) (poison : List Nat) (st : Nat) (q : Fin 64) (s : State) : State :=
  let z := match (s.engq st q).run with
    | none => s
    | some r =>
      if decide (r.op.toNat < 2) || decide (4 < r.op.toNat) || decide (r.status = some csTimeout ∨ r.status = some csOk) then s
      else
        match ackedUnit s st q r with
        | none => s
        | some i =>
          if auth && !refused then takeAck s st q r i data poison
          else if r.status.isSome then s
          else stopRun s st q r (if auth then csBadAddr else csAuth)
  { z with ackFor := none }

/-- REMOTE_ACKNOWLEDGEMENT (23:R488). -/
def execRemoteAcknowledgement (st : Fin 32) (q : Fin 64) (data : List Byte) (auth refused : Bool) (poison : List Nat) (s : State) : Out :=
  .next (acknowledge data auth refused poison st.val q s)

/-- LINK_TIMEOUT (23:R488): the limit passes with no acknowledgement of the running remote command. -/
def execLinkTimeout (st : Fin 32) (q : Fin 64) (s : State) : Out :=
  .next (match (s.engq st.val q).run with
    | some r => if r.status = none ∧ 2 ≤ r.op.toNat ∧ r.op.toNat ≤ 4 then stopRun s st.val q r csTimeout else s
    | none => s)

/-- A port leaves the route table (23:R481): peer-link ports are numbered 0-47, Ultra Ethernet ports 48-63, and 64 is the host link of edge die
0. -/
def failPort (s : State) (port : Nat) : State := if port ≤ 64 then { s with ports := setInsert s.ports port } else s

/-- PORT_FAILURE (23:R481). -/
def execPortFailure (port : Nat) (s : State) : Out := .next (failPort s port)

/-- The external ports of an edge die (01:R17). -/
def diePorts (d : Fin 4) : List Nat :=
  (List.range 12).map (fun i => 12 * d.val + i) ++ (List.range 4).map (fun i => 48 + 4 * d.val + i) ++ (if d = 0 then [64] else [])

/-- An edge die fails: it takes away its own ports only (01:R17, 23:R481). -/
def failDie (d : Fin 4) (s : State) : State := (diePorts d).foldl failPort s

/-! ### Remote commands at their target -/

/-- The address space and level in which an export's engine works (23:R483): the named context's root, at user level (DEDUCED, log 16). -/
def exportOwner (s : State) (e : Export) : State × Nat × QOwner :=
  let st := fieldOf e.w0 12 8
  let c := ctxEntry s st (BitVec.ofNat 8 (fieldOf e.w0 7 0))
  (c.1, st, ⟨⟨st, 0, 0⟩, wordAt c.2 0, .user⟩)

/-- An export admits a packet: valid, in range, with the permission it needs, its stack not excluded (23:R483, R484). -/
def exportOk (s : State) (e : Export) (p : Packet) : Bool :=
  let n := if p.kind = .flag then 8 else p.len
  bitOf e.w0 63 && decide (p.off + n ≤ e.size.toNat) && !(s.stack (fieldOf e.w0 12 8)).excluded &&
  match p.kind with
  | .read => bitOf e.w0 61
  | .coll => bitOf e.w0 61 && bitOf e.w0 62
  | _ => bitOf e.w0 62

/-- Combines the elements of a COLL packet into the target (23:R487, R490). -/
def collApply (s : State) (st : Nat) (own : QOwner) (va : Nat) (tag : BitVec 4) (n : Nat) : List EByte → Nat → State × Bool
  | _, 0 => (s, true)
  | l, fuel + 1 =>
    if l.isEmpty then (s, true)
    else
      match unitRead s st own.root own.level va n with
      | (s, none) => (s, false)
      | (s, some (old, bad)) =>
        let here := l.take n
        let v := (combAdd tag ⟨rmRNE, false, false⟩ 0 old (bytesToNat (here.map (fun b => b.1)))).code
        match unitWrite s st own.root own.level va n v with
        | (s, false) => (s, false)
        | (s, true) =>
          let s := if bad || here.any (fun b => b.2) then enginePoison s st own va else s
          collApply s st own ((va + n) % 2 ^ 64) tag n (l.drop n) fuel

/-- Counts elements applied for a command against its flag, where that waits at the export (23:R487). -/
def countFlags (s : State) (p : Packet) (n : Nat) : State :=
  { s with flagsOut := s.flagsOut.map (fun f => if f.src = p.src ∧ f.cmd = p.cmd ∧ f.exp = p.exp then { f with len := f.len - n } else f) }

/-- The answer to a packet goes back where it came from, with its command and number (23:R484, R488). -/
def answer (s : State) (p : Packet) (ok auth : Bool) (l : List EByte) : State :=
  sendPacket s { p with node := p.src, src := fieldOf s.nodecfg 19 0, data := l.map (fun b => b.1),
                        poison := ((enumFrom 0 l).filter (fun b => b.2.2)).map (fun b => b.1), refused := !ok, ok := auth }

/-- What a packet that has been admitted does: bytes written, read or combined, and the answer; a flag waits until every element before it is
applied, and has its answer then. -/
def applyPacket (s : State) (st : Nat) (own : QOwner) (base : Nat) (p : Packet) : State :=
  let va := (base + p.off) % 2 ^ 64
  let mark (l : List Byte) : List EByte := (enumFrom 0 l).map (fun b => (b.2, p.poison.contains b.1))
  let put (s : State) (l : List Byte) : State :=
    let w := engineWrite s st own va (mark l) (l.length + 1)
    answer w.1 p (decide (w.2 = l.length)) true []
  match p.kind with
  | .write => put s (p.data.take p.len)
  | .read =>
    let r := engineRead s st own va p.len (p.len + 1)
    answer r.1 p r.2.2 true r.2.1
  | .precopy =>
    match (keyOf s p.slot.val).bind (fun k => Config.decryptUnit k p.data) with
    | none => answer s p true false []
    | some l => put s (l.take p.len)
  | .coll =>
    let n := tagWidth (BitVec.ofNat 4 p.tag.val) / 8
    let w := collApply s st own va (BitVec.ofNat 4 p.tag.val) n (mark (p.data.take p.len)) (p.len + 1)
    answer (countFlags w.1 p (if n = 0 then 0 else p.len / n)) p w.2 true []
  | .flag => { s with flagsOut := s.flagsOut ++ [p] }

/-- A remote command's packet arrives (23:R481, R483, R484): one that does not authenticate is discarded; one that is not admitted is refused. -/
def packetArrives (p : Packet) (s : State) : State :=
  if !p.ok || (p.kind = .coll && !collTag p.tag.val) then s
  else
    let e := s.exports[p.exp]
    if !exportOk s e p then answer s p false true []
    else
      let o := exportOwner s e
      applyPacket o.1 o.2.1 o.2.2 e.base.toNat p

/-- REMOTE_PACKET_ARRIVAL (23:R484). -/
def execRemotePacketArrival (p : Packet) (s : State) : Out := .next (packetArrives p s)

/-- A COLL's flag is written once every element has been applied, and answered then; where its export fails it, the answer is a refusal
(23:R484, R487). -/
def releaseFlag (n : Nat) (s : State) : State :=
  match s.flagsOut[n]? with
  | none => s
  | some p =>
    if p.len ≠ 0 then s
    else
      let e := s.exports[p.exp]
      let z :=
        if exportOk s e p then
          let o := exportOwner s e
          unitWrite o.1 o.2.1 o.2.2.root o.2.2.level ((e.base.toNat + p.off) % 2 ^ 64) 8 (bytesToNat (p.data.take 8))
        else (s, false)
      answer { z.1 with flagsOut := listDrop z.1.flagsOut n } p z.2 true []

/-- COLL_FLAG_RELEASE (23:R487). -/
def execCollFlagRelease (n : Nat) (s : State) : Out := .next (releaseFlag n s)

end Sys2Proof.Machine
end

