-- ==== Sys2Proof/Machine/Boot.lean ====
section
/-!
DEFINITION. Power-on and bring-up, the lantern's actions, alarms, power and cooling (01:R22, 24:R492-R503).
-/

namespace Sys2Proof.Machine

/-! ### Power -/

/-- The state a main-rail power-down leaves: the main side as at reset; the standby side (fuses, fuse counter, key store, alarm record), the
host's memory, what has left the module and the error logs that the lantern reads stay, and a failed port has failed (21:R465, 24:R495, R497, R498). -/
def mainDown (s : State) : State :=
  { State.reset with hostMem := s.hostMem, keys := s.keys, fuseCount := s.fuseCount, alarms := s.alarms, fuses := s.fuses, outbox := s.outbox,
                     notices := s.notices, lanternNotices := s.lanternNotices, replies := s.replies, inputs := s.inputs, tick := s.tick, ports := s.ports
                     stks := s.stks.map (fun e => (e.1, { Stack.reset with log := e.2.log, logCount := e.2.logCount, logLost := e.2.logLost })) }

/-- Bring-up starts with phase 0 (24:R492). -/
def bringUp (s : State) : State :=
  { mainDown s with boot := { Boot.reset with on := true } }

/-- POWER_ON (24:R492); a module that is on stays as it is. -/
def execPowerOn (s : State) : Out := .next (if s.boot.on then s else bringUp s)

/-- MAINCYCLE (24:R495). -/
def execMaincycle (s : State) : Out := .next (bringUp s)

/-- Half-slab `i` of a row's mask: healthy and bound to no front end yet. -/
def halfFree (s : State) (st r i : Nat) : Bool :=
  !s.fuses.defective.contains (st * 32 + halfSlab (5 * r) i) &&
  (s.stack st).fronds.all (fun f => !f.halfList.contains (halfSlab (5 * r) i))

/-- The fuses pair two half-slabs of a row. -/
def fusedPair (s : State) (st r i j : Nat) : Bool :=
  let g (i : Nat) : Nat := st * 32 + halfSlab (5 * r) i
  s.fuses.pairs.any (fun q => decide ((q.1 = g i ∧ q.2 = g j) ∨ (q.1 = g j ∧ q.2 = g i)))

/-- A front end of home column `c` reaches half-slab `i` of its row (01:R20). -/
def reachesHalf (c i : Nat) : Bool := decide (i / 2 ≤ c + 1 ∧ c ≤ i / 2 + 1)

/-- The manufacture pairs of a row that can still be bound: two healthy half-slabs of different slabs (01:R22). -/
def openPairs (s : State) (st r : Nat) : List (Nat × Nat) :=
  ((List.range 8).flatMap (fun i => (List.range 8).map (fun j => (i, j)))).filter (fun p =>
    decide (p.1 / 2 < p.2 / 2) && halfFree s st r p.1 && halfFree s st r p.2 && fusedPair s st r p.1 p.2)

/-- Two half-slabs as a mask. -/
def twoHalves (i j : Nat) : BitVec 8 := BitVec.ofNat 8 (2 ^ i + 2 ^ j)

/-- The halves that power-on binds to front end 5r + c (01:R22, 24:R492): column c when both its half-slabs are healthy and in no pair, else a
manufacture pair with a half-slab of the column, within reach. -/
def homeHalves (s : State) (st r c : Nat) : Option (BitVec 8) :=
  let whole (i : Nat) : Bool := halfFree s st r i && (List.range 8).all (fun j => !fusedPair s st r i j)
  if whole (2 * c) && whole (2 * c + 1) then some (twoHalves (2 * c) (2 * c + 1))
  else
    ((openPairs s st r).find? (fun p => decide (p.1 / 2 = c ∨ p.2 / 2 = c) && reachesHalf c p.1 && reachesHalf c p.2)).map
      (fun p => twoHalves p.1 p.2)

/-- Adds halves to what a front end has bound at power-on. -/
def addHome (s : State) (st fe : Nat) (halves : BitVec 8) : State :=
  let k := s.stack st
  let old := match k.frond fe with | some f => f.halves | none => 0
  let all := old ||| halves
  let f : Frond := { fe := fe, halves := all, pairs := pairsIn s st fe all, spareFe := false, mode := 0, ways := 0, degr := 0,
                     spareBk := false, nbanks := 0, splitC := false }
  s.setStack st { k with fronds := k.fronds.filter (fun x => x.fe != fe) ++ [f] }

/-- Binds one front end at power-on; the spare ones stay unbound. -/
def bindHome (s : State) (st fe : Nat) : State :=
  if fe % 5 = 4 then s
  else
    match homeHalves s st (fe / 5) (fe % 5) with
    | some halves => addHome s st fe halves
    | none => s

/-- A pair that no front end of its columns reaches whole goes to one that reaches both halves, which has bound nothing if there is such a one, else
beside what it has bound (01:R22; DEDUCED, log 112). -/
def bindPair (s : State) (st r : Nat) (p : Nat × Nat) : State :=
  let near := (List.range 4).filter (fun c => reachesHalf c p.1 && reachesHalf c p.2)
  match near.filter (fun c => ((s.stack st).frond (5 * r + c)).isNone) ++ near with
  | c :: _ => addHome s st (5 * r + c) (twoHalves p.1 p.2)
  | [] => s

/-- Binds the pairs of a row that are left. -/
def bindPairs (s : State) (st r : Nat) : State :=
  (openPairs s st r).foldl (fun acc p => if (openPairs acc st r).contains p then bindPair acc st r p else acc) s

/-- The power-on binding of a stack (01:R22, 24:R492). -/
def bindStack (s : State) (st : Nat) : State :=
  let s := (List.range 20).foldl (fun acc fe => bindHome acc st fe) s
  let s := (List.range 4).foldl (fun acc r => bindPairs acc st r) s
  (List.range 20).foldl (fun acc fe => refreshFrond acc st fe) s

/-- Excludes the stacks that failed a phase (24:R492, R493): the code of the first failure stands, and 5 says that no stack is left. -/
def excludeStacks (failed : BitVec 32) (s : State) : State :=
  let new := failed &&& ~~~ s.boot.stkout
  if new = 0 then s
  else
    let out := s.boot.stkout ||| new
    let code : BitVec 16 := if out = BitVec.allOnes 32 then 5 else if s.boot.fail = 0 then s.boot.phase.zeroExtend 16 else s.boot.fail
    let s := { s with boot := { s.boot with stkout := out, fail := code } }
    (List.range 32).foldl (fun acc n =>
      if new.getLsbD n then acc.setStack n { acc.stack n with excluded := true, fronds := [], devq := [], table := [], journal := false } else acc) s

/-- Phase 3: a stack in which no bank remains is excluded (24:R492). -/
def bankless (s : State) : BitVec 32 :=
  BitVec.ofNat 32 (((List.range 32).filter (fun n =>
    (List.range 256).all (fun b => (s.bank (n * 256 + b)).retired || (s.bank (n * 256 + b)).gone))).foldl (fun a n => a + 2 ^ n) 0)

/-- Phase 4: cells, save and spare rows zero, debts and refresh pointers 0, crown slices invalid and zero, WAYPART reset (24:R492). -/
def zeroBank (x : Bank) : Bank :=
  { x with debt := Vector.replicate 16 0, ptr := Vector.replicate 16 0, deadline := 0, presence := [], lines := [], scratch := [], mode := 0,
           ways := 0, scratchPoison := [], slots := Vector.replicate 2 none, pendRepair := [], copying := [], corrected := [], repairDue := [] }

/-- The same in every bank, with the save sectors of every stack zero. -/
def zeroModule (s : State) : State :=
  { s with dram := [], cellPoison := [], latent := [], upsets := [], banks := s.banks.map (fun e => (e.1, zeroBank e.2)),
           stks := s.stks.map (fun e =>
             (e.1, { e.2 with fronds := e.2.fronds.map (fun f => { f with mode := 0, ways := 0 }), sectors := [], sectorBad := [] })) }

/-- A phase of bring-up has finished in every stack (24:R492, R494): `failed` names the stacks that fail it; phase 3 excludes those alone in which no
bank remains. With FAIL = 5 READY is never set. -/
def phaseDone (failed : BitVec 32) (s : State) : State :=
  if !s.boot.on || s.boot.ready then s
  else
    let p := s.boot.phase
    let next (s : State) : State := { s with boot := { s.boot with phase := p + 1 } }
    if p = 0 then next s
    else if p = 1 then
      let s := excludeStacks failed s
      next ((List.range 32).foldl (fun acc n => if (acc.stack n).excluded then acc else bindStack acc n) s)
    else if p = 2 then next (excludeStacks failed s)
    else if p = 3 then next (excludeStacks (bankless s) s)
    else if p = 4 then
      let s := zeroModule (excludeStacks failed s)
      if s.boot.fail = 5 then s else { s with boot := { s.boot with phase := 5, ready := true } }
    else s

/-- BRINGUP_PHASE_COMPLETE (24:R492). -/
def execBringupPhaseComplete (failed : BitVec 32) (s : State) : Out := .next (phaseDone failed s)

/-! ### The lantern's actions -/

/-- KEYSET (24:R495, R497). -/
def execKeyset (slot : Fin 16) (key : BitVec 256) (s : State) : Out := .next { s with keys := s.keys.set slot (some key) }

/-- A column is reset to TRIPLE (18:R412); its queues and saved tasks are those of the journal and the save sectors. What waited for it is done: the
launch unit ends the launches whose tasks have ended, the scheduler performs the request in BINDREQ (18:R398, R411). -/
def resetColumn (st : Nat) (c : Fin 6) (s : State) : State :=
  let k := s.stack st
  let s := s.setStack st { k with cols := k.cols.set c { k.cols[c] with state := .triple } }
  let k := s.stack st
  let s := if colStopped k 0 || colStopped k 1 then s else s.setStack st { k with frozen := none }
  if c = 0 then (k.table.map (fun l => l.id)).foldl (fun acc id => closeLaunch (failWord acc st id) st id) s
  else if c = 1 then performBind s st
  else s

/-- COLRESET (18:R412, 24:R495). -/
def execColreset (st : Fin 32) (col : Fin 6) (s : State) : Out := .next (resetColumn st.val col s)

/-- A bank block is reset (24:R495): what its latches, tiles and registers hold is lost, and with it every write that is not durable (04:R104,
R105); the cells are kept. What is lost reads as free values from the counter `tick`. -/
def resetBlock (b : Nat) (s : State) : State :=
  let n := s.tick
  let x := s.bank b
  let lost : Bank :=
    { x with
      w := vecGen 16 (fun i => { WReg.reset with tag := Config.lostBits 4 (n + i), latch := Config.lostBits 16384 (n + i),
                                                 poison := Config.lostBits 256 (n + i) })
      m := vecGen 16 (fun i => Config.lostBits 2048 (n + i))
      x := vecGen 32 (fun i => ⟨Config.lostBits 64 (n + i), Config.lostBits 4 (n + 32 + i)⟩)
      t := vecGen 4 (fun i => Config.lostBits 131072 (n + i))
      q := vecGen 4 (fun i => Config.lostBits 2048 (n + 64 + i))
      lfsr := Config.lostBits 32 n
      flags := Config.lostBits 5 n
      pend := [] }
  { s with tick := n + 96, upsets := s.upsets.filter (fun e => match e.1 with | .latch b' _ _ => decide (b' ≠ b) | _ => true) }.setBank b lost

/-- BLKRESET (24:R495). -/
def execBlkreset (st : Fin 32) (bk : Fin 256) (s : State) : Out := .next (resetBlock (st.val * 256 + bk.val) s)

/-! ### Alarms, power and cooling -/

/-- A running PRECOPY completes with AUTHFAIL: it sends no further byte (24:R499). -/
def stopPrecopy (s : State) (st : Nat) : State :=
  (List.range 64).foldl (fun acc q =>
    if h : q < 64 then
      match (acc.engq st ⟨q, h⟩).run with
      | some r => if r.op = 3 ∧ r.status = none then stopRun acc st ⟨q, h⟩ r csAuth else acc
      | none => acc
    else acc) s

/-- An alarm erases every key and latches (24:R498, R499); `n` is its bit in the alarm record. -/
def alarm (n : Nat) (s : State) : State :=
  let s := { s with keys := Vector.replicate 16 none, alarms := s.alarms ||| BitVec.ofNat 3 (2 ^ n) }
  (s.stks.map (fun e => e.1)).foldl stopPrecopy s

/-- TAMPER_ALARM (24:R498). -/
def execTamperAlarm (s : State) : Out := .next (alarm 0 s)

/-- GLITCH_ALARM (24:R498). -/
def execGlitchAlarm (s : State) : Out := .next (alarm 1 s)

/-- OVER_TEMPERATURE_ALARM (24:R498): the main rails power down, the DRAM's contents are lost. -/
def execOverTemperatureAlarm (s : State) : Out := .next (mainDown (alarm 2 s))

/-- A measurement of a stack's power (24:R501): DUTY rises by one while a limit is passed, up to 15, else falls by one, down to 0. -/
def measure (st watts : Nat) (hot : Bool) (s : State) : State :=
  let k := s.stack st
  let d := k.duty
  let d' : BitVec 4 := if k.limit.toNat < watts ∨ hot then (if d = 15 then d else d + 1) else (if d = 0 then d else d - 1)
  s.setStack st { k with duty := d', hot := hot }

/-- POWER_MEASUREMENT (24:R501). -/
def execPowerMeasurement (st : Fin 32) (watts : Nat) (hot : Bool) (s : State) : Out := .next (measure st.val watts hot s)

/-- COOLANT_FAULT: LIMIT is 100 in every stack (24:R503). -/
def execCoolantFault (s : State) : Out :=
  .next ((List.range 32).foldl (fun acc n => acc.setStack n { acc.stack n with limit := 100 }) s)

end Sys2Proof.Machine
end

