-- ==== Sys2Proof/Machine/Branch.lean ====
section
/-!
DEFINITION. Branches, jumps and hardware loops (15:R342-R347, 02:R34).
-/

namespace Sys2Proof.Machine

/-- A target must be a multiple of 4 (02:R34). -/
def toTarget (t : Word) (go : State → Out) (s : State) : Out := if t.toNat % 4 ≠ 0 then trap cMisfetch t s else go s

/-- A conditional branch by 4 × off10 (15:R342). -/
def branchIf (c : Bool) (o : BitVec 10) (s : State) : Out :=
  let t := s.front.pc + (o.signExtend 64 <<< 2)
  if c then toTarget t (jump t) s else done 4 s

/-- BEQ (15:R342). -/
def execBeq (a b : Fin 64) (o : BitVec 10) (s : State) : Out := branchIf (decide (s.sval a = s.sval b)) o s

/-- BNE (15:R342). -/
def execBne (a b : Fin 64) (o : BitVec 10) (s : State) : Out := branchIf (decide (s.sval a ≠ s.sval b)) o s

/-- BLT (15:R342), signed. -/
def execBlt (a b : Fin 64) (o : BitVec 10) (s : State) : Out := branchIf (decide ((s.sval a).toInt < (s.sval b).toInt)) o s

/-- BGE (15:R342), signed. -/
def execBge (a b : Fin 64) (o : BitVec 10) (s : State) : Out := branchIf (decide ((s.sval b).toInt ≤ (s.sval a).toInt)) o s

/-- BLTU (15:R342), unsigned. -/
def execBltu (a b : Fin 64) (o : BitVec 10) (s : State) : Out := branchIf (decide ((s.sval a).toNat < (s.sval b).toNat)) o s

/-- BGEU (15:R342), unsigned. -/
def execBgeu (a b : Fin 64) (o : BitVec 10) (s : State) : Out := branchIf (decide ((s.sval b).toNat ≤ (s.sval a).toNat)) o s

/-- A jump that writes the link: plain with rd = s0, else linking (15:R343). -/
def linkTo (d : Fin 64) (t : Word) (s : State) : Out :=
  toTarget t (fun s =>
    let s1 := s.setV d (s.front.pc + 4)
    if d = 0 then jump t s1 else jumpLink t s1) s

/-- JMP (15:R343). -/
def execJmp (d : Fin 64) (o : BitVec 19) (s : State) : Out := linkTo d (s.front.pc + (o.signExtend 64 <<< 2)) s

/-- JREG (15:R343): the target's residue is checked (15:R355). -/
def execJreg (d a : Fin 64) (i : BitVec 10) (s : State) : Out :=
  let r := s.getS a
  if !addrResOk r (i.signExtend 64) then trapResidue a rkAddr s else linkTo d (r.val + i.signExtend 64) s

/-- LOOP (15:R345): a count of 0 falls through at the end address, else a level is pushed. -/
def execLoop (c : Fin 64) (o : BitVec 19) (s : State) : Out :=
  let f := s.front
  let next := f.pc + 4
  let e := f.pc + (o.signExtend 64 <<< 2)
  let n := (s.sval c).toNat % 2 ^ 32
  if o.toInt < 2 ∨ fieldOf e 51 32 ≠ fieldOf next 51 32 then illegal (.loop c o) s
  else if n = 0 then .next ((s.setFront (f.fallTo e)).retire)
  else
    let d := f.depth
    if d = 4 then trap cLoop 1 s
    else
      let l := f.loops[lvl4 (d - 1)]
      if 0 < d ∧ l.startAddr ≤ f.pc.toNat ∧ f.pc.toNat < l.endAddr ∧ l.endAddr < e.toNat then trap cLoop 2 s
      else
        let lv : LoopLevel := ⟨BitVec.ofNat 32 n, BitVec.ofNat 30 (fieldOf e 31 2), true, BitVec.ofNat 50 (fieldOf next 51 2)⟩
        .next ((s.setFront { f with loops := f.loops.set (lvl4 d) lv, pc := next }).retire)

end Sys2Proof.Machine
end

