-- ==== Sys2Proof/Machine/Cmaint.lean ====
section
/-!
DEFINITION. Crown cache maintenance (13:R301-R303).
-/

namespace Sys2Proof.Machine

/-- The lines cached in the home slice of a bank whose DRAM addresses lie in [lo, hi). -/
def linesIn (s : State) (b lo hi : Nat) : List Nat :=
  ((s.bank b).lines.map (fun e => e.1)).filter (fun l => decide (lo < b * 2 ^ 27 + l * 128 + 128 ∧ b * 2 ^ 27 + l * 128 < hi))

/-- The lines of one 64 KiB page that a range covers (13:R302): a page that is not present, not in the DRAM window, or
bank-private (19:R420; DEDUCED, log 32) is skipped. -/
def maintainPage (wb inv : Bool) (lo hi : Nat) (s : State) (page : Nat) : State :=
  if 2 ^ 36 ≤ page then s
  else
    match translate s s.asker s.thr.root (page * 2 ^ 16) with
    | (s, .fault _) => s
    | (s, .found x) =>
      if windowOf x.base ≠ .dram ∨ x.bit 9 then s
      else
        let off (v : Nat) : Nat := if v ≤ page * 2 ^ 16 then 0 else if (page + 1) * 2 ^ 16 ≤ v then 2 ^ 16 else v - page * 2 ^ 16
        let b := x.base / 2 ^ 27
        (linesIn s b (x.base + off lo) (x.base + off hi)).foldl (fun acc l => dropLine acc b l wb inv) s

/-- The lines of the virtual range [lo, hi), in ascending order. -/
def maintain (wb inv : Bool) (lo hi : Nat) (s : State) : State :=
  if hi ≤ lo then s
  else
    let first := lo / 2 ^ 16
    (List.range ((hi - 1) / 2 ^ 16 + 1 - first)).foldl (fun acc p => maintainPage wb inv lo hi acc (first + p)) s

/-- Where a hard pre-emption stops a range form: after some 128-byte lines (13:R303). -/
def cutLine (s : State) (lo hi : Nat) : Option Nat := (s.stopAfter.map (fun n => Nat.max lo ((lo / 128 + n) * 128))).filter (fun m => decide (m < hi))

/-- A range form (13:R302, R303): the lines of [ra, ra + min(rb, 2^40)). Stopped between two lines, it leaves what remains in ra and rb; if one of
them is s0, it starts anew from its first range. -/
def runRange (i : Instr) (a b : Fin 64) (wb inv : Bool) (s : State) : Out :=
  let e := s.venv i 4 a b
  let lo := e.ctx.sa.toNat
  let hi := lo + min e.ctx.sb.toNat (2 ^ 40)
  match cutLine s lo hi with
  | none => vdone e (maintain wb inv lo hi s)
  | some m =>
    let s := maintain wb inv lo m s
    if a = 0 ∨ b = 0 then stopVector e s
    else
      let ra := BitVec.ofNat 64 m
      let rb := BitVec.ofNat 64 (hi - m)
      stopVector { e with ctx := { e.ctx with sa := ra, sb := rb } } ((s.setV a ra).setV b rb)

/-- CWB (13:R301). -/
def execCwb (a b : Fin 64) (s : State) : Out := runRange (.cwb a b) a b true false s

/-- CWBI (13:R301). -/
def execCwbi (a b : Fin 64) (s : State) : Out := runRange (.cwbi a b) a b true true s

/-- CINV (13:R301): only at supervisor level; dirty bytes are lost. -/
def execCinv (a b : Fin 64) (s : State) : Out :=
  if s.level = .user && !s.vrun then privViolation (.cinv a b) s else runRange (.cinv a b) a b false true s

/-- An ALL form: every line of the home slices of the owned banks, whatever BMASK says (13:R301, 16:R360). Stopped, it starts anew (13:R303). -/
def runAll (i : Instr) (inv : Bool) (s : State) : Out :=
  let e := s.venv i 4 0 0
  let banks := ownedIn s.bankList e.ctx.base.toNat e.ctx.count.toNat (BitVec.allOnes 64)
  let lines := banks.flatMap (fun p => (s.bank p.2).lines.map (fun q => (p.2, q.1)))
  let go (l : List (Nat × Nat)) : State := l.foldl (fun acc q => dropLine acc q.1 q.2 true inv) s
  match s.stopAfter.filter (fun n => decide (n < lines.length)) with
  | some n => stopVector e (go (lines.take n))
  | none => vdone e (go lines)

/-- CWBALL (13:R301). -/
def execCwball (s : State) : Out := runAll .cwball false s

/-- CWBIALL (13:R301). -/
def execCwbiall (s : State) : Out := runAll .cwbiall true s

end Sys2Proof.Machine
end

