-- ==== Sys2Proof/Machine/Events.lean ====
section
/-!
DEFINITION. Steps outside the instruction words: the bank controllers, far elements in flight, the host, the scheduler column, refresh, repair
and reliability (04:R84-R105, 12:R268, 13:R297, R298, 18:R397-R413, 20:R438, 21:R445-R463). A step whose condition does not hold changes nothing.
-/

namespace Sys2Proof.Machine

/-- The key of a physical bank. -/
def bankKey (st : Fin 32) (bk : Fin 256) : Nat := st.val * 256 + bk.val

/-! ### Bank controllers -/

/-- The latch of an activated row becomes valid (04:R91, 05:R113). -/
def latchReady (b : Nat) (k : Fin 16) (s : State) : State := s.setW b k { s.wreg b k with valid := true }

/-- LATCH_VALID (05:R113). -/
def execLatchValid (st : Fin 32) (bk : Fin 256) (k : Fin 16) (s : State) : Out := .next (latchReady (bankKey st bk) k s)

/-- The oldest write-back of register `k` commits (04:R104). -/
def commitNext (b : Nat) (k : Fin 16) (s : State) : State := if (s.bank b).pending k.val then commitOne s b k else s

/-- WRITE_BACK_COMMIT (04:R104, R105). -/
def execWriteBackCommit (st : Fin 32) (bk : Fin 256) (k : Fin 16) (s : State) : Out := .next (commitNext (bankKey st bk) k s)

/-- ARRAY_DEMAND (04:R88). -/
def execArrayDemand (st : Fin 32) (bk : Fin 256) (k : Fin 16) (s : State) : Out := .next (arrayDemand s (bankKey st bk) k)

/-- CROWN_LINE_EVICTION (12:R268). -/
def execCrownLineEviction (st : Fin 32) (bk : Fin 256) (line : Nat) (s : State) : Out := .next (dropLine s (bankKey st bk) line true true)

/-! ### Far elements in flight -/

/-- An earlier element that has not been applied must be applied before element `n`: same bank and destination bank, or same thread and word
(14:R310, R312). -/
def heldBack (s : State) (n : Nat) : Bool :=
  match s.posted[n]? with
  | none => true
  | some p => (s.posted.take n).any (fun q => !q.applied &&
      (decide (q.thread = p.thread ∧ q.bank = p.bank ∧ q.pa / 2 ^ 27 = p.pa / 2 ^ 27) || decide (q.thread = p.thread ∧ q.pa / 8 = p.pa / 8)))

/-- FAR_ELEMENT_APPLY (13:R295, R297). -/
def execFarElementApply (n : Nat) (s : State) : Out := .next (if heldBack s n then s else applyPosted s n)

/-- FAR_ACKNOWLEDGEMENT (13:R296, R298). -/
def execFarAcknowledgement (n : Nat) (s : State) : Out := .next (ackPosted s n)

/-! ### The host -/

/-- An answer to the host: 0 unpopulated, 1 done, 2 a poisoned word. -/
def answerHost (s : State) (code : Nat) (v : Nat) : State := { s with replies := s.replies ++ [(code, BitVec.ofNat 64 v)] }

/-- A word that the lantern reads with the main side down (21:R465, 24:R493): of an error log, or BOOTSTAT. -/
def standbyWord (pa : Nat) : Bool :=
  let off := pa % 2 ^ 40
  decide (windowOf pa = .control) &&
  (decide (off < 0x20000000 ∧ 0x800000 ≤ off % 2 ^ 24 ∧ off % 2 ^ 24 < 0x803000) || decide (off = 0x20000010))

/-- The host or the lantern can reach an address (00:R3, 01:R17, 03:R80, 24:R494, R495): the control window, and over a working host link DRAM and
scratch once READY is 1. The lantern's port serves 8-byte words of the control window alone, without the host link or with the main side down. -/
def hostReach (s : State) (write : Bool) (pa n : Nat) : Bool :=
  let link := !s.ports.contains 64
  decide (pa % n = 0) && populatedN s pa n &&
  (if !s.boot.on then !write && decide (n = 8) && standbyWord pa
   else match windowOf pa with
     | .control => link || decide (n = 8)
     | .host => false
     | _ => link && s.boot.ready)

/-- A host access of `n` bytes (03:R80, 14:R339, 23:R482, 24:R494); its writes set no dirty bit (19:R428). -/
def hostAccess (write : Bool) (pa n v : Nat) (s : State) : State :=
  if !hostReach s write pa n then answerHost s 0 0
  else if write then
    if windowOf pa = .control then answerHost (ctrlWriteN s pa n v) 1 0
    else answerHost (clearHashed (physWrite s pa n v false Mark.none) pa) 1 0
  else
    let r := anyRead s pa n false
    answerHost r.1 (if r.2.2 then 2 else 1) r.2.1

/-- HOST_ACCESS (03:R80). -/
def execHostAccess (write : Bool) (pa : Nat) (len : Fin 4) (v : Word) (s : State) : Out :=
  .next (hostAccess write pa (2 ^ len.val) (v.toNat % 2 ^ (8 * 2 ^ len.val)) s)

/-- A write to a register of a stack's block; an excluded stack's addresses are unpopulated (24:R493). -/
def ifPresent (st : Fin 32) (f : State → State) (s : State) : State := if (s.stack st.val).excluded then s else f s

/-- TAIL_WRITE (18:R401). -/
def execTailWrite (st : Fin 32) (q : Fin 16) (v : Word) (s : State) : Out := .next (ifPresent st (fun s => writeTail s st.val q v) s)

/-- HOST_QUEUE_ENTRY_READ (18:R401). -/
def execHostQueueEntryRead (st : Fin 32) (q : Fin 16) (s : State) : Out := .next (readHostEntry s st.val q)

/-! ### Launch unit and scheduler -/

/-- LAUNCH_EXPANSION (16:R357, 17:R381). -/
def execLaunchExpansion (st : Fin 32) (s : State) : Out := .next (expandDevice s st.val)

/-- DEPWORD_READ (18:R404). -/
def execDepwordRead (st : Fin 32) (n : Nat) (s : State) : Out := .next (readDepword s st.val n)

/-- SCHEDULER_PLACEMENT (18:R405-R407). -/
def execSchedulerPlacement (st : Fin 32) (th : Fin 40) (s : State) : Out := .next (schedule s st.val th.val)

/-- SOFTLIM passes with a request pending: a hard pre-emption is due (18:R407). -/
def softExpire (tid : Nat) (s : State) : State :=
  let t := s.thread tid
  if t.softReq then s.setThread tid { t with hardReq := true } else s

/-- SOFTLIM_EXPIRY (18:R407). -/
def execSoftlimExpiry (st : Fin 32) (th : Fin 40) (s : State) : Out := .next (softExpire (tidOf st.val th.val) s)

/-- A hard pre-emption that is due acts at a boundary (20:R438, R439). -/
def hardPreempt (tid : Nat) (s : State) : State := if hardDueOn s tid then preempt s tid true false none else s

/-- HARD_PREEMPTION (20:R438, R439). -/
def execHardPreemption (st : Fin 32) (th : Fin 40) (s : State) : Out := .next (hardPreempt (tidOf st.val th.val) s)

/-- 2^16 clk have passed since a handler deferred a request: it acts at a boundary, at either level (20:R438). -/
def deferralEnds (tid : Nat) (s : State) : State :=
  let t := s.thread tid
  if (t.hardReq || t.softReq) && !t.handlers.isEmpty && s.mayStop tid then preempt s tid true false none else s

/-- PREEMPTION_DEFERRAL_EXPIRY (20:R438). -/
def execPreemptionDeferralExpiry (st : Fin 32) (th : Fin 40) (s : State) : Out := .next (deferralEnds (tidOf st.val th.val) s)

/-- GANG_START_ATTEMPT (18:R408). -/
def execGangStartAttempt (st : Fin 32) (n : Nat) (s : State) : Out := .next (gangAttempt s st.val n)

/-- GANG_START (18:R408). -/
def execGangStart (st : Fin 32) (n : Nat) (s : State) : Out := .next (gangStart s st.val n)

/-- An attempt of a gang is under way: a member is ready or has a thread reserved (18:R408). -/
def attempting (s : State) (st id : Nat) : Bool :=
  (waitingMembers s st id).any (fun p => p.2.reserved.isSome) || (s.launchThreads st id).any (fun t => (s.thread t).cond.isReady)

/-- GANG_START_ABANDONED (18:R409): the limit passes with a member not ready. One that would become ready in the scyc of the limit is not ready yet
(DESIGN CHOICE, log 134). -/
def execGangStartAbandoned (st : Fin 32) (n : Nat) (s : State) : Out :=
  .next (if attempting s st.val n && !(waitingMembers s st.val n).isEmpty then gangAbandon s st.val n 0 else s)

/-- GANG_RESUME: the action 1 of GANGACT (18:R410). -/
def execGangResume (st : Fin 32) (g : BitVec 48) (s : State) : Out :=
  .next (ifPresent st (fun s => writeGangact s st.val (BitVec.ofNat 64 (2 ^ 62 + g.toNat))) s)

/-- GANG_DISCARD: the action 2 of GANGACT (18:R410). -/
def execGangDiscard (st : Fin 32) (g : BitVec 48) (s : State) : Out :=
  .next (ifPresent st (fun s => writeGangact s st.val (BitVec.ofNat 64 (2 ^ 63 + g.toNat))) s)

/-- BINDING_REQUEST (01:R23, 18:R398). -/
def execBindingRequest (st : Fin 32) (v : Word) (s : State) : Out := .next (ifPresent st (fun s => writeBindreq s st.val v) s)

/-- UNBINDING_REQUEST: a request with HALVES 0 (18:R398). -/
def execUnbindingRequest (st : Fin 32) (v : Word) (s : State) : Out := .next (ifPresent st (fun s => writeBindreq s st.val (v &&& ~~~ 0xFF00)) s)

/-- PARK_WRITE (18:R400). -/
def execParkWrite (st : Fin 32) (v : Word) (s : State) : Out := .next (ifPresent st (fun s => writePark s st.val v) s)

/-- RETIREMENT_REQUEST (21:R460). -/
def execRetirementRequest (st : Fin 32) (v : Word) (s : State) : Out := .next (ifPresent st (fun s => writeRetire s st.val v) s)

/-- PWRCTL_WRITE (24:R502). -/
def execPwrctlWrite (st : Fin 32) (v : Word) (s : State) : Out := .next (ifPresent st (fun s => writePwr s st.val v) s)

/-- COLUMN_VOTE (18:R411). -/
def execColumnVote (st : Fin 32) (col : Fin 6) (dissent : Bool) (s : State) : Out := .next (columnVote s st.val col dissent)

/-- Resynchronisation completes: RESYNC to TRIPLE (18:R411). -/
def resynced (st : Nat) (c : Fin 6) (s : State) : State :=
  let k := s.stack st
  let x := k.cols[c]
  if x.state = .resync then s.setStack st { k with cols := k.cols.set c { x with state := .triple } } else s

/-- RESYNC_COMPLETE (18:R411). -/
def execResyncComplete (st : Fin 32) (col : Fin 6) (s : State) : Out := .next (resynced st.val col s)

/-- PAGE_WALK: a translation of the thread's address space enters the caches (19:R414-R425). -/
def execPageWalk (st : Fin 32) (th : Fin 40) (va : Word) (s : State) : Out :=
  let t := s.thread (tidOf st.val th.val)
  let a : Asker := ⟨st.val, .tlb st.val, (s.stack st.val).slotOf (feOf th.val)⟩
  .next (if t.task.isNone || decide (2 ^ 52 ≤ va.toNat) then s else (translate s a t.root va.toNat).1)

/-! ### Refresh -/

/-- RETENTION_TICK (04:R98-R102). -/
def execRetentionTick (st : Fin 32) (bk : Fin 256) (s : State) : Out := .next (retentionTick s (bankKey st bk))

/-- An asynchronous trap of the running control thread at a boundary: a PAUSE ends first, the queue stays and RL is 0 (17:R388, 20:R435). -/
def asyncTrap (cause : BitVec 8) (val : Word) (s : State) : State :=
  let s := expirePause s
  enterTrap s cause val s.front.pc false false 0 0

/-- The retention deadline of a group (04:R100): taken once by the owner of the bank, the control thread or the bank thread in split mode. It
waits while the thread is taking a trap, and for a hard pre-emption that is due, which ranks before it (20:R435). -/
def takeDeadline (b : Nat) (k : Fin 16) (s : State) : State :=
  match (ownedBy s s.cur.st s.cur.th).find? (fun p => p.2 == b) with
  | none => s
  | some (j, _) =>
    let x := s.bank b
    if !x.deadline.getLsbD k.val then s
    else
      let val := deadlineVal j k.val (x.debt[k]).toNat
      let s' := s.setBank b { x with deadline := x.deadline &&& ~~~ (BitVec.ofNat 16 (2 ^ k.val)) }
      if hardDue s || s.thr.tr.busy || s.thr.cond.isReady then s
      else if s.thr.cond = .splitWait then
        match mapGet s.thr.bts j with
        | some t => if t.status = .running then stopBank s' j ⟨cRetention, val, false, false⟩ else s
        | none => s
      else asyncTrap cRetention val s'

/-- RETENTION_DEADLINE (04:R100). -/
def execRetentionDeadline (st : Fin 32) (th : Fin 40) (bk : Fin 256) (k : Fin 16) (s : State) : Out :=
  .next (onThread s st.val th.val (takeDeadline (bankKey st bk) k))

/-- A debt of 12 is refreshed down to 4 by the controller (04:R101). -/
def forcedSteps (b : Nat) (k : Fin 16) (s : State) : State :=
  if ((s.bank b).debt[k]).toNat < 12 then s else refreshTo s b k 4 12

/-- FORCED_REFRESH (04:R101). -/
def execForcedRefresh (st : Fin 32) (bk : Fin 256) (k : Fin 16) (s : State) : Out := .next (forcedSteps (bankKey st bk) k s)

/-- A bank that no running task owns is refreshed by its controller (04:R102). -/
def backgroundStep (b : Nat) (k : Fin 16) (s : State) : State := if bankOwned s b then s else refreshStep s b k

/-- BACKGROUND_REFRESH (04:R102). -/
def execBackgroundRefresh (st : Fin 32) (bk : Fin 256) (k : Fin 16) (s : State) : Out := .next (backgroundStep (bankKey st bk) k s)

/-! ### Repair, quarantine, retirement, errors -/

/-- ROW_REPAIR (03:R71-R74): bring-up, the controller after its corrections, or the supervisor adds a repair mapping (03:R74; how a supervisor asks
for one is not given: DESIGN CHOICE, log 140). -/
def execRowRepair (st : Fin 32) (bk : Fin 256) (k : Fin 16) (row : BitVec 12) (s : State) : Out :=
  .next (repairRow s (bankKey st bk) k row.toNat)

/-- REPAIR_COPY_COMPLETE (03:R74). -/
def execRepairCopyComplete (st : Fin 32) (bk : Fin 256) (k : Fin 16) (row : BitVec 12) (s : State) : Out :=
  .next (repairCopied s (bankKey st bk) k row.toNat)

/-- LANE_QUARANTINE (21:R458). -/
def execLaneQuarantine (st : Fin 32) (bk : Fin 256) (s : State) : Out := .next (quarantine s (bankKey st bk))

/-- The causes of a retirement that are not a request (21:R460): a third quarantine, a suspect matrix array; for the array, a row that needs a repair,
by its corrections or by the finding of bring-up (24:R492), with no spare row of its group and no cross-group entry left (03:R74). -/
def retireDue (s : State) (b : Nat) (arr : Bool) : Bool :=
  let x := s.bank b
  if arr then (List.range 16).any (fun g => repairsOut x g && (!s.boot.ready || x.repairDue.any (fun key => key / 4096 == g)))
  else x.suspect || decide (3 ≤ x.quarantined.length)

/-- BANK_RETIREMENT (21:R460-R462): a cause of the bank's own, or the request in RETIREREQ once the tasks that own the bank have stopped. -/
def execBankRetirement (st : Fin 32) (bk : Fin 256) (arr : Bool) (s : State) : Out :=
  let k := s.stack st.val
  .next (if retireDue s (bankKey st bk) arr then (retireBank s st.val bk.val arr).1
         else if k.retGo && !arr && decide (k.retBank.toNat = bk.val) then performRetire s st.val
         else s)

/-- BANK_COPY_COMPLETE (21:R461). -/
def execBankCopyComplete (st : Fin 32) (bk : Fin 256) (s : State) : Out := .next (copyComplete s (bankKey st bk))

/-- UNCORRECTABLE_ERROR (21:R463). -/
def execUncorrectableError (st : Fin 32) (th : Fin 40) (bank : BitVec 8) (unit : BitVec 8) (s : State) : Out :=
  .next (uncorrectable s st.val th.val bank.toNat unit.toNat)

/-- The pending uncorrectable error is taken at a boundary (21:R463): by the control thread, or in split mode by the bank thread whose state
it lies in. It waits while the thread is taking a trap. -/
def takeUe (s : State) : State :=
  match s.thr.ueReq with
  | none => s
  | some v =>
    let s' : State := { s with thr := { s.thr with ueReq := none } }
    if s.thr.tr.busy || s.thr.cond.isReady then s
    else if s.thr.cond = .splitWait then
      let j := fieldOf v 15 8
      match mapGet s.thr.bts j with
      | some b => if b.status = .running then stopBank s' j ⟨cUncorrectable, v, false, false⟩ else s
      | none => s
    else asyncTrap cUncorrectable v s'

/-- FRONT_END_FAILURE (01:R32). -/
def execFrontEndFailure (st : Fin 32) (fe : Fin 20) (s : State) : Out := .next (frontEndFail s st.val fe.val)

end Sys2Proof.Machine
end

