-- ==== Sys2Proof/Machine/RowIns.lean ====
section
/-!
DEFINITION. Row instructions: ROW, ROWL and CROWN (05:R106-R126).
-/

namespace Sys2Proof.Machine

/-! ### Reaching the banks -/

/-- Runs a check in every executing bank, lowest logical bank first; the first failure stops it (05:R107). -/
def eachBank {α : Type} (check : State → Nat → Nat → State × Except VFail α) (s : State) :
    List (Nat × Nat) → State × Except VFail (List (Nat × Nat × α))
  | [] => (s, .ok [])
  | (j, b) :: t =>
    match check s j b with
    | (s, .error f) => (s, .error f)
    | (s, .ok r) =>
      match eachBank check s t with
      | (s, .error f) => (s, .error f)
      | (s, .ok l) => (s, .ok ((j, b, r) :: l))

/-- TRAPVAL of a row instruction's own causes (05:R108). -/
def rowVal (j k row : Nat) : Word := BitVec.ofNat 64 (j % 256 + k * 2 ^ 8 + row * 2 ^ 12)

/-- The lowest executing bank in which the address check of an x register fails (15:R355, R356). -/
def bankResMiss (s : State) (banks : List (Nat × Nat)) (x : Fin 32) (imm : Word) : Option (Nat × Nat) :=
  banks.find? (fun p => !addrResOk ((s.bank p.2).getX x) imm)

/-- The residue-mismatch trap of an x register; the bank is reported for a lockstep instruction only (15:R356). -/
def trapBankRes (e : VEnv) (x : Fin 32) (p : Nat × Nat) (s : State) : Out :=
  let val := residueVal x.val rkAddr (if s.cur.bank.isNone then p.1 else 0)
  trapCheck e ⟨cResidue, val⟩ (logResidue s x.val rkAddr (some p.2))

/-- A row operand: a row number, or imm7 plus an x register of the bank (05:R109). -/
inductive RowOp where
  | row (n : Nat)
  | idx (x : Fin 32) (imm : Nat)
  deriving DecidableEq, Repr

/-- A row operand from its X bit and its 12 bits: imm7 above the register number where X = 1 (05:R109). -/
def rowOp (x : Bool) (r : BitVec 12) : RowOp :=
  if x then .idx ⟨r.toNat % 32, Nat.mod_lt _ (by decide)⟩ (r.toNat / 32) else .row r.toNat

/-- The row number an operand gives in a bank (05:R109). -/
def RowOp.number (x : Bank) : RowOp → Nat
  | .row n => n
  | .idx r i => (BitVec.ofNat 64 i + (x.getX r).val).toNat

/-- The x register of an operand whose residue check fails in a bank. -/
def RowOp.resIn (s : State) (b : Nat) : RowOp → Option (Fin 32)
  | .row _ => none
  | .idx r i => if addrResOk ((s.bank b).getX r) (BitVec.ofNat 64 i) then none else some r

/-- The lowest bank in which the residue check of some operand fails, and the first such operand's register there (05:R107, 15:R356). The check is made
in every executing bank before any other check in one (DEDUCED, log 128). -/
def resMiss (s : State) (banks : List (Nat × Nat)) (ops : List RowOp) : Option (Fin 32 × (Nat × Nat)) :=
  banks.findSome? (fun p => (ops.findSome? (fun o => o.resIn s p.2)).map (fun r => (r, p)))

/-- A row that an instruction names, resolved in a bank: row number, physical row, translation. -/
structure RowAt where
  n : Nat
  prow : Nat
  x : Xlat

/-- Resolves a row operand in a bank: range, translation, locality, permissions (05:R109, R110). A missing permission other than W reports bank,
group and row (05:R108); a translation that ends in an access fault reports the virtual address (19:R418). -/
def resolveRow (s : State) (j b : Nat) (k : Fin 16) (op : RowOp) (write : Bool) : State × Except VFail RowAt :=
  let n := op.number (s.bank b)
  if 4095 < n then (s, .error ⟨cRowRange, rowVal j k.val 0⟩)
  else
    let va := rowVa s j k.val n
    if va.toNat / 2 ^ 52 ≠ 0 then (s, .error ⟨cPage, va⟩)
    else
      match translate s (s.rowAsker b) s.thr.root va.toNat with
      | (s, .fault c) => (s, .error ⟨c, va⟩)
      | (s, .found x) =>
        let pa := x.pa va.toNat
        if !populated s pa then (s, .error ⟨cAccess, va⟩)
        else if windowOf pa ≠ .dram ∨ pa / 2 ^ 23 ≠ b * 16 + k.val then (s, .error ⟨cRowLocal, va⟩)
        else
          match permFault x s.level ⟨!write, write, false⟩ true with
          | some c => (s, .error ⟨c, if c = cAccess then rowVal j k.val n else va⟩)
          | none => (s, .ok ⟨n, pa / 2 ^ 11 % 4096, x⟩)

/-- Ends a row instruction whose checks have passed. -/
def rowRun {α : Type} (e : VEnv) (check : State → Nat → Nat → State × Except VFail α) (act : State → Nat → α → State) (s : State) : Out :=
  match eachBank check s e.banks with
  | (s, .error f) => trapCheck e f s
  | (s, .ok l) => vdone e (l.foldl (fun acc p => act acc p.2.1 p.2.2) s)

/-- A row instruction without checks of its own. -/
def rowPlain (e : VEnv) (act : State → Nat → State) (s : State) : Out := vdone e (e.banks.foldl (fun acc p => act acc p.2) s)

/-! ### ACT -/

/-- Binds the row of an operand into wk (05:R113). -/
def runAct (i : Instr) (k t : Fin 16) (op : RowOp) (s : State) : Out :=
  let e := s.venv i 4 0 0
  match resMiss s e.banks [op] with
  | some (r, p) => trapBankRes e r p s
  | none =>
    rowRun e (fun s j b => resolveRow s j b k op false)
      (fun s b r => bindRow s b k r.n r.prow (BitVec.ofNat 4 t.val) (r.x.bit 3) (some r.x.leafAddr)) s

/-- ACT with a row number (05:R113). -/
def execAct (k t : Fin 16) (r : BitVec 12) (s : State) : Out := runAct (.act k t r) k t (.row r.toNat) s

/-- ACT with an indexed row (05:R109, R113). -/
def execActIndexed (k t : Fin 16) (x : Fin 32) (i : BitVec 7) (s : State) : Out := runAct (.actIndexed k t x i) k t (.idx x i.toNat) s

/-! ### WBK, PRE, PRE.D, PREA -/

/-- WBK (05:R116): row unbound where wk is FREE, once a pending unbinding is done. -/
def execWbk (k : Fin 16) (s : State) : Out :=
  rowRun (s.venv (.wbk k) 4 0 0)
    (fun s j b =>
      let s := settleUnbind s b k
      (s, if (s.wreg b k).state.bound then .ok () else .error ⟨cRowUnbound, rowVal j k.val 0⟩))
    (fun s b _ => wbkReg s b k) s

/-- PRE (05:R116). -/
def execPre (k : Fin 16) (s : State) : Out := rowPlain (s.venv (.pre k) 4 0 0) (fun s b => preReg s b k) s

/-- PRE.D (05:R116). -/
def execPreD (k : Fin 16) (s : State) : Out := rowPlain (s.venv (.preD k) 4 0 0) (fun s b => preDropReg s b k) s

/-- PREA (05:R116, R118): PRE of w0 to w15. -/
def execPrea (s : State) : Out :=
  rowPlain (s.venv .prea 4 0 0) (fun s b => (List.range 16).foldl (fun acc k => preReg acc b (idx16 k)) s) s

/-! ### REF, REF.Q, RSTAT -/

/-- REF (05:R119). -/
def execRef (k : Fin 16) (s : State) : Out := rowPlain (s.venv (.ref k) 4 0 0) (fun s b => refreshStep s b k) s

/-- Writes an x register of each executing bank. -/
def rowToX (e : VEnv) (d : Fin 32) (f : Bank → Nat) (s : State) : Out :=
  rowPlain e (fun s b => s.setBank b ((s.bank b).setX d (mkS (BitVec.ofNat 64 (f (s.bank b)))))) s

/-- REF.Q's value (05:R120). -/
def refWord (x : Bank) (k : Fin 16) : Nat := x.debt[k].toNat + x.ptr[k].toNat * 2 ^ 8

/-- REF.Q (05:R120). -/
def execRefQ (d : Fin 32) (k : Fin 16) (s : State) : Out := rowToX (s.venv (.refQ d k) 4 0 0) d (fun x => refWord x k) s

/-- The state codes of 04:R82. -/
def WState.code : WState → Nat
  | .free => 0
  | .openClean => 1
  | .openDirty => 2
  | .heldClean => 3
  | .heldDirty => 4

/-- RSTAT's value (05:R121). PEND shows an in-group mapping that waits, too (DEDUCED, log 126). -/
def statWord (x : Bank) (k : Fin 16) : Nat :=
  let r := x.w[k]
  let key := k.val * 4096 + r.prow.toNat
  let on := r.state.bound
  r.state.code + r.tag.toNat * 2 ^ 4 + (if on then r.row.toNat else 0) * 2 ^ 8 + b2n (on && (mapGet x.xgroup key).isSome) * 2 ^ 20 +
    b2n (on && !r.writable) * 2 ^ 21 + b2n (on && x.pendRepair.contains key) * 2 ^ 23

/-- RSTAT (05:R121). -/
def execRstat (d : Fin 32) (k : Fin 16) (s : State) : Out := rowToX (s.venv (.rstat d k) 4 0 0) d (fun x => statWord x k) s

/-! ### RCLONE and RZERO -/

/-- Applies a step to the 16 crown lines of a row. -/
def eachLine (s : State) (k : Fin 16) (prow : Nat) (f : State → Nat → State) : State :=
  (List.range 16).foldl (fun acc i => f acc (k.val * 2 ^ 16 + prow * 16 + i)) s

/-- What a copy reads of its source row (05:R122): bits, poison, and the words whose errors it carries along unchecked (21:R446). No row is the zero
row. -/
def cloneSource (s : State) (b : Nat) (k : Fin 16) (src : Option Nat) : RowBits × BitVec 256 × List (Nat × Bool) :=
  match src with
  | none => (0, 0, [])
  | some p =>
    let w := rowAddr b k.val p / 32
    (cellsRow s (32 * w), rowPoison s (32 * w),
     (s.latent.filter (fun e => decide (w ≤ e.1 ∧ e.1 < w + 64))).map (fun e => (e.1 - w, e.2)))

/-- The rows of a copy are brought to the cells first: repair copies end, the party's own far stores and the source's dirty crown lines arrive,
the destination's lines go (14:R310, R311; DEDUCED, log 61). -/
def cloneReady (s : State) (b : Nat) (k : Fin 16) (d : Nat) (src : Option Nat) : State :=
  let rows := d :: src.toList
  let s := rows.foldl (fun acc p => repairCopied acc b k p) s
  let s := ownFirst s b (fun pa => rows.any (fun p => pa / 2 ^ 11 == rowAddr b k.val p / 2 ^ 11))
  let s := arrayDemand s b k
  let r := s.wreg b k
  let s := if r.state = .heldDirty ∧ src = some r.prow.toNat then settle (startWb s b k 0) b k else s
  let s := src.toList.foldl (fun acc p => eachLine acc k p (fun s l => dropLine s b l true false)) s
  eachLine s k d (fun s l => dropLine s b l false true)

/-- The copy inside the array (05:R122): `src` is the source's physical row, none for the zero row. The destination's page loses its verified mark
(22:R476), and a latch bound to it holds the copied bits, errors included. -/
def cloneRow (s : State) (b : Nat) (k : Fin 16) (d : RowAt) (src : Option Nat) : State :=
  if src = some d.prow then s
  else
    let s := cloneReady s b k d.prow src
    let s := (d.prow :: src.toList).foldl (fun acc p => crossDemand acc b (k.val * 4096 + p)) s
    let dst := rowAddr b k.val d.prow
    let z := cloneSource s b k src
    let s := clearHashed (setDirty (writeCells s dst z.1 z.2.1) (d.x.mark dst).due dst) dst
    let s : State := { s with latent := z.2.2.foldl (fun l e => mapSet l (dst / 32 + e.1) e.2) s.latent }
    let r := s.wreg b k
    if r.state.bound ∧ r.prow.toNat = d.prow then
      let s := freshLatch s b k.val
      { s.setW b k { r with latch := cellsRow s dst, poison := rowPoison s dst, state := .heldClean } with
        upsets := s.upsets ++ z.2.2.map (fun e => (.latch b k.val e.1, e.2)) }
    else s

/-- RCLONE (05:R122). -/
def execRclone (k : Fin 16) (xd : Bool) (rowd : BitVec 12) (xs : Bool) (rows : BitVec 12) (s : State) : Out :=
  let e := s.venv (.rclone k xd rowd xs rows) 8 0 0
  let d := rowOp xd rowd
  let o := rowOp xs rows
  match resMiss s e.banks [d, o] with
  | some (r, p) => trapBankRes e r p s
  | none =>
    rowRun e (fun s j b =>
        match resolveRow s j b k d true with
        | (s, .error f) => (s, .error f)
        | (s, .ok rd) =>
          match resolveRow s j b k o false with
          | (s, .error f) => (s, .error f)
          | (s, .ok ro) => (s, .ok (rd, ro.prow)))
      (fun s b r => cloneRow s b k r.1 (some r.2)) s

/-- RZERO (05:R122). -/
def execRzero (k : Fin 16) (xd : Bool) (rowd : BitVec 12) (s : State) : Out :=
  let e := s.venv (.rzero k xd rowd) 8 0 0
  let d := rowOp xd rowd
  match resMiss s e.banks [d] with
  | some (r, p) => trapBankRes e r p s
  | none => rowRun e (fun s j b => resolveRow s j b k d true) (fun s b r => cloneRow s b k r none) s

/-! ### Fences -/

/-- FENCE.ARRAY (05:R125): every write-back that has started in an executing bank commits. -/
def execFenceArray (s : State) : Out := rowPlain (s.venv .fenceArray 4 0 0) settleAll s

/-- FENCE.ARRAY.W (05:R125): a write-back of every dirty register, then the fence. -/
def execFenceArrayW (s : State) : Out :=
  rowPlain (s.venv .fenceArrayW 4 0 0)
    (fun s b => settleAll ((List.range 16).foldl (fun acc k =>
      wbkReg acc b (idx16 k)) s) b) s

/-! ### CLD and CST -/

/-- The element width of CLD and CST: VLCFG's format (05:R123). -/
def crownWidth (e : VEnv) : Nat := fmtWidth e.ctx.vlcfg.fmt

/-- The elements that a CLD or CST moves in a bank: the active ones of 07:R151, since padding is never written (05:R123, 07:R154; DEDUCED, log 58).
-/
def crownIdx (e : VEnv) (x : Bank) (m : Fin 16) : List Nat := activeIdx e x m (granule (crownWidth e))

/-- A CLD or CST moves nothing and checks no address: VL is 0, or it has been resumed at or above LIVE (05:R124, 20:R434). -/
def crownIdle (e : VEnv) : Bool := decide (e.vl = 0) || decide (0 < e.vstart ∧ e.live ≤ e.vstart)

/-- The element at which a CLD or CST stops, and why: a hard pre-emption after some 512 bits (05:R124, 08:R170), or a poisoned element. -/
def crownStop (s : State) (e : VEnv) (hit : Option PoisonHit) : Nat × Bool :=
  let poisonAt := match hit with | some h => h.elem | none => e.live
  match (cutElem s e (512 / crownWidth e) false).filter (fun n => decide (n < e.live ∧ n ≤ poisonAt)) with
  | some n => (n, true)
  | none => (poisonAt, false)

/-- The 2 KiB that a CLD or CST reaches from a bank (05:R123): alignment, translation, permission, then the bank's own crown-cacheable DRAM or
its slice's scratch. -/
def crownAddr (s : State) (b : Nat) (va : Word) (write : Bool) : State × Except VFail (Xlat × Nat) :=
  if va.toNat % 2048 ≠ 0 then (s, .error ⟨cAlign, va⟩)
  else
    match dataAddr s (s.rowAsker b) s.thr.root s.level va.toNat 2048 ⟨!write, write, false⟩ false true with
    | (s, .error c) => (s, .error ⟨c, va⟩)
    | (s, .ok (x, pa)) =>
      let mine := match windowOf pa with
        | .dram => decide (pa / 2 ^ 27 = b) && x.cacheable
        | .scratch => decide (scratchBank pa = b)
        | _ => false
      if mine then (s, .ok (x, pa)) else (s, .error ⟨cAccess, va⟩)

/-- The checks of a CLD or CST in a bank: for CLD the write permission of wd's row, the length, then the address. -/
def crownCheck (e : VEnv) (b : Fin 32) (r : Fin 16) (store : Bool) (s : State) (j bk : Nat) : State × Except VFail (Xlat × Nat) :=
  match firstFail [lenCheck e j r (crownWidth e), if store then none else wpCheck e s j bk r] with
  | some f => (s, .error f)
  | none => crownAddr s bk ((s.bank bk).getX b).val store

/-- What a CLD found in memory: the 8-byte parts it read and which lie in poisoned words. -/
structure CrownData where
  parts : List (Nat × Nat)
  bad : List Nat

/-- Reads the 8-byte parts of a 2 KiB block that a list names, through the slice. -/
def readParts (s : State) (pa : Nat) : List Nat → State × CrownData
  | [] => (s, ⟨[], []⟩)
  | p :: t =>
    let r := physRead s (pa + 8 * p) 8 true
    let z := readParts r.1 pa t
    (z.1, ⟨(p, r.2.1) :: z.2.parts, if r.2.2 then p :: z.2.bad else z.2.bad⟩)

/-- The parts that elements of width `w` touch, without repeats. -/
def partsOf (w : Nat) (els : List Nat) : List Nat := els.foldl (fun l i => setInsert l (w * i / 64)) []

/-- The elements of a CLD or CST that take the poison trap in a bank, those of VPOISON's element apart (21:R451, R452). -/
def crownHit (e : VEnv) (v : VPoison) (j : Nat) (reg : Fin 16) (pos : Nat) (bad : Nat → Bool) (els : List Nat) : Option PoisonHit :=
  let w := crownWidth e
  (els.find? (fun i => bad (elemWord w i) && !(v.v && decide (elemWord w i = elemWord w v.elem.toNat)))).map (fun i => ⟨i, j, reg, pos⟩)

/-- The party's own far stores into the 2 KiB at an address take effect first (14:R310, R311). -/
def ownBlock (s : State) (b pa : Nat) : State := ownFirst s b (fun p => p / 2048 == pa / 2048)

/-- CLD (05:R123, R124). -/
def execCld (d : Fin 16) (b : Fin 32) (m : Fin 16) (s : State) : Out :=
  let e := s.venv (.cld d b m) 4 0 0
  let w := crownWidth e
  match bankResMiss s e.banks b 0 with
  | some p => trapBankRes e b p s
  | none =>
    if crownIdle e then vdone e s
    else
      match eachBank (crownCheck e b d false) s e.banks with
      | (s, .error f) => trapCheck e f s
      | (s, .ok l) =>
        let s := l.foldl (fun acc p => ownBlock (touchW acc p.2.1 d) p.2.1 p.2.2.2) (s.setVstart e.vstart)
        let got := l.foldl (fun (acc : State × List (Nat × Nat × Nat × CrownData)) p =>
          let z := readParts acc.1 p.2.2.2 (partsOf w (crownIdx e (acc.1.bank p.2.1) m))
          (z.1, acc.2 ++ [(p.1, p.2.1, p.2.2.2, z.2)])) (s, [])
        let s := got.1
        let v := s.front.vpoison
        let hit := leastHit (got.2.map (fun g => crownHit e v g.1 0 0 (fun n => g.2.2.2.bad.any (fun p => p / 4 == n)) (crownIdx e (s.bank g.2.1) m)))
        let stop := crownStop s e hit
        let s := got.2.foldl (fun acc g =>
          let els := (crownIdx e (acc.bank g.2.1) m).filter (fun i => decide (i < stop.1))
          let r := els.foldl (fun (r : RowEdit) i =>
            let part := ((g.2.2.2.parts.find? (fun p => p.1 == w * i / 64)).map (fun p => p.2)).getD 0
            r.put w i (part / 2 ^ (w * i % 64) % 2 ^ w) (g.2.2.2.bad.any (fun p => p / 4 == elemWord w i)))
            ⟨((acc.bank g.2.1).w[d]).latch, 0, 0⟩
          if els.isEmpty then acc else applyEdits acc g.2.1 { Edits.start (acc.bank g.2.1) with rows := [(d, r)] }) s
        let s := clearPoisonV s (ranTo e.vstart stop.1)
        match stop.2, hit with
        | true, _ => stopVector e (s.setVstart stop.1)
        | false, some h =>
          let va := match e.banks.find? (fun p => p.1 == h.j) with | some p => ((s.bank p.2).getX b).val | none => 0
          let s := s.setFront { s.front with vstart := BitVec.ofNat 15 h.elem, vpoison := ⟨true, 0, 0, BitVec.ofNat 15 h.elem⟩ }
          trapVector e ⟨cPoison, va + BitVec.ofNat 64 (w * h.elem / 8), true, false⟩ s
        | false, none => vdone e s

/-- Writes the covered bits of one 8-byte part through the slice: whole parts at once, else byte by byte. -/
def writePart (s : State) (x : Xlat) (pa part : Nat) (bits cover : Nat) : State :=
  let a := pa + 8 * part
  if cover = 2 ^ 64 - 1 then writeVia s x a 8 bits true
  else
    (List.range 8).foldl (fun acc i =>
      let c := cover / 2 ^ (8 * i) % 256
      if c = 0 then acc
      else
        let old := physRead acc (a + i) 1 true
        writeVia old.1 x (a + i) 1 ((old.2.1 &&& (255 - c)) ||| (bits / 2 ^ (8 * i) % 256 &&& c)) true) s

/-- The bits and the cover of the elements of a list, at their places in a row. -/
def gatherBits (latch : RowBits) (w : Nat) (els : List Nat) : RowBits × RowBits :=
  els.foldl (fun (z : RowBits × RowBits) i => (setEl z.1 w i (getEl latch w i), setEl z.2 w i (2 ^ w - 1))) (0, 0)

/-- CST (05:R123, R124). A word written from poisoned bits becomes poisoned (21:R452). -/
def execCst (r : Fin 16) (b : Fin 32) (m : Fin 16) (s : State) : Out :=
  let e := s.venv (.cst r b m) 4 0 0
  let w := crownWidth e
  match bankResMiss s e.banks b 0 with
  | some p => trapBankRes e b p s
  | none =>
    if crownIdle e then vdone e s
    else
      match eachBank (crownCheck e b r true) s e.banks with
      | (s, .error f) => trapCheck e f s
      | (s, .ok l) =>
        let s := l.foldl (fun acc p => ownBlock (touchW acc p.2.1 r) p.2.1 p.2.2.2) (s.setVstart e.vstart)
        let s := lanesRead s (l.map (fun p => (p.2.1, [(r, beatsOf w (List.range e.vl))])))
        let v := s.front.vpoison
        let hit := leastHit (l.map (fun p =>
          let x := s.bank p.2.1
          crownHit e v p.1 r 1 (fun n => latchBad x.w[r].poison n) (crownIdx e x m)))
        let stop := crownStop s e hit
        let s := l.foldl (fun acc p =>
          let x := acc.bank p.2.1
          let els := (crownIdx e x m).filter (fun i => decide (i < stop.1))
          let z := gatherBits x.w[r].latch w els
          let bad := (els.filter (fun i => latchBad x.w[r].poison (elemWord w i))).foldl (fun l i => setInsert l (elemWord w i)) []
          let acc := (partsOf w els).foldl (fun acc n => writePart acc p.2.2.1 p.2.2.2 n (getEl z.1 64 n) (getEl z.2 64 n)) acc
          bad.foldl (fun acc n => poisonWord acc (p.2.2.2 + 32 * n)) acc) s
        let s := clearPoisonV s (ranTo e.vstart stop.1)
        match stop.2, hit with
        | true, _ => stopVector e (s.setVstart stop.1)
        | false, some h => trapPoison e h h.elem s
        | false, none => vdone e s

end Sys2Proof.Machine
end

