-- ==== Sys2Proof/Machine/Far.lean ====
section
/-!
DEFINITION. Far operations: loads, stores, scatter-add and atomics (12:R274-R276, 13:R291-R300, R308, 14:R312, R317).
-/

namespace Sys2Proof.Machine

/-- What a far operation is, apart from its banks: element bytes, whether it loads, what a target does (`op` as in Posted), its registers with
the tags they may carry, and its fields. `d` is wd where it is used: `ret` says it is written, `cmp` that it is compared. -/
structure FarOp where
  bytes : Nat
  load : Bool
  op : Nat
  d : Option (Fin 16)
  ret : Bool
  cmp : Bool
  a : Option (Fin 16)
  b : Option (Fin 16)
  x : Fin 32
  off : BitVec 20
  ord : Nat
  nr : Bool
  m : Fin 16
  tagOk : BitVec 4 → Bool
  need : Need

/-- The width of the index register wb (13:R292). -/
def farIdxWidth (e : VEnv) (t : BitVec 4) : Nat := if t = 0 then fmtWidth e.ctx.vlcfg.fmt else tagWidth t

/-- The index of element `i` (13:R292): unsigned under UINT8 and tag 0, signed under every other tag. -/
def farIndex (e : VEnv) (x : Bank) (b : Fin 16) (i : Nat) : Int :=
  let t := x.w[b].tag
  let c := getEl x.w[b].latch (farIdxWidth e t) i
  if t = 0 then (c : Int) else intValue t c

/-- The virtual address of element `i` in a bank (13:R292). -/
def FarOp.va (p : FarOp) (e : VEnv) (x : Bank) (i : Nat) : Word :=
  let k : Int := match p.b with | some b => farIndex e x b i | none => (i : Int)
  (x.getX p.x).val + p.off.signExtend 64 + BitVec.ofInt 64 (k * ((p.bytes : Nat) : Int))

/-- The element width of the data registers (13:R293). -/
def FarOp.w (p : FarOp) : Nat := 8 * p.bytes

/-- The checks that precede the pre-probe (13:R292, R293): tags by operand position, lengths, the write permission of wd's row. -/
def FarOp.check (p : FarOp) (e : VEnv) (s : State) (j bk : Nat) : Except VFail Unit :=
  let x := s.bank bk
  let data (k : Option (Fin 16)) (pos : Nat) : List (Option VFail) :=
    k.toList.map (fun k => if p.tagOk x.w[k].tag then none else some (tagFail j k x.w[k].tag pos))
  let index : List (Option VFail) :=
    p.b.toList.map (fun k => if x.w[k].tag = 0 || isIntTag x.w[k].tag then none else some (tagFail j k x.w[k].tag 2))
  let len (k : Option (Fin 16)) : List (Option VFail) := k.toList.map (fun k => lenCheck e j k p.w)
  let ilen : List (Option VFail) := p.b.toList.map (fun k => lenCheck e j k (farIdxWidth e x.w[k].tag))
  let wp : List (Option VFail) := if p.ret then p.d.toList.map (fun k => wpCheck e s j bk k) else []
  match firstFail (data p.d 0 ++ data p.a 1 ++ index ++ len p.d ++ len p.a ++ ilen ++ wp) with
  | some f => .error f
  | none => .ok ()

/-- The local sources of an element: register, word of its latch, operand position (13:R296). -/
def FarOp.sources (p : FarOp) (e : VEnv) (x : Bank) (i : Nat) : List (Fin 16 × Nat × Nat) :=
  (if p.cmp then p.d.toList.map (fun k => (k, elemWord p.w i, 0)) else []) ++ p.a.toList.map (fun k => (k, elemWord p.w i, 1)) ++
    p.b.toList.map (fun k => (k, elemWord (farIdxWidth e x.w[k].tag) i, 2))

/-- The words of the local source registers that a bank reads (07:R146, 13:R295). -/
def FarOp.reads (p : FarOp) (e : VEnv) (x : Bank) : List Reads :=
  let els := List.range e.vl
  (if p.cmp then p.d.toList.map (fun k => (k, beatsOf p.w els)) else []) ++ p.a.toList.map (fun k => (k, beatsOf p.w els)) ++
    p.b.toList.map (fun k => (k, beatsOf (farIdxWidth e x.w[k].tag) els))

/-- Some local source word of an element is poisoned. -/
def FarOp.tainted (p : FarOp) (e : VEnv) (x : Bank) (i : Nat) : Bool := (p.sources e x i).any (fun q => latchBad x.w[q.1].poison q.2.1)

/-- Where a far operation stops: element, logical bank, cause, TRAPVAL, and the poison to record. -/
structure FarStop where
  elem : Nat
  j : Nat
  cause : BitVec 8
  val : Word
  poison : Option VPoison

/-- The smallest stop, in the lowest bank that has it (13:R294, R296). -/
def leastStop : List (Option FarStop) → Option FarStop
  | [] => none
  | none :: t => leastStop t
  | some h :: t =>
    match leastStop t with
    | some g => if g.elem < h.elem then some g else some h
    | none => some h

/-- The local poison that stops an element, those words apart that VPOISON's element needs (13:R296, 21:R452). -/
def FarOp.poisonStop (p : FarOp) (e : VEnv) (s : State) (j bk i : Nat) : Option FarStop :=
  let x := s.bank bk
  let v := s.front.vpoison
  let ex := if v.v then p.sources e x v.elem.toNat else []
  ((p.sources e x i).find? (fun q => latchBad x.w[q.1].poison q.2.1 && !(ex.any (fun r => r.1 == q.1 && r.2.1 == q.2.1)))).map (fun q =>
    ⟨i, j, cPoison, poisonVal ⟨i, j, q.1, q.2.2⟩, some ⟨true, BitVec.ofNat 4 q.1.val, BitVec.ofNat 2 q.2.2, BitVec.ofNat 15 i⟩⟩)

/-- An element whose address has passed the pre-probe. -/
structure FarElem where
  i : Nat
  va : Word
  x : Xlat
  pa : Nat

/-- The address checks of one element (13:R294). -/
def FarOp.probeOne (p : FarOp) (e : VEnv) (s : State) (bk i : Nat) : State × Except (BitVec 8) FarElem :=
  let va := p.va e (s.bank bk) i
  if va.toNat / 2 ^ 52 ≠ 0 then (s, .error cPage)
  else if va.toNat % p.bytes ≠ 0 then (s, .error cAlign)
  else
    match dataAddr s (s.rowAsker bk) s.thr.root s.level va.toNat p.bytes p.need false false with
    | (s, .error c) => (s, .error c)
    | (s, .ok (x, pa)) => if windowOf pa = .dram then (s, .ok ⟨i, va, x, pa⟩) else (s, .error cAccess)

/-- The pre-probe of a bank: its elements in ascending order up to the first that stops (13:R294, R296). The pages of the later ones are looked up
and walked all the same (19:R424, R426). -/
def FarOp.probe (p : FarOp) (e : VEnv) (j bk : Nat) : List Nat → State → State × List FarElem × Option FarStop
  | [], s => (s, [], none)
  | i :: t, s =>
    match p.poisonStop e s j bk i with
    | some h => ((p.probe e j bk t s).1, [], some h)
    | none =>
      match p.probeOne e s bk i with
      | (s, .error c) => ((p.probe e j bk t s).1, [], some ⟨i, j, c, p.va e (s.bank bk) i, none⟩)
      | (s, .ok z) =>
        let r := p.probe e j bk t s
        (r.1, z :: r.2.1, r.2.2)

/-- The pre-probe of every bank. -/
def FarOp.probeAll (p : FarOp) (e : VEnv) : List (Nat × Nat) → State → State × List (Nat × Nat × List FarElem) × List (Option FarStop)
  | [], s => (s, [], [])
  | (j, bk) :: t, s =>
    let r := p.probe e j bk (activeIdx e (s.bank bk) p.m 1) s
    let q := p.probeAll e t r.1
    (q.1, (j, bk, r.2.1) :: q.2.1, r.2.2 :: q.2.2)

/-- Applies the posted elements that an access of a bank must follow: those of the bank to the same destination bank, and those of the thread
to the same word (14:R310, R312). -/
def applyEarlier (s : State) (bk pa : Nat) : State :=
  (List.range s.posted.length).foldl (fun acc n =>
    match acc.posted[n]? with
    | some p =>
      if p.thread = acc.tid ∧ ((p.bank = bk ∧ p.pa / 2 ^ 27 = pa / 2 ^ 27) ∨ p.pa / 8 = pa / 8) then applyPosted acc n else acc
    | none => acc) s

/-- What an element has brought back: its index, the value, whether poisoned bits formed it, the target's 32-byte word if it is poisoned. -/
structure FarVal where
  i : Nat
  code : Nat
  bad : Bool
  word : Option Nat

/-- What the elements of a bank have brought back: values, lost elements, flags. -/
structure FarBack where
  vals : List FarVal
  lost : List Nat
  flags : BitVec 5

/-- Sends one element (13:R295, R297, R299, R300): a load reads, an operation is applied, a posted one only leaves the bank. `group` numbers the
instruction among the posted ones. -/
def FarOp.send (p : FarOp) (e : VEnv) (group bk : Nat) (z : State × FarBack) (el : FarElem) : State × FarBack :=
  let s := z.1
  let x := s.bank bk
  let bad := p.tainted e x el.i
  let el1 (k : Option (Fin 16)) : Nat := match k with | some k => getEl x.w[k].latch p.w el.i | none => 0
  let fmt : BitVec 4 := match p.a with | some k => x.w[k].tag | none => 0
  if p.load then
    let r := dramRead (applyEarlier s bk el.pa) el.pa p.bytes false
    (r.1, { z.2 with vals := z.2.vals ++ [⟨el.i, r.2.1, r.2.2 || bad, if r.2.2 then some (el.pa / 32) else none⟩] })
  else if p.nr && !bad then
    let q : Posted := { thread := s.tid, group := group, bank := bk, pa := el.pa, leaf := el.x.mark el.pa, bytes := p.bytes, op := p.op,
                        v := BitVec.ofNat 64 (el1 p.a), c := BitVec.ofNat 64 (el1 (if p.cmp then p.d else none)), fmt := fmt,
                        applied := false, flags := 0, lost := false }
    ({ s with posted := s.posted ++ [q] }, z.2)
  else
    let t := applyAt (applyEarlier s bk el.pa) el.pa p.bytes p.op fmt (el1 p.a) (el1 (if p.cmp then p.d else none)) false (el.x.mark el.pa)
    let st := if bad && !t.lost then poisonWord t.st el.pa else t.st
    (st, { vals := if p.ret && !t.lost then z.2.vals ++ [⟨el.i, t.old, bad, none⟩] else z.2.vals,
           lost := if t.lost then z.2.lost ++ [el.i] else z.2.lost, flags := z.2.flags ||| t.flags })

/-- Sends a bank's elements below `stop`, in ascending order. -/
def FarOp.sendBank (p : FarOp) (e : VEnv) (group bk stop : Nat) (els : List FarElem) (s : State) : State × FarBack :=
  (els.filter (fun el => decide (el.i < stop))).foldl (p.send e group bk) (s, ⟨[], [], 0⟩)

/-- Writes what came back below `stop` into wd and raises the flags of the sums (13:R295, R298); an element that was to be posted and was lost is
reported in its bank (13:R296). -/
def FarOp.writeBack (p : FarOp) (bk stop : Nat) (r : FarBack) (s : State) : State :=
  let x := s.bank bk
  let vals := r.vals.filter (fun v => decide (v.i < stop))
  let rows := match p.d with
    | some d =>
      if p.ret && !vals.isEmpty then
        [(d, vals.foldl (fun (z : RowEdit) v => z.put p.w v.i v.code v.bad) ⟨x.w[d].latch, 0, 0⟩)]
      else []
    | none => []
  let s := applyEdits s bk { Edits.start x with rows := rows, flags := r.flags }
  if p.nr && !r.lost.isEmpty then s.setBank bk { s.bank bk with ploss := true } else s

/-- The address of an element of a bank, for TRAPVAL. -/
def FarOp.vaOf (p : FarOp) (e : VEnv) (s : State) (j i : Nat) : Word :=
  match e.banks.find? (fun b => b.1 == j) with
  | some b => p.va e (s.bank b.2) i
  | none => 0

/-- What a far operation has done in a bank: logical bank, bank, the elements it probed, what they brought back. -/
structure FarDone where
  j : Nat
  bk : Nat
  els : List FarElem
  back : FarBack

/-- The poisoned target word that stops a load in a bank, those of VPOISON's element apart (13:R296, 21:R452). -/
def FarOp.memStop (p : FarOp) (e : VEnv) (s : State) (d : FarDone) : Option FarStop :=
  let v := s.front.vpoison
  let ex : Option Nat := if v.v then (d.els.find? (fun el => el.i == v.elem.toNat)).map (fun el => el.pa / 32) else none
  if !p.load then none
  else (d.back.vals.find? (fun (q : FarVal) => q.word.isSome && decide (q.word ≠ ex))).map (fun (q : FarVal) =>
    (⟨q.i, d.j, cPoison, p.vaOf e s d.j q.i, some ⟨true, 0, 0, BitVec.ofNat 15 q.i⟩⟩ : FarStop))

/-- The lowest element that the instruction has lost to a poisoned target, before an earlier stop or now (13:R296). -/
def FarOp.lostNow (p : FarOp) (e : VEnv) (s : State) (l : List FarDone) : Option (Nat × Word) :=
  let before := if e.vstart = 0 then none else s.front.lost
  match before, leastStop (l.map (fun d => d.back.lost.head?.map (fun i => ⟨i, d.j, cPoison, p.vaOf e s d.j i, none⟩))) with
  | some n, _ => some n
  | none, some h => some (h.elem, h.val)
  | none, none => none

/-- Ends a far operation whose every element is complete: an element lost without nr raises the poison trap after it (13:R296). -/
def FarOp.finish (p : FarOp) (e : VEnv) (lost : Option (Nat × Word)) (s : State) : Out :=
  let s := s.setFront { s.front with lost := none }
  match p.nr, lost with
  | false, some h =>
    trapAfter e ⟨cPoison, h.2, true, true⟩ (s.setFront { s.front with vpoison := ⟨true, 0, 0, BitVec.ofNat 15 h.1⟩ })
  | _, _ => vdone e s

/-- An invalidation has stopped the instruction at VSTART: it goes on there with a fresh pre-probe, and takes no trap (13:R295). -/
def FarOp.again (e : VEnv) (n : Nat) (s : State) : Out :=
  let s := if e.vstart < n then s.setFront s.front.going else s
  .next { holdHead e (s.setVstart n) with vrun := false }

/-- Sends what the pre-probe allows, up to the stop of a hard pre-emption or an invalidation, and ends or stops the instruction (13:R294-R296,
R308). -/
def FarOp.sendAll (p : FarOp) (e : VEnv) (els : List (Nat × Nat × List FarElem)) (hit : Option FarStop) (s : State) : Out :=
  let probed := match hit with | some h => h.elem | none => e.live
  let within (n : Option Nat) : Option Nat := (n.map (fun n => e.vstart + n)).filter (fun n => decide (n < e.live ∧ n ≤ probed))
  let cut := within s.stopAfter
  let again := within s.farStop
  let sendTo := Nat.min (cut.getD probed) (again.getD probed)
  let d := s.draw
  let got := els.foldl (fun (acc : State × List FarDone) b =>
    let r := p.sendBank e d.1 b.2.1 sendTo b.2.2 acc.1
    (r.1, acc.2 ++ [⟨b.1, b.2.1, b.2.2, r.2⟩])) (d.2, [])
  let s := got.1
  let mem := leastStop (got.2.map (p.memStop e s))
  let stop := match mem with | some h => h.elem | none => sendTo
  let lost := p.lostNow e s got.2
  let s := got.2.foldl (fun acc b => p.writeBack b.bk stop b.back acc) s
  let s := clearPoisonV s (ranTo e.vstart stop)
  let keep (s : State) : State := s.setFront { s.front with lost := lost }
  if mem.isNone && decide (cut = some stop) then stopVector e ((keep s).setVstart stop)
  else if mem.isNone && decide (again = some stop) then FarOp.again e stop (keep s)
  else
    match mem.or hit with
    | none => p.finish e lost s
    | some h => trapVector e ⟨h.cause, h.val, true, false⟩
        (keep (s.setFront { s.front with vstart := BitVec.ofNat 15 h.elem, vpoison := h.poison.getD s.front.vpoison }))

/-- Runs a far operation (13:R291-R298, R308). -/
def FarOp.run (p : FarOp) (e : VEnv) (s : State) : Out :=
  match bankResMiss s e.banks p.x 0 with
  | some b => trapBankRes e p.x b s
  | none =>
    match checkBanks (p.check e s) e.banks with
    | .error f => trapCheck e f s
    | .ok _ =>
      let regs := p.d.toList ++ p.a.toList ++ p.b.toList
      let s := (e.banks.flatMap (fun b => regs.map (fun k => (b.2, k)))).foldl (fun acc q => touchW acc q.1 q.2) (s.setVstart e.vstart)
      let s := lanesRead s (e.banks.map (fun b => (b.2, p.reads e (s.bank b.2))))
      let s := if 2 ≤ p.ord then (match s.cur.bank with | none => flushPosted s s.tid | some j => flushBank s s.tid (s.ownBank j)) else s
      let pr := p.probeAll e e.banks s
      p.sendAll e pr.2.1 (leastStop pr.2.2) pr.1

/-! ### The instructions -/

/-- The tags that a data register may carry (13:R293). -/
def farTag (bytes : Nat) (t : BitVec 4) : Bool := t = 0 || (t ≠ 15 && decide (tagWidth t = 8 * bytes))

/-- The tags of FAR.SCADD's data (13:R293). -/
def scaddTag (bytes : Nat) (t : BitVec 4) : Bool :=
  decide ((1 ≤ t.toNat ∧ t.toNat ≤ 5) ∨ (9 ≤ t.toNat ∧ t.toNat ≤ 12)) && decide (tagWidth t = 8 * bytes)

/-- The tags of the integer atomics' data (13:R293). -/
def fatomTag (bytes : Nat) (t : BitVec 4) : Bool := t = 0 || ((t = 4 || t = 5) && decide (tagWidth t = 8 * bytes))

/-- The tags of FAR.FADD's data (13:R293). -/
def faddTag (t : BitVec 4) : Bool := t = 0 || t = 11

/-- FAR.LD (13:R299). -/
def execFarLd (d : Fin 16) (x : Fin 32) (off : BitVec 20) (esz ord : Fin 4) (sc : Fin 8) (m : Fin 16) (s : State) : Out :=
  FarOp.run { bytes := 2 ^ esz.val, load := true, op := 0, d := some d, ret := true, cmp := false, a := none, b := none, x := x, off := off,
              ord := ord.val, nr := false, m := m, tagOk := farTag (2 ^ esz.val), need := ⟨true, false, false⟩ }
    (s.venv (.farLd d x off esz ord sc m) 8 0 0) s

/-- FAR.ST (13:R299). -/
def execFarSt (a : Fin 16) (x : Fin 32) (off : BitVec 20) (esz ord : Fin 4) (sc : Fin 8) (nr : Bool) (m : Fin 16) (s : State) : Out :=
  FarOp.run { bytes := 2 ^ esz.val, load := false, op := 0, d := none, ret := false, cmp := false, a := some a, b := none, x := x, off := off,
              ord := ord.val, nr := nr, m := m, tagOk := farTag (2 ^ esz.val), need := ⟨false, true, false⟩ }
    (s.venv (.farSt a x off esz ord sc nr m) 8 0 0) s

/-- FAR.GATHER (13:R299). -/
def execFarGather (d : Fin 16) (x : Fin 32) (off : BitVec 20) (b : Fin 16) (esz ord : Fin 4) (sc : Fin 8) (m : Fin 16) (s : State) : Out :=
  FarOp.run { bytes := 2 ^ esz.val, load := true, op := 0, d := some d, ret := true, cmp := false, a := none, b := some b, x := x, off := off,
              ord := ord.val, nr := false, m := m, tagOk := farTag (2 ^ esz.val), need := ⟨true, false, false⟩ }
    (s.venv (.farGather d x off b esz ord sc m) 8 0 0) s

/-- FAR.SCATTER (13:R299): the highest element index writes last. -/
def execFarScatter (a : Fin 16) (x : Fin 32) (off : BitVec 20) (b : Fin 16) (esz ord : Fin 4) (sc : Fin 8) (nr : Bool) (m : Fin 16) (s : State) :
    Out :=
  FarOp.run { bytes := 2 ^ esz.val, load := false, op := 0, d := none, ret := false, cmp := false, a := some a, b := some b, x := x, off := off,
              ord := ord.val, nr := nr, m := m, tagOk := farTag (2 ^ esz.val), need := ⟨false, true, false⟩ }
    (s.venv (.farScatter a x off b esz ord sc nr m) 8 0 0) s

/-- FAR.SCADD (13:R299). -/
def execFarScadd (a : Fin 16) (x : Fin 32) (off : BitVec 20) (b : Fin 16) (esz ord : Fin 4) (sc : Fin 8) (nr : Bool) (m : Fin 16) (s : State) :
    Out :=
  FarOp.run { bytes := 2 ^ esz.val, load := false, op := 1, d := none, ret := false, cmp := false, a := some a, b := some b, x := x, off := off,
              ord := ord.val, nr := nr, m := m, tagOk := scaddTag (2 ^ esz.val), need := ⟨true, true, true⟩ }
    (s.venv (.farScadd a x off b esz ord sc nr m) 8 0 0) s

/-- A far atomic (13:R300): wd holds the old values when nr = 0, and the compare values of FAR.CAS in both forms. -/
def runFatom (i : Instr) (op : Nat) (cas : Bool) (tagOk : BitVec 4 → Bool) (d a : Fin 16) (x : Fin 32) (off : BitVec 20) (b : Fin 16)
    (esz ord : Fin 4) (nr : Bool) (m : Fin 16) (s : State) : Out :=
  FarOp.run { bytes := 2 ^ esz.val, load := false, op := op, d := if nr && !cas then none else some d, ret := !nr, cmp := cas, a := some a,
              b := some b, x := x, off := off, ord := ord.val, nr := nr, m := m, tagOk := tagOk, need := ⟨true, true, true⟩ }
    (s.venv i 8 0 0) s

/-- FAR.ADD (13:R300): (old + v) mod 2^w. -/
def execFarAdd (d a : Fin 16) (x : Fin 32) (off : BitVec 20) (b : Fin 16) (esz ord : Fin 4) (sc : Fin 8) (nr : Bool) (m : Fin 16) (s : State) : Out :=
  runFatom (.farAdd d a x off b esz ord sc nr m) 16 false (fatomTag (2 ^ esz.val)) d a x off b esz ord nr m s

/-- FAR.FADD (13:R300): Round(old + v, FP32, RNE). -/
def execFarFadd (d a : Fin 16) (x : Fin 32) (off : BitVec 20) (b : Fin 16) (esz ord : Fin 4) (sc : Fin 8) (nr : Bool) (m : Fin 16) (s : State) : Out :=
  runFatom (.farFadd d a x off b esz ord sc nr m) 17 false faddTag d a x off b esz ord nr m s

/-- FAR.MIN (13:R300): the lesser, signed. -/
def execFarMin (d a : Fin 16) (x : Fin 32) (off : BitVec 20) (b : Fin 16) (esz ord : Fin 4) (sc : Fin 8) (nr : Bool) (m : Fin 16) (s : State) : Out :=
  runFatom (.farMin d a x off b esz ord sc nr m) 18 false (fatomTag (2 ^ esz.val)) d a x off b esz ord nr m s

/-- FAR.MAX (13:R300): the greater, signed. -/
def execFarMax (d a : Fin 16) (x : Fin 32) (off : BitVec 20) (b : Fin 16) (esz ord : Fin 4) (sc : Fin 8) (nr : Bool) (m : Fin 16) (s : State) : Out :=
  runFatom (.farMax d a x off b esz ord sc nr m) 19 false (fatomTag (2 ^ esz.val)) d a x off b esz ord nr m s

/-- FAR.MINU (13:R300): the lesser, unsigned. -/
def execFarMinu (d a : Fin 16) (x : Fin 32) (off : BitVec 20) (b : Fin 16) (esz ord : Fin 4) (sc : Fin 8) (nr : Bool) (m : Fin 16) (s : State) : Out :=
  runFatom (.farMinu d a x off b esz ord sc nr m) 20 false (fatomTag (2 ^ esz.val)) d a x off b esz ord nr m s

/-- FAR.MAXU (13:R300): the greater, unsigned. -/
def execFarMaxu (d a : Fin 16) (x : Fin 32) (off : BitVec 20) (b : Fin 16) (esz ord : Fin 4) (sc : Fin 8) (nr : Bool) (m : Fin 16) (s : State) : Out :=
  runFatom (.farMaxu d a x off b esz ord sc nr m) 21 false (fatomTag (2 ^ esz.val)) d a x off b esz ord nr m s

/-- FAR.AND (13:R300): old AND v. -/
def execFarAnd (d a : Fin 16) (x : Fin 32) (off : BitVec 20) (b : Fin 16) (esz ord : Fin 4) (sc : Fin 8) (nr : Bool) (m : Fin 16) (s : State) : Out :=
  runFatom (.farAnd d a x off b esz ord sc nr m) 22 false (fatomTag (2 ^ esz.val)) d a x off b esz ord nr m s

/-- FAR.OR (13:R300): old OR v. -/
def execFarOr (d a : Fin 16) (x : Fin 32) (off : BitVec 20) (b : Fin 16) (esz ord : Fin 4) (sc : Fin 8) (nr : Bool) (m : Fin 16) (s : State) : Out :=
  runFatom (.farOr d a x off b esz ord sc nr m) 23 false (fatomTag (2 ^ esz.val)) d a x off b esz ord nr m s

/-- FAR.XOR (13:R300): old XOR v. -/
def execFarXor (d a : Fin 16) (x : Fin 32) (off : BitVec 20) (b : Fin 16) (esz ord : Fin 4) (sc : Fin 8) (nr : Bool) (m : Fin 16) (s : State) : Out :=
  runFatom (.farXor d a x off b esz ord sc nr m) 24 false (fatomTag (2 ^ esz.val)) d a x off b esz ord nr m s

/-- FAR.SWAP (13:R300): v. -/
def execFarSwap (d a : Fin 16) (x : Fin 32) (off : BitVec 20) (b : Fin 16) (esz ord : Fin 4) (sc : Fin 8) (nr : Bool) (m : Fin 16) (s : State) : Out :=
  runFatom (.farSwap d a x off b esz ord sc nr m) 25 false (fatomTag (2 ^ esz.val)) d a x off b esz ord nr m s

/-- FAR.CAS (13:R300): v if old = c, else old. -/
def execFarCas (d a : Fin 16) (x : Fin 32) (off : BitVec 20) (b : Fin 16) (esz ord : Fin 4) (sc : Fin 8) (nr : Bool) (m : Fin 16) (s : State) : Out :=
  runFatom (.farCas d a x off b esz ord sc nr m) 26 true (fatomTag (2 ^ esz.val)) d a x off b esz ord nr m s

end Sys2Proof.Machine
end

