-- ==== Sys2Proof/Machine/Gallery.lean ====
section
/-!
DEFINITION. Gallery operations (12:R264-R266, 13:R287-R290).
-/

namespace Sys2Proof.Machine

/-- The checks of a gallery operation in a bank (13:R288): format, tags, lengths, and the write permission of a receiver. -/
def galCheck (e : VEnv) (s : State) (fmtOk : BitVec 4 → Bool) (receives : Bool) (d a : Fin 16) (j bk : Nat) : Option VFail :=
  let x := s.bank bk
  let f := e.ctx.vlcfg.fmt
  let tag (k : Fin 16) (pos : Nat) : Option VFail := if x.w[k].tag = f ∨ x.w[k].tag = 0 then none else some (tagFail j k x.w[k].tag pos)
  firstFail [if fmtOk f then none else some (fmtFail j f), tag d 0, tag a 1, lenCheck e j d (fmtWidth f), lenCheck e j a (fmtWidth f),
    if receives then wpCheck e s j bk d else none]

/-- The elements active in a bank under the mask (07:R151, 13:R289). -/
def galActive (e : VEnv) (x : Bank) (m : Fin 16) : List Nat := activeIdx e x m (granule (fmtWidth e.ctx.vlcfg.fmt))

/-- The executing banks with their positions. -/
def galPositions (e : VEnv) : List (Nat × (Nat × Nat)) := enumFrom 0 e.banks

/-- The first failing check over the banks. -/
def galFail (e : VEnv) (s : State) (fmtOk : BitVec 4 → Bool) (receives : Nat → Bool) (d a : Fin 16) : Option VFail :=
  firstFail ((galPositions e).map (fun p => galCheck e s fmtOk (receives p.1) d a p.2.1 p.2.2))

/-- The least poisoned element of wa among those that a bank's registers must supply (13:R290), the words of VPOISON's element apart (21:R452). -/
def galHit (e : VEnv) (s : State) (a : Fin 16) (j bk : Nat) (els : List Nat) : Option PoisonHit :=
  let w := fmtWidth e.ctx.vlcfg.fmt
  let x := s.bank bk
  let v := s.front.vpoison
  (els.find? (fun i => latchBad x.w[a].poison (elemWord w i) &&
    !(v.v && decide (elemWord w i = elemWord w v.elem.toNat)))).map (fun i => ⟨i, j, a, 1⟩)

/-- Waits for the latches that the operation touches; the lanes read the elements of wa. -/
def galTouch (e : VEnv) (d a : Fin 16) (s : State) : State :=
  lanesRead (e.banks.foldl (fun acc p => touchW (touchW acc p.2 a) p.2 d) s)
    (e.banks.map (fun p => (p.2, [(a, beatsOf (fmtWidth e.ctx.vlcfg.fmt) (List.range e.vl))])))

/-- A move: what position p receives from, given the banks at their positions: none leaves it unchanged, `some none` writes zeros
(12:R265, 13:R289). -/
def runGalMove (e : VEnv) (d a m : Fin 16) (src : State → Nat → Nat → Option (Option Nat)) (s : State) : Out :=
  let nb := e.banks.length
  let s0 := s
  match galFail e s (fun f => decide (f ≠ 15)) (fun p => ((e.banks[p]?).map (fun b => (src s0 p b.2).isSome)).getD false) d a with
  | some f => trapCheck e f s
  | none =>
    let s := galTouch e d a (s.setVstart e.vstart)
    let w := fmtWidth e.ctx.vlcfg.fmt
    let at' (q : Nat) : Nat × Nat := (e.banks[q]?).getD (0, 0)
    let jobs := (galPositions e).filterMap (fun p => (src s p.1 p.2.2).map (fun q => (p.2.2, q, galActive e (s.bank p.2.2) m)))
    let hit := leastHit (jobs.map (fun t => match t.2.1 with
      | some q => if q < nb then galHit e s a (at' q).1 (at' q).2 t.2.2 else none
      | none => none))
    beforeWhole e hit (fun s =>
      let edits := jobs.map (fun t =>
        let x := s.bank t.1
        let r := t.2.2.foldl (fun (r : RowEdit) i =>
          match t.2.1 with
          | some q =>
            let y := (s.bank (at' q).2).w[a]
            r.put w i (getEl y.latch w i) (latchBad y.poison (elemWord w i))
          | none => r.put w i 0 false) ⟨x.w[d].latch, 0, 0⟩
        (t.1, if t.2.2.isEmpty then Edits.start x else { Edits.start x with rows := [(d, r)] }))
      vdone e (clearPoisonV (edits.foldl (fun acc p => applyEdits acc p.1 p.2) s) (fun i => jobs.any (fun t => t.2.2.contains i)))) s

/-- GROT (13:R287): rotate by n. -/
def execGrot (d a : Fin 16) (n : BitVec 8) (m : Fin 16) (s : State) : Out :=
  let e := s.venv (.grot d a n m) 4 0 0
  let nb := e.banks.length
  runGalMove e d a m (fun _ p _ => some (some ((p + nb - n.toNat % nb) % nb))) s

/-- GBCAST (13:R287): from position q, or zeros. -/
def execGbcast (d a : Fin 16) (q : BitVec 8) (m : Fin 16) (s : State) : Out :=
  let e := s.venv (.gbcast d a q m) 4 0 0
  runGalMove e d a m (fun _ _ _ => some (if q.toNat < e.banks.length then some q.toNat else none)) s

/-- GPERM (13:R287): by the table in xt of each bank. -/
def execGperm (d a : Fin 16) (x : Fin 32) (m : Fin 16) (s : State) : Out :=
  let e := s.venv (.gperm d a x m) 4 0 0
  runGalMove e d a m (fun s _ b =>
    let t := ((s.bank b).getX x).val.toNat
    some (if t < e.banks.length then some t else none)) s

/-- GXCH (13:R287): with the partner at distance d, if it exists. -/
def execGxch (d a : Fin 16) (n : BitVec 8) (m : Fin 16) (s : State) : Out :=
  let e := s.venv (.gxch d a n m) 4 0 0
  runGalMove e d a m (fun _ p _ => if p ^^^ n.toNat < e.banks.length then some (some (p ^^^ n.toNat)) else none) s

/-! ### Reduce -/

/-- Comb of two positions, element by element in ascending order (12:R266, 13:R289). -/
def combRows (f : BitVec 32 → Nat → Nat → Rounded) : RedSt → List (Option Nat) → List (Option Nat) → RedSt × List (Option Nat)
  | z, a :: as, b :: bs =>
    let r := comb f z a b
    let q := combRows f r.1 as bs
    (q.1, r.2 :: q.2)
  | z, _, _ => (z, [])

/-- One level of the tree of 12:R266. -/
def gredLevel (f : BitVec 32 → Nat → Nat → Rounded) : RedSt → List (List (Option Nat)) → RedSt × List (List (Option Nat))
  | z, a :: b :: t =>
    let r := combRows f z a b
    let q := gredLevel f r.1 t
    (q.1, r.2 :: q.2)
  | z, l => (z, l)

/-- The tree of 12:R266 down to position 0. -/
def gredTree (f : BitVec 32 → Nat → Nat → Rounded) : Nat → RedSt → List (List (Option Nat)) → RedSt × List (Option Nat)
  | 0, z, l => (z, l.headD [])
  | n + 1, z, l =>
    if l.length ≤ 1 then (z, l.headD [])
    else
      let r := gredLevel f z l
      gredTree f n r.1 r.2

/-- What an arithmetic reduce writes of an element that one position alone supplies: a NaN becomes the canonical one, a subnormal that FTZ flushes
a zero (06:R132, R133). -/
def soloCode (t : BitVec 4) (c : RCtl) (code : Nat) : Nat × BitVec 5 :=
  if !isFloatTag t then (code, 0)
  else
    match fdecode t c.ftz code with
    | .nan g => (canonNaN t, FReal.sig (.nan g))
    | .fin neg 0 _ _ => (b2n neg * 2 ^ (tagWidth t - 1), 0)
    | _ => (code, 0)

/-- A gallery reduce (12:R266, 13:R289): the combining operation of the format, and what position 0 writes where every source is absent. -/
def runGred (e : VEnv) (d a m : Fin 16) (fmtOk : BitVec 4 → Bool) (f : BitVec 4 → RCtl → BitVec 32 → Nat → Nat → Rounded)
    (solo : BitVec 4 → RCtl → Nat → Nat × BitVec 5) (absent : Option Nat) (s : State) : Out :=
  match galFail e s fmtOk (fun p => p == 0) d a with
  | some v => trapCheck e v s
  | none =>
    let s := galTouch e d a (s.setVstart e.vstart)
    let w := fmtWidth e.ctx.vlcfg.fmt
    match e.banks with
    | [] => vdone e s
    | (_, b0) :: _ =>
      let act0 := galActive e (s.bank b0) m
      let need (b : Nat) : List Nat := (galActive e (s.bank b) m).filter (fun i => act0.contains i)
      beforeWhole e (leastHit (e.banks.map (fun p => galHit e s a p.1 p.2 (need p.2)))) (fun s =>
        let vals := e.banks.map (fun p =>
          let x := s.bank p.2
          let on := galActive e x m
          (List.range e.live).map (fun i => if on.contains i then some (getEl x.w[a].latch w i) else none))
        let c := s.rctl 0 false
        let r := gredTree (f e.ctx.vlcfg.fmt c) 8 ⟨0, (s.bank b0).lfsr⟩ vals
        let got (i : Nat) : Option (Nat × BitVec 5) := match (r.2[i]?).getD none with
          | some v => some (if (vals.filter (fun l => ((l[i]?).getD none).isSome)).length = 1 then solo e.ctx.vlcfg.fmt c v else (v, 0))
          | none => absent.map (fun v => (v, 0))
        let z := act0.foldl (fun (z : RowEdit × BitVec 5) i => match got i with | some v => (z.1.put w i v.1 false, z.2 ||| v.2) | none => z)
          (⟨(s.bank b0).w[d].latch, 0, 0⟩, r.1.flags)
        let bad := e.banks.any (fun p => (need p.2).any (fun i => latchBad (s.bank p.2).w[a].poison (elemWord w i)))
        let wrote := act0.any (fun i => (got i).isSome)
        vdone e (clearPoisonV (applyEdits s b0
          { rows := if wrote then [(d, z.1)] else [], masks := [], flags := z.2, lfsr := r.1.lfsr, unmarked := bad }) (fun i => act0.contains i))) s

/-- A logic reduce writes what the one position supplies. -/
def soloBits (_t : BitVec 4) (_c : RCtl) (code : Nat) : Nat × BitVec 5 := (code, 0)

/-- The formats of GRED.SUM, GRED.MIN and GRED.MAX (13:R288). -/
def gredArith (f : BitVec 4) : Bool := isIntTag f || isFloatTag f

/-- The formats of GRED.AND, GRED.OR and GRED.XOR (13:R288). -/
def gredLogic (f : BitVec 4) : Bool := isIntTag f || decide (f = 0)

/-- GRED.SUM (13:R287): an all-absent sum is +0. -/
def execGredSum (d a m : Fin 16) (s : State) : Out := runGred (s.venv (.gredSum d a m) 4 0 0) d a m gredArith combAdd soloCode (some 0) s

/-- GRED.MIN (13:R287). -/
def execGredMin (d a m : Fin 16) (s : State) : Out := runGred (s.venv (.gredMin d a m) 4 0 0) d a m gredArith (minmaxCode false) soloCode none s

/-- GRED.MAX (13:R287). -/
def execGredMax (d a m : Fin 16) (s : State) : Out := runGred (s.venv (.gredMax d a m) 4 0 0) d a m gredArith (minmaxCode true) soloCode none s

/-- GRED.AND (13:R287). -/
def execGredAnd (d a m : Fin 16) (s : State) : Out :=
  runGred (s.venv (.gredAnd d a m) 4 0 0) d a m gredLogic (fun _ _ l x y => plainRes (x &&& y) l) soloBits none s

/-- GRED.OR (13:R287). -/
def execGredOr (d a m : Fin 16) (s : State) : Out :=
  runGred (s.venv (.gredOr d a m) 4 0 0) d a m gredLogic (fun _ _ l x y => plainRes (x ||| y) l) soloBits none s

/-- GRED.XOR (13:R287). -/
def execGredXor (d a m : Fin 16) (s : State) : Out :=
  runGred (s.venv (.gredXor d a m) 4 0 0) d a m gredLogic (fun _ _ l x y => plainRes (x ^^^ y) l) soloBits none s

end Sys2Proof.Machine
end

