-- ==== Sys2Proof/Machine/Loader.lean ====
section
/-!
DEFINITION. The load verifier: object submissions, registered kernel descriptors, GEL installs, and the revocation that an advance of the fuse
counter brings (02:R60-R63, 22:R466-R477).
-/

namespace Sys2Proof.Machine

/-- Verifier statuses (22:R466). -/
def vsOk : Nat := 0x01
def vsBadObj : Nat := 0x10
def vsAuth : Nat := 0x11
def vsRevoked : Nat := 0x12
def vsWrongLen : Nat := 0x13
def vsBadRev : Nat := 0x14

/-- The little-endian field of `n` bytes at an offset. -/
def leAt (l : List Byte) (off n : Nat) : Nat := bytesToNat ((l.drop off).take n)

/-- The `n` bytes at an offset. -/
def sliceAt (l : List Byte) (off n : Nat) : List Byte := (l.drop off).take n

/-- A table of `n` entries of `size` bytes at `off` lies inside the object, after its header; one that is not empty and starts in the header is
refused (DESIGN CHOICE, log 125). -/
def tableIn (l : List Byte) (off n size : Nat) : Bool := n == 0 || decide (64 ≤ off ∧ off + n * size ≤ l.length)

/-! ### Tables of an object -/

/-- A section-table entry (02:R61). -/
structure ObjSection where
  type : Nat
  flags : Nat
  size : Nat
  file : Nat
  deriving DecidableEq, Repr

/-- A symbol-table entry (02:R61). -/
structure Symbol where
  section_ : Nat
  kind : Nat
  pad : Nat
  value : Nat
  deriving DecidableEq, Repr

/-- A relocation entry (02:R61). -/
structure Reloc where
  offset : Nat
  symbol : Nat
  section_ : Nat
  type : Nat
  pad : Nat
  addend : Nat
  deriving DecidableEq, Repr

/-- A kernel-table entry (02:R62). -/
structure KernelEntry where
  section_ : Nat
  flags : Nat
  entry : Nat
  need : Nat
  pref : Nat
  loops : Nat
  nargs : Nat
  pad : Nat
  table : List Byte
  deriving DecidableEq, Repr

def sections (o : List Byte) : List ObjSection :=
  (List.range (leAt o 12 4)).map (fun i => let e := leAt o 16 4 + 32 * i; ⟨leAt o (e + 4) 4, leAt o (e + 8) 4, leAt o (e + 16) 8, leAt o (e + 24) 8⟩)

def symbols (o : List Byte) : List Symbol :=
  (List.range (leAt o 20 4)).map (fun i => let e := leAt o 24 4 + 24 * i; ⟨leAt o (e + 4) 2, leAt o (e + 6) 1, leAt o (e + 7) 1, leAt o (e + 8) 8⟩)

def relocs (o : List Byte) : List Reloc :=
  (List.range (leAt o 28 4)).map (fun i =>
    let e := leAt o 32 4 + 24 * i
    ⟨leAt o e 8, leAt o (e + 8) 4, leAt o (e + 12) 2, leAt o (e + 14) 1, leAt o (e + 15) 1, leAt o (e + 16) 8⟩)

def kernelEntries (o : List Byte) : List KernelEntry :=
  (List.range (leAt o 44 4)).map (fun i =>
    let e := leAt o 48 4 + 96 * i
    ⟨leAt o (e + 4) 2, leAt o (e + 6) 2, leAt o (e + 8) 8, leAt o (e + 16) 1, leAt o (e + 17) 1, leAt o (e + 18) 1, leAt o (e + 19) 1,
     leAt o (e + 20) 4, sliceAt o (e + 32) 64⟩)

/-- The loop entries of a descriptor: kind, source, count or argument index (02:R62). -/
def loopEntries (k : KernelEntry) : List (Nat × Nat × Nat) :=
  (List.range k.loops).map (fun i => (leAt k.table (8 * i) 1, leAt k.table (8 * i + 1) 1, leAt k.table (8 * i + 4) 4))

/-! ### The checks of 02:R63 -/

/-- The header: magic, version, reserved fields, tables inside the object. That an object of fewer than 64 bytes, or with a table outside it, is
refused too is the model's choice (DESIGN CHOICE, log 107). -/
def headerOk (o : List Byte) : Bool :=
  decide (64 ≤ o.length ∧ leAt o 0 4 = 0x4F584E54 ∧ leAt o 4 2 = 1 ∧ leAt o 6 2 / 8 = 0 ∧ leAt o 60 4 = 0) &&
  tableIn o (leAt o 16 4) (leAt o 12 4) 32 && tableIn o (leAt o 24 4) (leAt o 20 4) 24 && tableIn o (leAt o 32 4) (leAt o 28 4) 24 &&
  tableIn o (leAt o 48 4) (leAt o 44 4) 96

/-- A section: its type, its flags, its data inside the object; a zero section has no file offset (the last two DESIGN CHOICE, log 107). -/
def sectionOk (o : List Byte) (x : ObjSection) : Bool :=
  decide (1 ≤ x.type ∧ x.type ≤ 4 ∧ x.flags ≤ 1) && (if x.type = 4 then decide (x.file = 0) else decide (x.file + x.size ≤ o.length))

def symbolOk (n : Nat) (y : Symbol) : Bool := decide (y.section_ ≤ n ∧ y.kind ≤ 4 ∧ y.pad = 0)

/-- Pages of a hashed section (22:R475). -/
def pagesOf (x : ObjSection) : Nat := (x.size + 65535) / 65536

/-- A section is covered by page hashes (22:R475). -/
def hashedSec (o : List Byte) (x : ObjSection) : Bool := decide (leAt o 6 2 / 4 % 2 = 1 ∧ x.type = 1 ∧ x.flags % 2 = 1)

/-- Where the loader maps the first hashed section of an object at `base`: the first page boundary past the object (DESIGN CHOICE, log 139). -/
def hashedBase (base : Nat) (o : List Byte) : Nat := (base + o.length + 65535) / 65536 * 65536

/-- The pages of the hashed sections among some sections. -/
def hashedCount (o : List Byte) (l : List ObjSection) : Nat := (l.filter (hashedSec o)).foldl (fun n x => n + pagesOf x) 0

/-- The address of a section as loaded: the object lies at `base` (DESIGN CHOICE, log 17), and with it a zero section, whose file offset is 0
(DESIGN CHOICE, log 110); a hashed section has pages of its own, zero past its end, behind the object and the hashed sections before it (22:R475;
DESIGN CHOICE, log 139). -/
def sectionAddr (base : Nat) (o : List Byte) (n : Nat) : Nat :=
  if n = 0 then 0
  else
    match (sections o)[n - 1]? with
    | none => base % 2 ^ 64
    | some x =>
      if hashedSec o x then (hashedBase base o + 65536 * hashedCount o ((sections o).take (n - 1))) % 2 ^ 64 else (base + x.file) % 2 ^ 64

/-- A signed word offset fits a field of `n` bits. -/
def wordFits (v : Int) (n : Nat) : Bool := decide (v % 4 = 0 ∧ -(2 ^ (n - 1) : Int) ≤ v / 4 ∧ v / 4 < (2 ^ (n - 1) : Int))

/-- The value of a relocation fits its field (02:R55, R57, R61, 15:R331). Its symbol index counts from 0 (DESIGN CHOICE, log 108); one past the
symbol table does not fit (DESIGN CHOICE, log 107). ROW12 takes the address of a row within a bank, whatever its group (DESIGN CHOICE, log 138). -/
def relocFits (base : Nat) (o : List Byte) (sym : List Symbol) (r : Reloc) : Bool :=
  match sym[r.symbol]? with
  | none => false
  | some y =>
    let v := (sectionAddr base o y.section_ + y.value + r.addend) % 2 ^ 64
    let here := (sectionAddr base o r.section_ + r.offset) % 2 ^ 64
    let d := toSigned 64 ((v + 2 ^ 64 - here) % 2 ^ 64)
    match r.type with
    | 2 => decide (v < 2 ^ 32 ∨ 2 ^ 64 - 2 ^ 31 ≤ v)
    | 3 => wordFits d 10
    | 4 => wordFits d 19
    | 6 => decide (v < 2 ^ 27 ∧ v % 2048 = 0)
    | _ => true

def relocOk (base : Nat) (o : List Byte) (sym : List Symbol) (r : Reloc) : Bool :=
  decide (1 ≤ r.section_ ∧ r.section_ ≤ (sections o).length ∧ 1 ≤ r.type ∧ r.type ≤ 6 ∧ r.pad = 0) && relocFits base o sym r

/-- The loop table of a descriptor obeys 02:R58, R62. -/
def loopsOk (k : KernelEntry) : Bool :=
  let l := loopEntries k
  let count (n : Nat) : Nat := (l.filter (fun e => e.1 == n)).length
  decide (k.loops ≤ 8 ∧ count 0 ≤ 4 ∧ count 1 ≤ 1 ∧ count 2 ≤ 1 ∧ count 3 ≤ 1) &&
  l.all (fun e => decide (e.1 ≤ 3 ∧ e.2.1 ≤ 1) &&
    (if e.2.1 = 1 then decide (e.2.2 < 16) else decide (1 ≤ e.2.2)) && (if e.1 = 1 ∧ e.2.1 = 0 then decide (e.2.2 ≤ k.need) else true)) &&
  (List.range k.loops).all (fun i => decide (leAt k.table (8 * i + 2) 2 = 0)) && (k.table.drop (8 * k.loops)).all (fun b => decide (b = 0))

def descOk (n : Nat) (k : KernelEntry) : Bool :=
  decide (1 ≤ k.section_ ∧ k.section_ ≤ n ∧ k.flags ≤ 3 ∧ k.pad = 0 ∧ 1 ≤ k.need ∧ k.need ≤ 64 ∧ k.nargs ≤ 16) &&
  loopsOk k

/-- The checks of 02:R63. -/
def objectOk (base : Nat) (o : List Byte) : Bool :=
  headerOk o &&
  let sec := sections o
  let sym := symbols o
  sec.all (sectionOk o) && sym.all (symbolOk sec.length) && (relocs o).all (relocOk base o sym) &&
  (kernelEntries o).all (descOk sec.length)

/-! ### The signature block -/

/-- The hashed pages of an object as loaded, in the order of its hash list: page numbers (22:R475). -/
def hashedPages (base : Nat) (o : List Byte) : List Nat :=
  (enumFrom 1 (sections o)).flatMap (fun p =>
    if hashedSec o p.2 then (List.range (pagesOf p.2)).map (fun i => sectionAddr base o p.1 / 65536 + i) else [])

/-- A relocation patches a hashed section (22:R475). -/
def patchesHashed (o : List Byte) : Bool :=
  (relocs o).any (fun r => match (sections o)[r.section_ - 1]? with | some x => decide (1 ≤ r.section_) && hashedSec o x | none => false)

/-- The block keeps its layout (22:R472, R473). -/
def blockOk (o b : List Byte) : Bool :=
  decide (leAt b 0 4 = 0x42474953 ∧ leAt b 4 2 = 1 ∧ leAt b 6 2 = 0 ∧ leAt b 5437 3 = 0 ∧ b.length = 5440 + 32 * leAt b 12 4) &&
  (if leAt o 6 2 / 2 % 2 = 1 then true else decide (leAt b 8 4 = 0))

/-- The digest of an object: header bytes 52-59 zero, the block left out (22:R472). -/
def objectDigest (o : List Byte) (off size : Nat) : BitVec 512 :=
  let z := o.take 52 ++ List.replicate 8 0 ++ o.drop 60
  Config.sha512 (z.take off ++ z.drop (off + size))

/-- Checks 1 to 3 of 22:R473: digest, both signatures, both keys in the fuses. -/
def authentic (s : State) (o b : List Byte) (off size : Nat) : Bool :=
  let d := objectDigest o off size
  let ed := sliceAt b 80 32
  let ml := sliceAt b 176 1952
  decide (d.toNat = leAt b 16 64) && Config.ed25519Ok ed (sliceAt b 112 64) d && Config.mldsaOk ml (sliceAt b 2128 3309) d &&
  (s.fuses.edKeys.take 8).contains (Config.sha384 ed) && (s.fuses.mlKeys.take 8).contains (Config.sha384 ml)

/-- The status of a submission (22:R466-R475). -/
def verifyObject (s : State) (base : Nat) (o : List Byte) : Nat :=
  if !objectOk base o then vsBadObj
  else
    let dpf := leAt o 6 2 % 2
    let rowdep := leAt o 6 2 / 2 % 2
    if (rowdep = 0 ∧ (kernelEntries o).any (fun k => decide (k.flags / 2 % 2 = 1))) ∨ (dpf = 1 ∧ rowdep = 1) ∨ patchesHashed o then vsBadObj
    else
      let off := leAt o 52 4
      let size := leAt o 56 4
      if off = 0 ∨ size = 0 then vsAuth
      else
        let b := sliceAt o off size
        let pages := (hashedPages base o).length
        if off < 64 ∨ o.length < off + size ∨ !blockOk o b ∨ leAt b 12 4 ≠ pages then vsBadObj
        else if !authentic s o b off size then vsAuth
        else if leAt o 8 4 < s.fuseCount then vsRevoked
        else if rowdep = 1 ∧ leAt b 8 4 ≠ 16384 then vsWrongLen
        else vsOk

/-! ### Registration -/

/-- The descriptors that an accepted object registers for an address space (22:R466). On this part a DPF object's code lies at its own addresses
(22:R470). -/
def kernelsOf (root : Word) (base : Nat) (o : List Byte) : List Kernel :=
  let b := sliceAt o (leAt o 52 4) (leAt o 56 4)
  let hashes := (enumFrom 0 (hashedPages base o)).map (fun p => (p.2, BitVec.ofNat 256 (leAt b (5440 + 32 * p.1) 32)))
  (enumFrom 0 (kernelEntries o)).map (fun p =>
    let k := p.2
    { root := root, handle := BitVec.ofNat 64 (base + leAt o 48 4 + 96 * p.1),
      entry := BitVec.ofNat 64 (sectionAddr base o k.section_ + k.entry), need := k.need, pref := k.pref, nargs := k.nargs,
      loops := loopEntries k, secver := leAt o 8 4, rowdep := decide (k.flags / 2 % 2 = 1), hashes := hashes })

/-- An object submitted to the verifier: its status is answered, and its descriptors are registered when it is OK (22:R466). A handle registered
before gives way. -/
def submit (root base : Word) (o : List Byte) (s : State) : State :=
  let v := verifyObject s base.toNat o
  let new := if v = vsOk then kernelsOf root base.toNat o else []
  let old := s.kernels.filter (fun k => !new.any (fun n => decide (n.root = k.root ∧ n.handle = k.handle)))
  { s with kernels := old ++ new, replies := s.replies ++ [(v, base)] }

/-- OBJECT_SUBMISSION (22:R466). -/
def execObjectSubmission (root base : Word) (obj : List Byte) (s : State) : Out := .next (submit root base obj s)

/-! ### Engine programs -/

/-- The entries of a write list: offset, filler, value (22:R477). -/
def gelEntries (l : List Byte) : List (Nat × Nat × Nat) :=
  (List.range (leAt l 4 4)).map (fun i => (leAt l (16 + 16 * i) 4, leAt l (20 + 16 * i) 4, leAt l (24 + 16 * i) 8))

/-- An entry keeps the layout: offset a multiple of 8 up to 0x1FF8 and not reserved, reserved fields of PHDR and STEPn.OP zero, at most 127
steps (22:R477, 12:R285). -/
def gelEntryOk (e : Nat × Nat × Nat) : Bool :=
  decide (e.1 % 8 = 0 ∧ e.1 ≤ 0x1FF8 ∧ e.1 ≠ 0x38 ∧ e.2.1 = 0) &&
  (if e.1 = 0 then decide (e.2.2 ≤ 127) else true) &&
  (if 0x40 ≤ e.1 ∧ e.1 % 64 = 0 then decide (e.2.2 % 2 ^ 56 = 0) else true)

/-- A write list keeps its layout (22:R477). -/
def gelOk (l : List Byte) : Bool :=
  decide (1 ≤ leAt l 4 4 ∧ leAt l 4 4 ≤ 4096 ∧ leAt l 8 8 = 0 ∧ l.length = 16 + 16 * leAt l 4 4) && (gelEntries l).all gelEntryOk

/-- Installs a write list in a slot (22:R477, 12:R285): the region is written whole, the later entry of an offset stands. A list of another
revision gives BADREV, one that breaks the layout BADOBJ, and the slot keeps its list. -/
def gelStore (st slot : Nat) (l : List Byte) (s : State) : State :=
  let rev := BitVec.ofNat 32 (leAt l 0 4)
  let answer (s : State) (v : Nat) : State := { s with replies := s.replies ++ [(v, BitVec.ofNat 64 slot)] }
  if l.length < 16 then answer s vsBadObj
  else if rev ≠ 0x00010002 then answer s vsBadRev
  else if !gelOk l then answer s vsBadObj
  else
    let k := s.stack st
    let regs := (gelEntries l).foldl (fun m e => if e.2.2 = 0 then mapErase m e.1 else mapSet m e.1 (BitVec.ofNat 64 e.2.2)) []
    answer (s.setStack st { k with gel := mapSet k.gel slot regs, gelRev := mapSet k.gelRev slot rev }) vsOk

/-- GEL_INSTALL (22:R477). -/
def execGelInstall (st : Fin 32) (slot : Fin 64) (list : List Byte) (s : State) : Out := .next (gelStore st.val slot.val list s)

/-! ### Revocation -/

/-- Ends a launch of a revoked object with CANCELLED (22:R474): its running tasks end at their boundary, its saved and waiting tasks are
discarded. A gang that has failed only loses what was saved. -/
def revokeLaunch (s : State) (st : Nat) (l : Launch) : State :=
  if l.failed then gangDiscard s (gangId st l.id)
  else
    let s := s.setLaunch st (l.fail lsCancelled 0)
    closeLaunch (dropTasks s st l.id) st l.id

/-- A device launch that waits for its expansion and names a descriptor that `gone` selects ends with CANCELLED (22:R474), once the launch unit can
write its word. -/
def cancelQueued (gone : LaunchRec → Bool) (s : State) (st : Nat) : State :=
  let k := s.stack st
  (k.devq.filter gone).foldl (fun acc r =>
    let k := acc.stack st
    let l := Launch.refused k.nextLaunch r lsCancelled
    closeLaunch (acc.setStack st { k with table := k.table ++ [l], nextLaunch := k.nextLaunch + 1, journal := true }) st l.id)
    (s.setStack st { k with devq := k.devq.filter (fun r => !gone r) })

/-- Revokes the launches of a stack whose object's security version is below `v`. -/
def revokeStack (v : Nat) (s : State) (st : Nat) : State :=
  ((s.stack st).table.filter (fun l => decide (l.secver < v))).foldl (fun acc l => revokeLaunch acc st l) s

/-- Discards the saved tasks of a stack that are kept for the host, of launches that have ended. -/
def revokeKept (v : Nat) (s : State) (st : Nat) : State := (dropWaiting s st (fun w => decide (w.info.secver < v))).1

/-- The fuse counter advances by one to V (22:R474, 24:R495): descriptors below V are unregistered, their translations purged, their launches end
CANCELLED. -/
def advanceFuse (s : State) : State :=
  let v := s.fuseCount + 1
  let gone := s.kernels.filter (fun k => decide (k.secver < v))
  let s := { s with fuseCount := v, kernels := s.kernels.filter (fun k => decide (v ≤ k.secver)),
                    xlat := s.xlat.filter (fun x => !gone.any (fun k => decide (k.root = x.root)))
                    ptrs := s.ptrs.filter (fun x => !gone.any (fun k => decide (k.root = x.root))) }
  let s := (List.range 32).foldl (cancelQueued (fun r => gone.any (fun k => decide (k.root = r.root ∧ k.handle = r.kernel)))) s
  (List.range 32).foldl (revokeKept v) ((List.range 32).foldl (revokeStack v) s)

/-- FUSEADV (24:R495). -/
def execFuseadv (s : State) : Out := .next (advanceFuse s)

end Sys2Proof.Machine
end

