-- ==== Sys2Proof/Machine/ScalarFp.lean ====
section
/-!
DEFINITION. Scalar floating point (15:R334, R335).
-/

namespace Sys2Proof.Machine

/-- The rounding of a scalar FP instruction: RMODE, with SR as RNE on a control thread (15:R335). -/
def scalarCtl (s : State) : RCtl :=
  let c := s.rctl 0 false
  if s.cur.bank.isNone ∧ c.mode = rmSR then { c with mode := rmRNE } else c

/-- The LFSR that SR steps: the bank's in a bank thread (15:R335). -/
def scalarLfsr (s : State) : BitVec 32 :=
  match s.cur.bank with
  | none => 0
  | some j => (s.bank (s.ownBank j)).lfsr

/-- The LFSR after an instruction. -/
def setScalarLfsr (s : State) (l : BitVec 32) : State :=
  match s.cur.bank with
  | none => s
  | some j => s.setBank (s.ownBank j) { s.bank (s.ownBank j) with lfsr := l }

/-- The code that a register holds in FP32 or FP64 (15:R335). -/
def fcode (t : BitVec 4) (v : Word) : Nat := v.toNat % 2 ^ tagWidth t

/-- Writes a result, raises its flags, keeps the LFSR's steps, and completes. -/
def writeF (d : Fin 64) (r : Rounded) (s : State) : Out :=
  writeV 4 d (BitVec.ofNat 64 r.code) (setScalarLfsr (raiseScalar s r.flags) r.lfsr)

/-- A binary operation in a format. -/
def scalarBin (o : FOp) (t : BitVec 4) (d a b : Fin 64) (s : State) : Out :=
  writeF d (fbin o t (scalarCtl s) (scalarLfsr s) (fcode t (s.sval a)) (fcode t (s.sval b))) s

/-- A square root. -/
def scalarSqrt (t : BitVec 4) (d a : Fin 64) (s : State) : Out :=
  let c := scalarCtl s
  writeF d (finishF t c (scalarLfsr s) (sqrtX (fdecode t c.ftz (fcode t (s.sval a))))) s

/-- A comparison: the integer 0 or 1. -/
def scalarCmp (k : FCond) (t : BitVec 4) (d a b : Fin 64) (s : State) : Out :=
  let r := cmpCode k t (scalarCtl s).ftz (fcode t (s.sval a)) (fcode t (s.sval b))
  writeF d ⟨b2n r.1, r.2, scalarLfsr s⟩ s

/-- A signed INT64 rounded to a format. -/
def scalarFromInt (t : BitVec 4) (d a : Fin 64) (s : State) : Out :=
  writeF d (roundTo t (scalarCtl s) (scalarLfsr s) (realOfInt (s.sval a).toInt)) s

/-- A value of a format to a signed INT64: toward zero, saturating (15:R335, 06:R143). -/
def scalarToInt (t : BitVec 4) (d a : Fin 64) (s : State) : Out :=
  writeF d (roundInt 5 ⟨rmRTZ, (scalarCtl s).ftz, true⟩ (scalarLfsr s) (fdecode t (scalarCtl s).ftz (fcode t (s.sval a)))) s

/-- A conversion between the two formats. -/
def scalarWidth (src dst : BitVec 4) (d a : Fin 64) (s : State) : Out :=
  writeF d (convert src dst (scalarCtl s) (scalarLfsr s) (fcode src (s.sval a))) s

/-- SFADD.F32 (15:R334). -/
def execSfaddF32 (d a b : Fin 64) (s : State) : Out := scalarBin .add 11 d a b s

/-- SFSUB.F32 (15:R334). -/
def execSfsubF32 (d a b : Fin 64) (s : State) : Out := scalarBin .sub 11 d a b s

/-- SFMUL.F32 (15:R334). -/
def execSfmulF32 (d a b : Fin 64) (s : State) : Out := scalarBin .mul 11 d a b s

/-- SFDIV.F32 (15:R334). -/
def execSfdivF32 (d a b : Fin 64) (s : State) : Out := scalarBin .div 11 d a b s

/-- SFMIN.F32 (15:R334). -/
def execSfminF32 (d a b : Fin 64) (s : State) : Out := scalarBin .min 11 d a b s

/-- SFMAX.F32 (15:R334). -/
def execSfmaxF32 (d a b : Fin 64) (s : State) : Out := scalarBin .max 11 d a b s

/-- SFSQRT.F32 (15:R334). -/
def execSfsqrtF32 (d a : Fin 64) (s : State) : Out := scalarSqrt 11 d a s

/-- SFCMP.EQ.F32 (15:R334). -/
def execSfcmpEqF32 (d a b : Fin 64) (s : State) : Out := scalarCmp .eq 11 d a b s

/-- SFCMP.LT.F32 (15:R334). -/
def execSfcmpLtF32 (d a b : Fin 64) (s : State) : Out := scalarCmp .lt 11 d a b s

/-- SFCMP.LE.F32 (15:R334). -/
def execSfcmpLeF32 (d a b : Fin 64) (s : State) : Out := scalarCmp .le 11 d a b s

/-- SFCVT.F32.I64 (15:R334). -/
def execSfcvtF32I64 (d a : Fin 64) (s : State) : Out := scalarFromInt 11 d a s

/-- SFCVT.I64.F32 (15:R334, R335). -/
def execSfcvtI64F32 (d a : Fin 64) (s : State) : Out := scalarToInt 11 d a s

/-- SFADD.F64 (15:R334). -/
def execSfaddF64 (d a b : Fin 64) (s : State) : Out := scalarBin .add 12 d a b s

/-- SFSUB.F64 (15:R334). -/
def execSfsubF64 (d a b : Fin 64) (s : State) : Out := scalarBin .sub 12 d a b s

/-- SFMUL.F64 (15:R334). -/
def execSfmulF64 (d a b : Fin 64) (s : State) : Out := scalarBin .mul 12 d a b s

/-- SFDIV.F64 (15:R334). -/
def execSfdivF64 (d a b : Fin 64) (s : State) : Out := scalarBin .div 12 d a b s

/-- SFMIN.F64 (15:R334). -/
def execSfminF64 (d a b : Fin 64) (s : State) : Out := scalarBin .min 12 d a b s

/-- SFMAX.F64 (15:R334). -/
def execSfmaxF64 (d a b : Fin 64) (s : State) : Out := scalarBin .max 12 d a b s

/-- SFSQRT.F64 (15:R334). -/
def execSfsqrtF64 (d a : Fin 64) (s : State) : Out := scalarSqrt 12 d a s

/-- SFCMP.EQ.F64 (15:R334). -/
def execSfcmpEqF64 (d a b : Fin 64) (s : State) : Out := scalarCmp .eq 12 d a b s

/-- SFCMP.LT.F64 (15:R334). -/
def execSfcmpLtF64 (d a b : Fin 64) (s : State) : Out := scalarCmp .lt 12 d a b s

/-- SFCMP.LE.F64 (15:R334). -/
def execSfcmpLeF64 (d a b : Fin 64) (s : State) : Out := scalarCmp .le 12 d a b s

/-- SFCVT.F64.I64 (15:R334). -/
def execSfcvtF64I64 (d a : Fin 64) (s : State) : Out := scalarFromInt 12 d a s

/-- SFCVT.I64.F64 (15:R334, R335). -/
def execSfcvtI64F64 (d a : Fin 64) (s : State) : Out := scalarToInt 12 d a s

/-- SFCVT.F32.F64 (15:R334): FP64 rounded to FP32. -/
def execSfcvtF32F64 (d a : Fin 64) (s : State) : Out := scalarWidth 12 11 d a s

/-- SFCVT.F64.F32 (15:R334): FP32 to FP64, exact. -/
def execSfcvtF64F32 (d a : Fin 64) (s : State) : Out := scalarWidth 11 12 d a s

end Sys2Proof.Machine
end

