-- ==== Sys2Proof/Machine/Dispatch.lean ====
section
/-!
DEFINITION. The meaning of every instruction and step: one direct call per constructor of `Instr`.
-/

namespace Sys2Proof.Machine

def exec (i : Instr) (s : State) : Host.Outcome State Fault Refusal :=
  match i with
  | .hintCpf n => Sys2Proof.Machine.execHintCpf n s
  | .hint long bits => Sys2Proof.Machine.execHint long bits s
  | .illegalInstruction bits => Sys2Proof.Machine.execIllegalInstruction bits s
  | .complementPair p q => Sys2Proof.Machine.execComplementPair p q s
  | .act k t r => Sys2Proof.Machine.execAct k t r s
  | .actIndexed k t x imm => Sys2Proof.Machine.execActIndexed k t x imm s
  | .wbk k => Sys2Proof.Machine.execWbk k s
  | .pre k => Sys2Proof.Machine.execPre k s
  | .preD k => Sys2Proof.Machine.execPreD k s
  | .ref k => Sys2Proof.Machine.execRef k s
  | .refQ d k => Sys2Proof.Machine.execRefQ d k s
  | .rstat d k => Sys2Proof.Machine.execRstat d k s
  | .rclone k xd rowd xs rows => Sys2Proof.Machine.execRclone k xd rowd xs rows s
  | .rzero k xd rowd => Sys2Proof.Machine.execRzero k xd rowd s
  | .cld d b m => Sys2Proof.Machine.execCld d b m s
  | .cst src b m => Sys2Proof.Machine.execCst src b m s
  | .vaddVV d a b m cp => Sys2Proof.Machine.execVaddVV d a b m cp s
  | .vsubVV d a b m cp => Sys2Proof.Machine.execVsubVV d a b m cp s
  | .vmulVV d a b m cp => Sys2Proof.Machine.execVmulVV d a b m cp s
  | .vminVV d a b m cp => Sys2Proof.Machine.execVminVV d a b m cp s
  | .vmaxVV d a b m cp => Sys2Proof.Machine.execVmaxVV d a b m cp s
  | .vabs d a m cp => Sys2Proof.Machine.execVabs d a m cp s
  | .vneg d a m cp => Sys2Proof.Machine.execVneg d a m cp s
  | .vaddSVV d a b m cp => Sys2Proof.Machine.execVaddSVV d a b m cp s
  | .vsubSVV d a b m cp => Sys2Proof.Machine.execVsubSVV d a b m cp s
  | .vaddVX d a x m cp => Sys2Proof.Machine.execVaddVX d a x m cp s
  | .vsubVX d a x m cp => Sys2Proof.Machine.execVsubVX d a x m cp s
  | .vmulVX d a x m cp => Sys2Proof.Machine.execVmulVX d a x m cp s
  | .vminVX d a x m cp => Sys2Proof.Machine.execVminVX d a x m cp s
  | .vmaxVX d a x m cp => Sys2Proof.Machine.execVmaxVX d a x m cp s
  | .vaddSVX d a x m cp => Sys2Proof.Machine.execVaddSVX d a x m cp s
  | .vsubSVX d a x m cp => Sys2Proof.Machine.execVsubSVX d a x m cp s
  | .vaddVI d a imm m cp => Sys2Proof.Machine.execVaddVI d a imm m cp s
  | .vsubVI d a imm m cp => Sys2Proof.Machine.execVsubVI d a imm m cp s
  | .vrsub d a imm m cp => Sys2Proof.Machine.execVrsub d a imm m cp s
  | .vmulVI d a imm m cp => Sys2Proof.Machine.execVmulVI d a imm m cp s
  | .vminVI d a imm m cp => Sys2Proof.Machine.execVminVI d a imm m cp s
  | .vmaxVI d a imm m cp => Sys2Proof.Machine.execVmaxVI d a imm m cp s
  | .vsllVI d a imm m cp => Sys2Proof.Machine.execVsllVI d a imm m cp s
  | .vsrlVI d a imm m cp => Sys2Proof.Machine.execVsrlVI d a imm m cp s
  | .vsraVI d a imm m cp => Sys2Proof.Machine.execVsraVI d a imm m cp s
  | .vandVI d a imm m cp => Sys2Proof.Machine.execVandVI d a imm m cp s
  | .vorVI d a imm m cp => Sys2Proof.Machine.execVorVI d a imm m cp s
  | .vxorVI d a imm m cp => Sys2Proof.Machine.execVxorVI d a imm m cp s
  | .vfma d a b c rm m cp => Sys2Proof.Machine.execVfma d a b c rm m cp s
  | .vfms d a b c rm m cp => Sys2Proof.Machine.execVfms d a b c rm m cp s
  | .vfmaX d a x c rm m cp => Sys2Proof.Machine.execVfmaX d a x c rm m cp s
  | .vfmsX d a x c rm m cp => Sys2Proof.Machine.execVfmsX d a x c rm m cp s
  | .vcvt d a imm rm sat m cp => Sys2Proof.Machine.execVcvt d a imm rm sat m cp s
  | .vcvtMX d a b imm rm sat m cp => Sys2Proof.Machine.execVcvtMX d a b imm rm sat m cp s
  | .vqntMX d a b imm rm sat m cp => Sys2Proof.Machine.execVqntMX d a b imm rm sat m cp s
  | .vaddRm d a b rm m cp => Sys2Proof.Machine.execVaddRm d a b rm m cp s
  | .vsubRm d a b rm m cp => Sys2Proof.Machine.execVsubRm d a b rm m cp s
  | .vmulRm d a b rm m cp => Sys2Proof.Machine.execVmulRm d a b rm m cp s
  | .vcmpEq d a b m => Sys2Proof.Machine.execVcmpEq d a b m s
  | .vcmpNe d a b m => Sys2Proof.Machine.execVcmpNe d a b m s
  | .vcmpLt d a b m => Sys2Proof.Machine.execVcmpLt d a b m s
  | .vcmpLe d a b m => Sys2Proof.Machine.execVcmpLe d a b m s
  | .vcmpGt d a b m => Sys2Proof.Machine.execVcmpGt d a b m s
  | .vcmpGe d a b m => Sys2Proof.Machine.execVcmpGe d a b m s
  | .vcmpUn d a b m => Sys2Proof.Machine.execVcmpUn d a b m s
  | .vcmpOr d a b m => Sys2Proof.Machine.execVcmpOr d a b m s
  | .vandVV d a b m cp => Sys2Proof.Machine.execVandVV d a b m cp s
  | .vorVV d a b m cp => Sys2Proof.Machine.execVorVV d a b m cp s
  | .vxorVV d a b m cp => Sys2Proof.Machine.execVxorVV d a b m cp s
  | .vandn d a b m cp => Sys2Proof.Machine.execVandn d a b m cp s
  | .vnot d a m cp => Sys2Proof.Machine.execVnot d a m cp s
  | .vsllVV d a b m cp => Sys2Proof.Machine.execVsllVV d a b m cp s
  | .vsrlVV d a b m cp => Sys2Proof.Machine.execVsrlVV d a b m cp s
  | .vsraVV d a b m cp => Sys2Proof.Machine.execVsraVV d a b m cp s
  | .vsel d a b m => Sys2Proof.Machine.execVsel d a b m s
  | .setvl d k t a => Sys2Proof.Machine.execSetvl d k t a s
  | .vcfg d t => Sys2Proof.Machine.execVcfg d t s
  | .vsplat d a => Sys2Proof.Machine.execVsplat d a s
  | .viota d a => Sys2Proof.Machine.execViota d a s
  | .vmovms d o m => Sys2Proof.Machine.execVmovms d o m s
  | .vmovsm a m => Sys2Proof.Machine.execVmovsm a m s
  | .vdiv d a b rm m => Sys2Proof.Machine.execVdiv d a b rm m s
  | .vrem d a b m => Sys2Proof.Machine.execVrem d a b m s
  | .vsqrt d a rm m => Sys2Proof.Machine.execVsqrt d a rm m s
  | .vrsqrte d a m => Sys2Proof.Machine.execVrsqrte d a m s
  | .vexp2e d a m => Sys2Proof.Machine.execVexp2e d a m s
  | .vpick d a b m => Sys2Proof.Machine.execVpick d a b m s
  | .vpack d a m => Sys2Proof.Machine.execVpack d a m s
  | .vspread d a m => Sys2Proof.Machine.execVspread d a m s
  | .vmovup d a x m => Sys2Proof.Machine.execVmovup d a x m s
  | .vmovdn d a x m => Sys2Proof.Machine.execVmovdn d a x m s
  | .vpushlo d a x m => Sys2Proof.Machine.execVpushlo d a x m s
  | .vpushhi d a x m => Sys2Proof.Machine.execVpushhi d a x m s
  | .vtotal d a m => Sys2Proof.Machine.execVtotal d a m s
  | .vtotalSeq d a m => Sys2Proof.Machine.execVtotalSeq d a m s
  | .vleast d a m => Sys2Proof.Machine.execVleast d a m s
  | .vmost d a m => Sys2Proof.Machine.execVmost d a m s
  | .vband d a m => Sys2Proof.Machine.execVband d a m s
  | .vbor d a m => Sys2Proof.Machine.execVbor d a m s
  | .vbxor d a m => Sys2Proof.Machine.execVbxor d a m s
  | .vtotalMX d a b m => Sys2Proof.Machine.execVtotalMX d a b m s
  | .mkand d a b => Sys2Proof.Machine.execMkand d a b s
  | .mkor d a b => Sys2Proof.Machine.execMkor d a b s
  | .mkxor d a b => Sys2Proof.Machine.execMkxor d a b s
  | .mkandn d a b => Sys2Proof.Machine.execMkandn d a b s
  | .mknot d a => Sys2Proof.Machine.execMknot d a s
  | .mkbelow d a => Sys2Proof.Machine.execMkbelow d a s
  | .mkupto d a => Sys2Proof.Machine.execMkupto d a s
  | .mkfirst d a => Sys2Proof.Machine.execMkfirst d a s
  | .vlut d a b imm m => Sys2Proof.Machine.execVlut d a b imm m s
  | .vhad d a imm p rm sat m => Sys2Proof.Machine.execVhad d a imm p rm sat m s
  | .vpcfg d a b sgn => Sys2Proof.Machine.execVpcfg d a b sgn s
  | .vpadd d a b m => Sys2Proof.Machine.execVpadd d a b m s
  | .vpsub d a b m => Sys2Proof.Machine.execVpsub d a b m s
  | .vpmul d a b m => Sys2Proof.Machine.execVpmul d a b m s
  | .vpcmpEq d a b m => Sys2Proof.Machine.execVpcmpEq d a b m s
  | .vpcmpNe d a b m => Sys2Proof.Machine.execVpcmpNe d a b m s
  | .vpcmpLt d a b m => Sys2Proof.Machine.execVpcmpLt d a b m s
  | .vpcmpLe d a b m => Sys2Proof.Machine.execVpcmpLe d a b m s
  | .vpcmpGt d a b m => Sys2Proof.Machine.execVpcmpGt d a b m s
  | .vpcmpGe d a b m => Sys2Proof.Machine.execVpcmpGe d a b m s
  | .vpsll d a c m => Sys2Proof.Machine.execVpsll d a c m s
  | .vpsrl d a c m => Sys2Proof.Machine.execVpsrl d a c m s
  | .vpsra d a c m => Sys2Proof.Machine.execVpsra d a c m s
  | .vpcnt d a m => Sys2Proof.Machine.execVpcnt d a m s
  | .vtrp d a p m => Sys2Proof.Machine.execVtrp d a p m s
  | .vtrw d a p m => Sys2Proof.Machine.execVtrw d a p m s
  | .mzero t => Sys2Proof.Machine.execMzero t s
  | .mopa t a b m ck => Sys2Proof.Machine.execMopa t a b m ck s
  | .mops t a b m ck => Sys2Proof.Machine.execMops t a b m ck s
  | .mopaMX src t a b => Sys2Proof.Machine.execMopaMX src t a b s
  | .mopsMX src t a b => Sys2Proof.Machine.execMopsMX src t a b s
  | .mld t a b => Sys2Proof.Machine.execMld t a b s
  | .mldP t a b => Sys2Proof.Machine.execMldP t a b s
  | .mst t a b => Sys2Proof.Machine.execMst t a b s
  | .mstP t a b => Sys2Proof.Machine.execMstP t a b s
  | .mscale t a => Sys2Proof.Machine.execMscale t a s
  | .mchk t => Sys2Proof.Machine.execMchk t s
  | .pexp d a imm S m => Sys2Proof.Machine.execPexp d a imm S m s
  | .psplit d a c imm S m => Sys2Proof.Machine.execPsplit d a c imm S m s
  | .pmma tp ti a b c e S full ck m => Sys2Proof.Machine.execPmma tp ti a b c e S full ck m s
  | .pfold tp ti c e imm => Sys2Proof.Machine.execPfold tp ti c e imm s
  | .grot d a n m => Sys2Proof.Machine.execGrot d a n m s
  | .gbcast d a q m => Sys2Proof.Machine.execGbcast d a q m s
  | .gperm d a x m => Sys2Proof.Machine.execGperm d a x m s
  | .gxch d a n m => Sys2Proof.Machine.execGxch d a n m s
  | .gredSum d a m => Sys2Proof.Machine.execGredSum d a m s
  | .gredMin d a m => Sys2Proof.Machine.execGredMin d a m s
  | .gredMax d a m => Sys2Proof.Machine.execGredMax d a m s
  | .gredAnd d a m => Sys2Proof.Machine.execGredAnd d a m s
  | .gredOr d a m => Sys2Proof.Machine.execGredOr d a m s
  | .gredXor d a m => Sys2Proof.Machine.execGredXor d a m s
  | .cwb a b => Sys2Proof.Machine.execCwb a b s
  | .cwbi a b => Sys2Proof.Machine.execCwbi a b s
  | .cinv a b => Sys2Proof.Machine.execCinv a b s
  | .farLd d x off esz ord sc m => Sys2Proof.Machine.execFarLd d x off esz ord sc m s
  | .farSt a x off esz ord sc nr m => Sys2Proof.Machine.execFarSt a x off esz ord sc nr m s
  | .farGather d x off b esz ord sc m => Sys2Proof.Machine.execFarGather d x off b esz ord sc m s
  | .farScatter a x off b esz ord sc nr m => Sys2Proof.Machine.execFarScatter a x off b esz ord sc nr m s
  | .farScadd a x off b esz ord sc nr m => Sys2Proof.Machine.execFarScadd a x off b esz ord sc nr m s
  | .farAdd d a x off b esz ord sc nr m => Sys2Proof.Machine.execFarAdd d a x off b esz ord sc nr m s
  | .farFadd d a x off b esz ord sc nr m => Sys2Proof.Machine.execFarFadd d a x off b esz ord sc nr m s
  | .farMin d a x off b esz ord sc nr m => Sys2Proof.Machine.execFarMin d a x off b esz ord sc nr m s
  | .farMax d a x off b esz ord sc nr m => Sys2Proof.Machine.execFarMax d a x off b esz ord sc nr m s
  | .farMinu d a x off b esz ord sc nr m => Sys2Proof.Machine.execFarMinu d a x off b esz ord sc nr m s
  | .farMaxu d a x off b esz ord sc nr m => Sys2Proof.Machine.execFarMaxu d a x off b esz ord sc nr m s
  | .farAnd d a x off b esz ord sc nr m => Sys2Proof.Machine.execFarAnd d a x off b esz ord sc nr m s
  | .farOr d a x off b esz ord sc nr m => Sys2Proof.Machine.execFarOr d a x off b esz ord sc nr m s
  | .farXor d a x off b esz ord sc nr m => Sys2Proof.Machine.execFarXor d a x off b esz ord sc nr m s
  | .farSwap d a x off b esz ord sc nr m => Sys2Proof.Machine.execFarSwap d a x off b esz ord sc nr m s
  | .farCas d a x off b esz ord sc nr m => Sys2Proof.Machine.execFarCas d a x off b esz ord sc nr m s
  | .add d a b => Sys2Proof.Machine.execAdd d a b s
  | .sub d a b => Sys2Proof.Machine.execSub d a b s
  | .and d a b => Sys2Proof.Machine.execAnd d a b s
  | .or d a b => Sys2Proof.Machine.execOr d a b s
  | .xor d a b => Sys2Proof.Machine.execXor d a b s
  | .andn d a b => Sys2Proof.Machine.execAndn d a b s
  | .sll d a b => Sys2Proof.Machine.execSll d a b s
  | .srl d a b => Sys2Proof.Machine.execSrl d a b s
  | .sra d a b => Sys2Proof.Machine.execSra d a b s
  | .ror d a b => Sys2Proof.Machine.execRor d a b s
  | .min d a b => Sys2Proof.Machine.execMin d a b s
  | .max d a b => Sys2Proof.Machine.execMax d a b s
  | .minu d a b => Sys2Proof.Machine.execMinu d a b s
  | .maxu d a b => Sys2Proof.Machine.execMaxu d a b s
  | .seq d a b => Sys2Proof.Machine.execSeq d a b s
  | .sne d a b => Sys2Proof.Machine.execSne d a b s
  | .slt d a b => Sys2Proof.Machine.execSlt d a b s
  | .sltu d a b => Sys2Proof.Machine.execSltu d a b s
  | .sge d a b => Sys2Proof.Machine.execSge d a b s
  | .sgeu d a b => Sys2Proof.Machine.execSgeu d a b s
  | .addi d a imm => Sys2Proof.Machine.execAddi d a imm s
  | .andi d a imm => Sys2Proof.Machine.execAndi d a imm s
  | .ori d a imm => Sys2Proof.Machine.execOri d a imm s
  | .xori d a imm => Sys2Proof.Machine.execXori d a imm s
  | .slli d a imm => Sys2Proof.Machine.execSlli d a imm s
  | .srli d a imm => Sys2Proof.Machine.execSrli d a imm s
  | .srai d a imm => Sys2Proof.Machine.execSrai d a imm s
  | .slti d a imm => Sys2Proof.Machine.execSlti d a imm s
  | .li d imm => Sys2Proof.Machine.execLi d imm s
  | .liu d imm => Sys2Proof.Machine.execLiu d imm s
  | .lih d imm => Sys2Proof.Machine.execLih d imm s
  | .addil d imm => Sys2Proof.Machine.execAddil d imm s
  | .lea d imm => Sys2Proof.Machine.execLea d imm s
  | .mul d a b => Sys2Proof.Machine.execMul d a b s
  | .mulh d a b => Sys2Proof.Machine.execMulh d a b s
  | .mulhu d a b => Sys2Proof.Machine.execMulhu d a b s
  | .div d a b => Sys2Proof.Machine.execDiv d a b s
  | .divu d a b => Sys2Proof.Machine.execDivu d a b s
  | .rem d a b => Sys2Proof.Machine.execRem d a b s
  | .remu d a b => Sys2Proof.Machine.execRemu d a b s
  | .clz d a => Sys2Proof.Machine.execClz d a s
  | .ctz d a => Sys2Proof.Machine.execCtz d a s
  | .popc d a => Sys2Proof.Machine.execPopc d a s
  | .lb d a imm => Sys2Proof.Machine.execLb d a imm s
  | .lh d a imm => Sys2Proof.Machine.execLh d a imm s
  | .lw d a imm => Sys2Proof.Machine.execLw d a imm s
  | .ld d a imm => Sys2Proof.Machine.execLd d a imm s
  | .lbu d a imm => Sys2Proof.Machine.execLbu d a imm s
  | .lhu d a imm => Sys2Proof.Machine.execLhu d a imm s
  | .lwu d a imm => Sys2Proof.Machine.execLwu d a imm s
  | .sb src a imm => Sys2Proof.Machine.execSb src a imm s
  | .sh src a imm => Sys2Proof.Machine.execSh src a imm s
  | .sw src a imm => Sys2Proof.Machine.execSw src a imm s
  | .sd src a imm => Sys2Proof.Machine.execSd src a imm s
  | .acqld d a p => Sys2Proof.Machine.execAcqld d a p s
  | .relst a b p => Sys2Proof.Machine.execRelst a b p s
  | .rmwAdd d a b p => Sys2Proof.Machine.execRmwAdd d a b p s
  | .rmwSwap d a b p => Sys2Proof.Machine.execRmwSwap d a b p s
  | .rmwCas d a b p => Sys2Proof.Machine.execRmwCas d a b p s
  | .rmwAnd d a b p => Sys2Proof.Machine.execRmwAnd d a b p s
  | .rmwOr d a b p => Sys2Proof.Machine.execRmwOr d a b p s
  | .rmwXor d a b p => Sys2Proof.Machine.execRmwXor d a b p s
  | .rmwMin d a b p => Sys2Proof.Machine.execRmwMin d a b p s
  | .rmwMax d a b p => Sys2Proof.Machine.execRmwMax d a b p s
  | .rmwMinu d a b p => Sys2Proof.Machine.execRmwMinu d a b p s
  | .rmwMaxu d a b p => Sys2Proof.Machine.execRmwMaxu d a b p s
  | .beq a b o => Sys2Proof.Machine.execBeq a b o s
  | .bne a b o => Sys2Proof.Machine.execBne a b o s
  | .blt a b o => Sys2Proof.Machine.execBlt a b o s
  | .bge a b o => Sys2Proof.Machine.execBge a b o s
  | .bltu a b o => Sys2Proof.Machine.execBltu a b o s
  | .bgeu a b o => Sys2Proof.Machine.execBgeu a b o s
  | .jmp d o => Sys2Proof.Machine.execJmp d o s
  | .jreg d a imm => Sys2Proof.Machine.execJreg d a imm s
  | .loop c o => Sys2Proof.Machine.execLoop c o s
  | .crr d r => Sys2Proof.Machine.execCrr d r s
  | .crw d a r => Sys2Proof.Machine.execCrw d a r s
  | .wait d a b => Sys2Proof.Machine.execWait d a b s
  | .pause a => Sys2Proof.Machine.execPause a s
  | .trap a => Sys2Proof.Machine.execTrap a s
  | .fence src => Sys2Proof.Machine.execFence src s
  | .launch d a => Sys2Proof.Machine.execLaunch d a s
  | .split a => Sys2Proof.Machine.execSplit a s
  | .vfetch a b => Sys2Proof.Machine.execVfetch a b s
  | .tlbiVA a b => Sys2Proof.Machine.execTlbiVA a b s
  | .tlbiAS a => Sys2Proof.Machine.execTlbiAS a s
  | .wayset d a => Sys2Proof.Machine.execWayset d a s
  | .qpush a q => Sys2Proof.Machine.execQpush a q s
  | .qpop d q => Sys2Proof.Machine.execQpop d q s
  | .qpopNB d q => Sys2Proof.Machine.execQpopNB d q s
  | .qstat d q => Sys2Proof.Machine.execQstat d q s
  | .sfaddF32 d a b => Sys2Proof.Machine.execSfaddF32 d a b s
  | .sfsubF32 d a b => Sys2Proof.Machine.execSfsubF32 d a b s
  | .sfmulF32 d a b => Sys2Proof.Machine.execSfmulF32 d a b s
  | .sfdivF32 d a b => Sys2Proof.Machine.execSfdivF32 d a b s
  | .sfsqrtF32 d a => Sys2Proof.Machine.execSfsqrtF32 d a s
  | .sfminF32 d a b => Sys2Proof.Machine.execSfminF32 d a b s
  | .sfmaxF32 d a b => Sys2Proof.Machine.execSfmaxF32 d a b s
  | .sfcmpEqF32 d a b => Sys2Proof.Machine.execSfcmpEqF32 d a b s
  | .sfcmpLtF32 d a b => Sys2Proof.Machine.execSfcmpLtF32 d a b s
  | .sfcmpLeF32 d a b => Sys2Proof.Machine.execSfcmpLeF32 d a b s
  | .sfcvtF32I64 d a => Sys2Proof.Machine.execSfcvtF32I64 d a s
  | .sfcvtI64F32 d a => Sys2Proof.Machine.execSfcvtI64F32 d a s
  | .sfcvtF32F64 d a => Sys2Proof.Machine.execSfcvtF32F64 d a s
  | .sfcvtF64F32 d a => Sys2Proof.Machine.execSfcvtF64F32 d a s
  | .sfaddF64 d a b => Sys2Proof.Machine.execSfaddF64 d a b s
  | .sfsubF64 d a b => Sys2Proof.Machine.execSfsubF64 d a b s
  | .sfmulF64 d a b => Sys2Proof.Machine.execSfmulF64 d a b s
  | .sfdivF64 d a b => Sys2Proof.Machine.execSfdivF64 d a b s
  | .sfsqrtF64 d a => Sys2Proof.Machine.execSfsqrtF64 d a s
  | .sfminF64 d a b => Sys2Proof.Machine.execSfminF64 d a b s
  | .sfmaxF64 d a b => Sys2Proof.Machine.execSfmaxF64 d a b s
  | .sfcmpEqF64 d a b => Sys2Proof.Machine.execSfcmpEqF64 d a b s
  | .sfcmpLtF64 d a b => Sys2Proof.Machine.execSfcmpLtF64 d a b s
  | .sfcmpLeF64 d a b => Sys2Proof.Machine.execSfcmpLeF64 d a b s
  | .sfcvtF64I64 d a => Sys2Proof.Machine.execSfcvtF64I64 d a s
  | .sfcvtI64F64 d a => Sys2Proof.Machine.execSfcvtI64F64 d a s
  | .endTask => Sys2Proof.Machine.execEndTask s
  | .eret => Sys2Proof.Machine.execEret s
  | .uiret => Sys2Proof.Machine.execUiret s
  | .halt => Sys2Proof.Machine.execHalt s
  | .fenceSv => Sys2Proof.Machine.execFenceSv s
  | .fenceVs => Sys2Proof.Machine.execFenceVs s
  | .bsync => Sys2Proof.Machine.execBsync s
  | .barb => Sys2Proof.Machine.execBarb s
  | .join => Sys2Proof.Machine.execJoin s
  | .tlbiAll => Sys2Proof.Machine.execTlbiAll s
  | .nop => Sys2Proof.Machine.execNop s
  | .hintBt => Sys2Proof.Machine.execHintBt s
  | .hintBn => Sys2Proof.Machine.execHintBn s
  | .prea => Sys2Proof.Machine.execPrea s
  | .fenceArray => Sys2Proof.Machine.execFenceArray s
  | .fenceArrayW => Sys2Proof.Machine.execFenceArrayW s
  | .cwball => Sys2Proof.Machine.execCwball s
  | .cwbiall => Sys2Proof.Machine.execCwbiall s
  | .registerWrite win addr v => Sys2Proof.Machine.execRegisterWrite win addr v s
  | .flagsRead d => Sys2Proof.Machine.execFlagsRead d s
  | .flagsWrite v => Sys2Proof.Machine.execFlagsWrite v s
  | .srseedWrite v => Sys2Proof.Machine.execSrseedWrite v s
  | .rmodeWrite v => Sys2Proof.Machine.execRmodeWrite v s
  | .vlcfgWrite v => Sys2Proof.Machine.execVlcfgWrite v s
  | .bpartWrite v => Sys2Proof.Machine.execBpartWrite v s
  | .vstartWrite v => Sys2Proof.Machine.execVstartWrite v s
  | .vmodeWrite v => Sys2Proof.Machine.execVmodeWrite v s
  | .trapstatWrite v => Sys2Proof.Machine.execTrapstatWrite v s
  | .trappcWrite v => Sys2Proof.Machine.execTrappcWrite v s
  | .uistatWrite v => Sys2Proof.Machine.execUistatWrite v s
  | .waitReread st th => Sys2Proof.Machine.execWaitReread st th s
  | .waitLimitExpiry st th => Sys2Proof.Machine.execWaitLimitExpiry st th s
  | .pauseExpiry st th => Sys2Proof.Machine.execPauseExpiry st th s
  | .bankThreadTrap st th => Sys2Proof.Machine.execBankThreadTrap st th s
  | .latchValid st bk k => Sys2Proof.Machine.execLatchValid st bk k s
  | .writeBackCommit st bk k => Sys2Proof.Machine.execWriteBackCommit st bk k s
  | .arrayDemand st bk k => Sys2Proof.Machine.execArrayDemand st bk k s
  | .crownLineEviction st bk line => Sys2Proof.Machine.execCrownLineEviction st bk line s
  | .farElementApply n => Sys2Proof.Machine.execFarElementApply n s
  | .farAcknowledgement n => Sys2Proof.Machine.execFarAcknowledgement n s
  | .copy st q => Sys2Proof.Machine.execCopy st q s
  | .copyNode st q => Sys2Proof.Machine.execCopyNode st q s
  | .precopy st q => Sys2Proof.Machine.execPrecopy st q s
  | .coll st q => Sys2Proof.Machine.execColl st q s
  | .rungel st q => Sys2Proof.Machine.execRungel st q s
  | .waitnzTimeout st q => Sys2Proof.Machine.execWaitnzTimeout st q s
  | .waitcw st q => Sys2Proof.Machine.execWaitcw st q s
  | .waitcwReread st q => Sys2Proof.Machine.execWaitcwReread st q s
  | .waitcwTimeout st q => Sys2Proof.Machine.execWaitcwTimeout st q s
  | .engineCommandCompletion st q => Sys2Proof.Machine.execEngineCommandCompletion st q s
  | .completionInterrupt st th => Sys2Proof.Machine.execCompletionInterrupt st th s
  | .remotePacketArrival p => Sys2Proof.Machine.execRemotePacketArrival p s
  | .collFlagRelease n => Sys2Proof.Machine.execCollFlagRelease n s
  | .remoteAcknowledgement st q data auth refused poison => Sys2Proof.Machine.execRemoteAcknowledgement st q data auth refused poison s
  | .linkTimeout st q => Sys2Proof.Machine.execLinkTimeout st q s
  | .portFailure port => Sys2Proof.Machine.execPortFailure port s
  | .hostAccess write pa len v => Sys2Proof.Machine.execHostAccess write pa len v s
  | .tailWrite st q v => Sys2Proof.Machine.execTailWrite st q v s
  | .hostQueueEntryRead st q => Sys2Proof.Machine.execHostQueueEntryRead st q s
  | .launchExpansion st => Sys2Proof.Machine.execLaunchExpansion st s
  | .depwordRead st n => Sys2Proof.Machine.execDepwordRead st n s
  | .schedulerPlacement st th => Sys2Proof.Machine.execSchedulerPlacement st th s
  | .softlimExpiry st th => Sys2Proof.Machine.execSoftlimExpiry st th s
  | .hardPreemption st th => Sys2Proof.Machine.execHardPreemption st th s
  | .preemptionDeferralExpiry st th => Sys2Proof.Machine.execPreemptionDeferralExpiry st th s
  | .gangStartAttempt st n => Sys2Proof.Machine.execGangStartAttempt st n s
  | .gangStart st n => Sys2Proof.Machine.execGangStart st n s
  | .gangStartAbandoned st n => Sys2Proof.Machine.execGangStartAbandoned st n s
  | .gangResume st g => Sys2Proof.Machine.execGangResume st g s
  | .gangDiscard st g => Sys2Proof.Machine.execGangDiscard st g s
  | .bindingRequest st v => Sys2Proof.Machine.execBindingRequest st v s
  | .unbindingRequest st v => Sys2Proof.Machine.execUnbindingRequest st v s
  | .parkWrite st v => Sys2Proof.Machine.execParkWrite st v s
  | .retirementRequest st v => Sys2Proof.Machine.execRetirementRequest st v s
  | .pwrctlWrite st v => Sys2Proof.Machine.execPwrctlWrite st v s
  | .columnVote st col dissent => Sys2Proof.Machine.execColumnVote st col dissent s
  | .resyncComplete st col => Sys2Proof.Machine.execResyncComplete st col s
  | .pageWalk st th va => Sys2Proof.Machine.execPageWalk st th va s
  | .retentionTick st bk => Sys2Proof.Machine.execRetentionTick st bk s
  | .retentionDeadline st th bk k => Sys2Proof.Machine.execRetentionDeadline st th bk k s
  | .forcedRefresh st bk k => Sys2Proof.Machine.execForcedRefresh st bk k s
  | .backgroundRefresh st bk k => Sys2Proof.Machine.execBackgroundRefresh st bk k s
  | .rowRepair st bk k row => Sys2Proof.Machine.execRowRepair st bk k row s
  | .laneQuarantine st bk => Sys2Proof.Machine.execLaneQuarantine st bk s
  | .bankRetirement st bk arr => Sys2Proof.Machine.execBankRetirement st bk arr s
  | .bankCopyComplete st bk => Sys2Proof.Machine.execBankCopyComplete st bk s
  | .uncorrectableError st th bank unit => Sys2Proof.Machine.execUncorrectableError st th bank unit s
  | .frontEndFailure st fe => Sys2Proof.Machine.execFrontEndFailure st fe s
  | .objectSubmission root base obj => Sys2Proof.Machine.execObjectSubmission root base obj s
  | .gelInstall st slot list => Sys2Proof.Machine.execGelInstall st slot list s
  | .keyset slot key => Sys2Proof.Machine.execKeyset slot key s
  | .fuseadv => Sys2Proof.Machine.execFuseadv s
  | .colreset st col => Sys2Proof.Machine.execColreset st col s
  | .blkreset st bk => Sys2Proof.Machine.execBlkreset st bk s
  | .maincycle => Sys2Proof.Machine.execMaincycle s
  | .tamperAlarm => Sys2Proof.Machine.execTamperAlarm s
  | .glitchAlarm => Sys2Proof.Machine.execGlitchAlarm s
  | .overTemperatureAlarm => Sys2Proof.Machine.execOverTemperatureAlarm s
  | .powerMeasurement st watts hot => Sys2Proof.Machine.execPowerMeasurement st watts hot s
  | .coolantFault => Sys2Proof.Machine.execCoolantFault s
  | .powerOn => Sys2Proof.Machine.execPowerOn s
  | .bringupPhaseComplete failed => Sys2Proof.Machine.execBringupPhaseComplete failed s
  | .repairCopyComplete st bk k row => Sys2Proof.Machine.execRepairCopyComplete st bk k row s

end Sys2Proof.Machine
end

