-- ==== Sys2Proof/Machine/Run.lean ====
section
/-!
DEFINITION. What one step of the module does: an input that waits, or the running hart's next instruction, with the events of its boundary, the
vector issue queue and the bank threads (16:R363-R367, 20:R435).
-/

namespace Sys2Proof.Machine

/-! ### Which side an instruction belongs to -/

/-- The majors of the vector side (14:R316). -/
def vectorMajor (m : Nat) : Bool :=
  decide (0x30 ≤ m ∧ m ≤ 0x3C) || ([0x20, 0x22, 0x23, 0x40, 0x43, 0x50, 0x51, 0x53, 0x57] : List Nat).contains m

/-- The instruction enters the vector issue queue (14:R316, 16:R363): every instruction of a vector-side major but SETVL, VMOVMS and VPCFG, which
the scalar side executes; BSYNC; a complement pair. -/
def vectorSide : Instr → Bool
  | .complementPair _ _ => true
  | .bsync => true
  | .setvl _ _ _ _ => false
  | .vmovms _ _ _ => false
  | .vpcfg _ _ _ _ => false
  | i => i.hasWord && vectorMajor (encode i % 128)

/-- The s registers that a vector-side instruction reads as it enters the queue (16:R363). -/
def queueRegs : Instr → Fin 64 × Fin 64
  | .vmovsm a _ => (a, 0)
  | .vsplat _ a => (a, 0)
  | .viota _ a => (a, 0)
  | .cwb a b => (a, b)
  | .cwbi a b => (a, b)
  | .cinv a b => (a, b)
  | _ => (0, 0)

/-- An instruction that traps at issue does not enter the queue: CINV at user level (13:R301). -/
def queueable (i : Instr) (s : State) : Bool :=
  vectorSide i && s.cur.bank.isNone && (match i with | .cinv _ _ => decide (s.thr.level = .supervisor) | _ => true)

/-- Enters an instruction in the queue; a full queue makes the thread wait (16:R363). -/
def enqueue (i : Instr) (s : State) : State :=
  if 64 ≤ s.thr.queue.length then { s with thr := { s.thr with drain := true } }
  else
    let r := queueRegs i
    let q : QEntry := ⟨s.front.pc, i, captureCtx s r.1 r.2, none, none, none⟩
    let s := { s with thr := { s.thr with queue := s.thr.queue ++ [q] } }
    s.setFront (s.front.fallTo (s.front.pc + BitVec.ofNat 64 i.len))

/-- An instruction has run: a hard pre-emption or an invalidation that was to stop it within has done so, or acts at the next boundary (13:R295,
16:R365). -/
def uncut (o : Out) : Out :=
  match o with
  | .next s => .next { s with cut := none, farStop := none }
  | .fault f => .fault f
  | .refused r => .refused r

/-- The instruction of a queue entry: as it was queued, or what the words that the host wrote into the saved record hold, if that is an instruction
of the vector side, or a complement pair of two (02:R41, 20:R443). -/
noncomputable def QEntry.current (q : QEntry) : Option Instr :=
  match q.words with
  | none => some q.instr
  | some w =>
    match decode (natToBytes 16 w) with
    | .error _ => none
    | .ok (i, rest) =>
      match i.cpFields with
      | some (true, _) =>
        match decode rest with
        | .ok (j, _) => if pairOk i j then some (.complementPair i j) else none
        | .error _ => none
      | _ => if vectorSide i then some i else none

/-- The front with the progress that an entry of the queue holds: the element it has lost, and what ERET stored into it (13:R296, 20:R436). -/
def Front.load (f : Front) (q : QEntry) : Front :=
  match q.prog with
  | some p => { f with vpoison := p.vpoison, sprog := p.sprog, lost := q.lost }
  | none => { f with lost := q.lost }

/-- The vector side runs the oldest queued instruction (16:R363); the scalar side that waits then tries again. -/
noncomputable def runQueued (s : State) : Out :=
  match s.thr.queue with
  | [] => .next s
  | e :: rest =>
    let t := { s.thr with drain := false, front := s.thr.front.load e }
    match e.current with
    | some i => uncut (exec i { s with thr := { t with queue := { e with instr := i, prog := none, words := none } :: rest }, vrun := true })
    | none => .next (enterVector ⟨cIllegal, BitVec.ofNat 64 (e.words.getD 0), true, false⟩ { s with thr := t, cut := none, farStop := none })

/-! ### Fetch and execute -/

/-- What a fetched word leads to: its instruction runs, or enters the queue behind others; or the traps of 02:R35 and 22:R476. -/
def issue (f : Fetched) (s : State) : Out :=
  match f with
  | .ok i => if queueable i s && s.mustDrain then .next (enqueue i s) else exec i s
  | .illegal bits => trap cIllegal bits s
  | .fault va => trap cFetch va s
  | .broken =>
    match s.thr.task with
    | some t => .next (endLaunch s t.id.stack t.id.launch lsCode t.id.num)
    | none => trap cFetch s.front.pc s

/-- Fetches the next instruction and runs it. -/
noncomputable def fetchExec (s : State) : Out :=
  let f := fetchInstr s
  uncut (issue f.2 f.1)

/-- Fetches the next instruction and, if it is of the vector side, enters it in the queue ahead of its execution; any other waits. -/
noncomputable def fetchAhead (s : State) : Out :=
  let f := fetchInstr s
  match f.2 with
  | .ok i => if queueable i f.1 then .next (enqueue i f.1) else .next s
  | _ => .next s

/-! ### Harts -/

/-- What a bank does of its own before its next instruction: a debt of 12 is refreshed (04:R101), a suspect lane group is quarantined (21:R458). -/
def bankDue (s : State) (b : Nat) : Option State :=
  match (List.range 16).find? (fun k => decide (12 ≤ ((s.bank b).debt[idx16 k]).toNat)) with
  | some k => some (forcedSteps b (idx16 k) s)
  | none => if (suspectGroup (s.bank b)).isSome then some (quarantine s b) else none

/-- The same for the banks that the running control thread owns. -/
def banksDue (s : State) : Option State := s.ownedAll.findSome? (fun p => bankDue s p.2)

/-- The event that a control thread takes at its boundary: what its banks do first, then in the rank of 20:R435 hard pre-emption, retention deadline,
uncorrectable error, completion interrupt. A hard pre-emption that is to stop the next instruction within is not taken here. -/
def boundaryEvent (s : State) : Option State :=
  match banksDue s with
  | some t => some t
  | none =>
    if s.cut.isSome then none
    else if hardDue s then some (hardPreempt s.tid s)
    else if s.thr.tr.busy then (if uiDue s then some (enterUi s) else none)
    else
      match dueDeadline s with
      | some (b, k) => some (takeDeadline b k s)
      | none => if s.thr.ueReq.isSome then some (takeUe s) else if uiDue s then some (enterUi s) else none

/-- The running control thread: its vector side while it waits for it, else its next instruction. -/
noncomputable def runScalar (s : State) : Out :=
  if s.thr.drain && !s.thr.queue.isEmpty then runQueued s else fetchExec { s with thr := { s.thr with drain := false } }

/-- A bank thread of the running control thread that can run. -/
def liveBank (s : State) : Option Nat := (s.thr.bts.find? (fun p => decide (p.2.status = .running))).map (fun p => p.1)

/-- The control thread at SPLIT (16:R367): it takes the trap of a stopped bank thread, releases a barrier, completes when all have joined, and
otherwise lets a bank thread run. -/
def runSplit (s : State) : State :=
  if s.cut.isNone && hardDue s then hardPreempt s.tid s
  else if s.thr.bts.any (fun p => match p.2.status with | .stopped _ => true | _ => false) then takeBankTrap s
  else
    match liveBank s with
    | some j => { s with cur := { s.cur with bank := some j } }
    | none => if s.thr.bts.all (fun p => decide (p.2.status = .joined)) then completeSplit s else releaseBarrier s

/-- One step of a control thread. -/
noncomputable def runControl (s : State) : Out :=
  match s.thr.cond with
  | .idle => .next s
  | .ready _ => .next s
  | .splitWait => .next (runSplit s)
  | .waitWord _ _ _ => .next ((boundaryEvent s).getD (rereadWait s))
  | .paused => .next ((boundaryEvent s).getD (expirePause s))
  | .running =>
    match boundaryEvent s with
    | some t => .next t
    | none => runScalar s

/-- A deadline or an uncorrectable error that bank thread `j` takes at its boundary (04:R100, 21:R463); it waits while the control thread is taking a
trap (20:R435). -/
def bankEvent (s : State) (j : Nat) : Option State :=
  let b := s.ownBank j
  if s.thr.tr.busy || decide (s.thr.cond ≠ .splitWait) then none
  else
    match (List.range 16).find? (fun k => (s.bank b).deadline.getLsbD k) with
    | some k => some (takeDeadline b (idx16 k) s)
    | none =>
      match s.thr.ueReq with
      | some v => if fieldOf v 15 8 = j then some (takeUe s) else none
      | none => none

/-- The event of bank thread `j`'s boundary: what its bank does first; nothing more while it owes a resumed instruction (16:R371) or the hard
pre-emption is to stop it within its next instruction; then the hard pre-emption of its thread, or a trap. -/
def bankBoundary (s : State) (j : Nat) : Option State :=
  match bankDue s (s.ownBank j) with
  | some t => some t
  | none =>
    if (s.bt j).front.owed || s.cut.isSome then none
    else if hardDue s then some (hardPreempt s.tid s)
    else bankEvent s j

/-- One step of bank thread `j`: it runs while it can, and gives way to the control thread where it cannot. -/
noncomputable def runBank (j : Nat) (s : State) : Out :=
  match (s.bt j).status with
  | .running =>
    match bankBoundary s j with
    | some t => .next t
    | none => fetchExec s
  | _ => .next { s with cur := { s.cur with bank := none } }

/-- One step of the running hart. -/
noncomputable def runHart (s : State) : Out :=
  match s.cur.bank with
  | some j => runBank j s
  | none => runControl s

/-! ### Inputs -/

/-- The steps of the table that come from outside a hart's instruction stream. The register-write steps belong to CRW and come about inside
it (15:R350). -/
def isInput : Instr → Bool
  | .registerWrite _ _ _ => false
  | .flagsRead _ => false
  | .flagsWrite _ => false
  | .srseedWrite _ => false
  | .rmodeWrite _ => false
  | .vlcfgWrite _ => false
  | .bpartWrite _ => false
  | .vstartWrite _ => false
  | .vmodeWrite _ => false
  | .trapstatWrite _ => false
  | .trappcWrite _ => false
  | .uistatWrite _ => false
  | .illegalInstruction _ => false
  | .complementPair _ _ => false
  | i => !i.hasWord

/-- A control thread is at a boundary at which its scalar side may run ahead: running, no event due, not waiting for its vector side. -/
def mayIssue (s : State) : Bool :=
  s.cur.bank.isNone && decide (s.thr.cond = .running) && !s.thr.drain && (boundaryEvent s).isNone

/-- Switches to a hart; a bank thread must be running. -/
def switchHart (st th : Nat) (bank : Option Nat) (s : State) : State :=
  let t := s.switchTo st th none
  match bank with
  | none => t
  | some j => if (mapGet t.thr.bts j).map (fun b => b.status) = some .running then { t with cur := { t.cur with bank := some j } } else t

/-- The bits of `flip` flip in word `n` of `size` bits. -/
def flipWord {w : Nat} (v : BitVec w) (size n flip : Nat) : BitVec w := setEl v size n (getEl v size n ^^^ (flip % 2 ^ size))

/-- The same in a list of bytes, word `n` of 32 bytes. -/
def flipBytes (m : Memory) (n flip : Nat) : Memory := memWriteN m (32 * n) 32 (memReadN m (32 * n) 32 ^^^ (flip % 2 ^ 256))

/-- An error that ECC cannot correct changes the bits of its word outside the cells, and they stand (21:R448). Words of a save slot, but for the images
of FREE latches, are not delivered once one of them is poisoned (21:R450), and stay as they are. -/
def flipPlace (p : Place) (flip : Nat) (s : State) : State :=
  match p with
  | .latch b k w =>
    let r := s.wreg b (idx16 k)
    s.setW b (idx16 k) { r with latch := flipWord r.latch 256 (w % 64) flip }
  | .line b l w =>
    let x := s.bank b
    match mapGet x.lines l with
    | some y => s.setBank b { x with lines := mapSet x.lines l { y with data := flipWord y.data 256 (w % 4) flip } }
    | none => s
  | .scratch b w => s.setBank b { s.bank b with scratch := flipBytes (s.bank b).scratch w flip }
  | .slot _ _ => s
  | .slotLatch b n k w =>
    match (s.bank b).slot n with
    | some y =>
      let r := y.regs[idx16 k]
      s.setBank b ((s.bank b).setSlot n (some { y with regs := y.regs.set (idx16 k) { r with latch := flipWord r.latch 256 (w % 64) flip } }))
    | none => s
  | .sector st h w =>
    let words := match sectorTask s st h with
      | some t => (match t.saved with | some z => recordWords t z | none => [])
      | none => []
    let host := sectorBytes s st h
    let new := (List.range 32).foldl (fun l i =>
      let f := flip / 2 ^ (8 * i) % 256
      if f = 0 then l else mapSet l (32 * w + i) (recordByte host words (32 * w + i) ^^^ BitVec.ofNat 8 f)) host
    s.setStack st { s.stack st with sectors := mapSet (s.stack st).sectors h new }
  | .bib st key w =>
    match mapGet (s.stack st).bib key with
    | some y => s.setStack st { s.stack st with bib := mapSet (s.stack st).bib key { y with bytes := flipBytes y.bytes w flip } }
    | none => s

/-- A word in the cells takes an error (21:R445): one that ECC can correct is corrected where it is read, any other changes these of its bits. -/
def upsetCells (word : Nat) (fatal : Bool) (flip : Nat) (s : State) : State :=
  if 2 ^ 35 ≤ word then s
  else { s with latent := mapSet s.latent word (fatal || mapGetD s.latent word false), dram := if fatal then flipBytes s.dram word flip else s.dram }

/-- A word outside the cells takes an error (21:R445). -/
def upsetPlace (p : Place) (fatal : Bool) (flip : Nat) (s : State) : State :=
  let s := if fatal then flipPlace p flip s else s
  { s with upsets := (p, fatal || s.upsets.any (fun e => decide (e.1 = p) && e.2)) :: s.upsets.filter (fun e => decide (e.1 ≠ p)) }

/-- Bits of a register or of its carried residue flip. -/
def SReg.fault (r : SReg) (val : Word) (res : BitVec 4) : SReg := ⟨r.val ^^^ val, r.res ^^^ res⟩

/-- An s register, or the shadow copy of one of s48 to s63, takes an error (21:R445). -/
def faultS (tid : Nat) (r : Fin 64) (shadow : Bool) (val : Word) (res : BitVec 4) (s : State) : State :=
  let t := s.thread tid
  let i := idx16 r.val
  if shadow then s.setThread tid { t with shadow := t.shadow.set i (t.shadow[i].fault val res) }
  else s.setThread tid { t with sregs := t.sregs.set r (t.sregs[r].fault val res) }

/-- What an input does (log 2). -/
noncomputable def takeInput (e : Input) (s : State) : Out :=
  match e with
  | .event i => if isInput i then exec i s else .next s
  | .switch st th bank => .next (switchHart st.val th.val (bank.map (fun j => j.val)) s)
  | .runAhead => if mayIssue s then fetchAhead s else .next s
  | .drainOne => if s.cur.bank.isSome then .next s else (match banksDue s with | some t => .next t | none => runQueued s)
  | .evictXlat n => .next { s with xlat := listDrop s.xlat n }
  | .evictPtr n => .next { s with ptrs := listDrop s.ptrs n }
  | .upset word fatal flip => .next (upsetCells word fatal flip s)
  | .upsetAt p fatal flip => .next (upsetPlace p fatal flip s)
  | .laneFault f => .next { s with laneFault := some f }
  | .regFault st th r shadow val res => .next (faultS (st.val * 40 + th.val) r shadow val res s)
  | .xFault b r val res => .next (s.setBank b { s.bank b with x := (s.bank b).x.set r ((s.bank b).x[r].fault val res) })
  | .tileFault b t i val => .next (s.setBank b { s.bank b with t := (s.bank b).t.set t (flipWord (s.bank b).t[t] 32 (i % 4096) val.toNat) })
  | .ackFor cmd unit => .next { s with ackFor := some (cmd, unit) }
  | .farStop n => .next { s with farStop := some n }
  | .cut n => .next (if hardDue s && decide (s.thr.cond = .running ∨ s.thr.cond = .splitWait) then { s with cut := some n } else s)
  | .delayStore => .next { s with delay := true }
  | .landStore n => .next (landNth s n)
  | .dieFail d => .next (failDie d s)
  | .clearAlarms => .next { s with alarms := 0 }
  | .hostStore a v => .next (clearHosted { s with hostMem := memWrite s.hostMem a v } a)

/-- One step of the module: the first input that waits, else the running hart. -/
noncomputable def stepOnce (s : State) : Out :=
  match s.inputs with
  | e :: rest => takeInput e { s with inputs := rest }
  | [] => runHart s

/-! ### A machine about to fetch a given word -/

/-- The address of the word that `fetchAt` places: virtual address 0, physical 0x10000, under four tables at 0x1000 to 0x4000. -/
def codeBase : Nat := 0x10000

/-- The task that `fetchAt` lets run: root 0x1000. -/
def placedTask : TaskInfo :=
  { id := ⟨0, 0, 0⟩, ctx := 0, root := 0x1000, prio := 0, age := 0, ran := 0, need := 1, pref := 0, secver := 0, rowdep := false, gang := false,
    order := 0 }

/-- The frond that the task runs on: front end 0, both half-slabs of column 0. -/
def placedFrond : Frond :=
  { fe := 0, halves := 3, pairs := 0, spareFe := false, mode := 0, ways := 0, degr := 0, spareBk := false, nbanks := 16, splitC := false }

/-- The memory with the page tables and the word. -/
def placedMem (m : Memory) (nbits w : Nat) : Memory :=
  let m := memWriteN m 0x1000 8 0x2001
  let m := memWriteN m 0x2000 8 0x3001
  let m := memWriteN m 0x3000 8 0x4001
  let m := memWriteN m 0x4000 8 (codeBase + 0x1FF)
  memWriteN m codeBase 16 (w % 2 ^ nbits)

/-- A thread that runs the placed task at supervisor level from address 0, with banks 0-15. -/
def placedThread (t : Thread) : Thread :=
  { t with front := { t.front with pc := 0, owed := false }, level := .supervisor, bmask := 0xFFFF, bpart := ⟨16, 1, 16, 0⟩, queue := [], resume := [],
           drain := false, cond := .running, handlers := [], softReq := false, reqBy := none, hardReq := false, ueReq := none, bts := [],
           lostBind := none, task := some placedTask }

/-- A bank that holds no copy of the row of the word or of a table, and has nothing to do before the next instruction: nothing bound, no line, no
debt, no blame. -/
def placedBank (x : Bank) : Bank :=
  { x with w := vecMap WReg.unbind x.w, lines := [], presence := [], pend := [], debt := Vector.replicate 16 0, deadline := 0, blames := [],
           moving := false, gone := false, retired := false }

/-- `s` with a word where the running control thread fetches next. A BARB or JOIN word, which only a bank thread runs, is placed in a bank
instruction buffer with bank thread 0 at its offset 0. -/
def fetchAt (s : State) (nbits w : Nat) : State :=
  let t := placedThread s.thr
  let v := w % 2 ^ nbits
  let low (p : Nat) : Bool := decide (0x20000 / 32 ≤ p)
  let k := s.stack 0
  let s : State := { s with
    cur := ⟨0, 0, none⟩, thr := t, threads := mapErase s.threads 0, dram := placedMem s.dram nbits w, cellPoison := s.cellPoison.filter low,
    latent := s.latent.filter (fun e => low e.1), upsets := [], xlat := [], ptrs := [], vrun := false, cut := none, farStop := none, inputs := [],
    kernels := s.kernels.filter (fun x => decide (x.root ≠ 0x1000)) }
  let s : State := { s with banks := s.banks.map (fun e => if e.1 < 16 then (e.1, placedBank e.2) else e) }
  let k := { k with fronds := placedFrond :: k.fronds.filter (fun f => decide (f.fe ≠ 0)), excluded := false }
  if bankOnly v then
    let win : BibWin := ⟨memWriteN [] 0 16 v, 1, []⟩
    let k := { k with bib := mapSet k.bib 0 win }
    { s.setStack 0 k with cur := ⟨0, 0, some 0⟩
                          thr := { t with cond := .splitWait, bts := [(0, { BankThread.reset with status := .running, level := .supervisor })] } }
  else s.setStack 0 k

end Sys2Proof.Machine
end

