-- ==== Sys2Proof/Machine/Step.lean ====
section
/-!
DEFINITION. The step of the module, and a state about to fetch a given word.
-/

namespace Sys2Proof.Machine

/-- One step of the module. -/
noncomputable def step (s : State) : Host.Outcome State Fault Refusal := stepOnce s

/-- `s` with an instruction of the opcode table, its bits numbered as the table numbers them, placed where `step` fetches next. -/
def State.withFetchWord (s : State) (nbits w : Nat) : State := fetchAt s nbits w

end Sys2Proof.Machine
end

