-- ==== Sys2Proof/Safety.lean ====
section
/-!
DEFINITION. What counts as a safe run, in the terms statements use: a step that answers a next state; memories in canonical form.
-/

namespace Sys2Proof.Machine

/-- The outcome is a next state: no fault, no refusal. -/
def Goes (o : Out) : Prop := ∃ t, o = .next t

/-- Every byte memory of a bank is in canonical form. -/
def Bank.memWf (x : Bank) : Bool := x.scratch.wf

/-- Every byte memory of the module and of the host is in canonical form: DRAM cells, host memory, scratch ways, bank instruction buffers. -/
def State.memWf (s : State) : Bool :=
  s.dram.wf && s.hostMem.wf && s.banks.all (fun e => e.2.memWf) && s.stks.all (fun e => e.2.bib.all (fun w => w.2.bytes.wf))

end Sys2Proof.Machine
end

