-- ==== Sys2Proof/Certificates/Slice0/Obligations.lean ====
section
/-!
DEFINITION. Statements for the provers, with the definitions they are stated in: tables of what the rules give, conditions on the state, what a
step leaves unchanged.
-/

namespace Sys2Proof.Claims

open Sys2Proof.Machine

/-! ### Words written out from the encodings -/

/-- Words of the manual with the instruction each stands for. -/
noncomputable def knownWords : List (Nat × Nat × Instr) :=
  [(32, 0x40000102, .addi 2 0 256),                       -- addi s2, s0, 256
   (32, 0x01000102, .addi 2 0 4),                         -- 15, a counted sum
   (32, 0x00010086, .lea 1 8),
   (32, 0x00008110, .loop 2 4),
   (32, 0x00182208, .ld 4 1 0),
   (32, 0x00206181, .add 3 3 4),
   (32, 0x00000012, .endTask),
   (32, 0x02182189, .sd 3 1 8),                           -- 15, encodings
   (32, 0xFF40C28C, .beq 5 6 (-3)),
   (32, 0x00081F8D, .jmp 63 64),
   (32, 0x0007E00E, .jreg 0 63 0),
   (64, 0x1234567800000383, .li 7 0x12345678),
   (32, 0x0600A10A, .acqld 2 5 3),
   (32, 0x4649440A, .rmwCas 8 10 9 3),
   (32, 0x40288185, .sfaddF64 3 4 5),
   (32, 0x00180491, .crr 9 3),
   (32, 0x80208011, .crw 0 4 4)]

/-! ### Integer instructions -/

/-- The lowest n bits of a that are 0 in a row, from bit `f 0` on. -/
def zeroRun (a : Word) (f : Nat → Nat) : Nat := ((List.range 64).takeWhile (fun i => !a.getLsbD (f i))).length

/-- (ρ(a) + ρ(b) − c) mod 15 (15:R354). -/
def sumResidue (a b : SReg) : BitVec 4 :=
  BitVec.ofInt 4 (((a.res.toNat : Int) + b.res.toNat - (if 2 ^ 64 ≤ a.val.toNat + b.val.toNat then 1 else 0)) % 15)

/-- (ρ(a) − ρ(b) + bw) mod 15 (15:R354). -/
def differenceResidue (a b : SReg) : BitVec 4 :=
  BitVec.ofInt 4 (((a.res.toNat : Int) - b.res.toNat + (if a.val.toNat < b.val.toNat then 1 else 0)) % 15)

/-- (ρ(a) × ρ(b) − ρ(h)) mod 15, h being bits [127:64] of the unsigned product (15:R354). -/
def productResidue (a b : SReg) : BitVec 4 :=
  BitVec.ofInt 4 (((a.res.toNat : Int) * b.res.toNat - ((a.val.toNat * b.val.toNat / 2 ^ 64 % 15 : Nat) : Int)) % 15)

/-- A value written with the residue formed from it (15:R354, last row). -/
def formed (v : Word) : SReg := ⟨v, BitVec.ofNat 4 (v.toNat % 15)⟩

/-- 1 where a condition holds, else 0. -/
def truth (p : Prop) [Decidable p] : SReg := formed (if p then 1 else 0)

/-- Quotient of two signed numbers, truncated toward zero, modulo 2^64; all ones for a divisor 0 (15:R333). -/
def quotient (x y : Int) : Word := if y = 0 then BitVec.ofInt 64 (-1) else BitVec.ofInt 64 (Int.tdiv x y)

/-- What 15:R330-R333 and R354 say an integer instruction writes: destination, length in bytes, value and residue. -/
def integerResult (s : State) : Instr → Option (Fin 64 × Nat × SReg)
  | .add d a b => some (d, 4, ⟨BitVec.ofNat 64 ((s.sval a).toNat + (s.sval b).toNat), sumResidue (s.getS a) (s.getS b)⟩)
  | .sub d a b => some (d, 4, ⟨BitVec.ofInt 64 ((s.sval a).toInt - (s.sval b).toInt), differenceResidue (s.getS a) (s.getS b)⟩)
  | .and d a b => some (d, 4, formed (s.sval a &&& s.sval b))
  | .or d a b => some (d, 4, formed (s.sval a ||| s.sval b))
  | .xor d a b => some (d, 4, formed (s.sval a ^^^ s.sval b))
  | .andn d a b => some (d, 4, formed (s.sval a &&& ~~~ (s.sval b)))
  | .sll d a b => some (d, 4, formed (BitVec.ofNat 64 ((s.sval a).toNat * 2 ^ fieldOf (s.sval b) 5 0)))
  | .srl d a b => some (d, 4, formed (BitVec.ofNat 64 ((s.sval a).toNat / 2 ^ fieldOf (s.sval b) 5 0)))
  | .sra d a b => some (d, 4, formed (BitVec.ofInt 64 ((s.sval a).toInt / 2 ^ fieldOf (s.sval b) 5 0)))
  | .ror d a b =>
    let n := fieldOf (s.sval b) 5 0
    some (d, 4, formed (BitVec.ofNat 64 ((s.sval a).toNat / 2 ^ n + (s.sval a).toNat % 2 ^ n * 2 ^ (64 - n))))
  | .min d a b => some (d, 4, if (s.sval b).toInt < (s.sval a).toInt then s.getS b else s.getS a)
  | .max d a b => some (d, 4, if (s.sval b).toInt < (s.sval a).toInt then s.getS a else s.getS b)
  | .minu d a b => some (d, 4, if (s.sval b).toNat < (s.sval a).toNat then s.getS b else s.getS a)
  | .maxu d a b => some (d, 4, if (s.sval b).toNat < (s.sval a).toNat then s.getS a else s.getS b)
  | .seq d a b => some (d, 4, truth (s.sval a = s.sval b))
  | .sne d a b => some (d, 4, truth (s.sval a ≠ s.sval b))
  | .slt d a b => some (d, 4, truth ((s.sval a).toInt < (s.sval b).toInt))
  | .sltu d a b => some (d, 4, truth ((s.sval a).toNat < (s.sval b).toNat))
  | .sge d a b => some (d, 4, truth ((s.sval b).toInt ≤ (s.sval a).toInt))
  | .sgeu d a b => some (d, 4, truth ((s.sval b).toNat ≤ (s.sval a).toNat))
  | .addi d a i =>
    let b := formed (BitVec.ofInt 64 i.toInt)
    some (d, 4, ⟨BitVec.ofNat 64 ((s.sval a).toNat + b.val.toNat), sumResidue (s.getS a) b⟩)
  | .andi d a i => some (d, 4, formed (s.sval a &&& BitVec.ofInt 64 i.toInt))
  | .ori d a i => some (d, 4, formed (s.sval a ||| BitVec.ofInt 64 i.toInt))
  | .xori d a i => some (d, 4, formed (s.sval a ^^^ BitVec.ofInt 64 i.toInt))
  | .slli d a i => some (d, 4, formed (BitVec.ofNat 64 ((s.sval a).toNat * 2 ^ i.toNat)))
  | .srli d a i => some (d, 4, formed (BitVec.ofNat 64 ((s.sval a).toNat / 2 ^ i.toNat)))
  | .srai d a i => some (d, 4, formed (BitVec.ofInt 64 ((s.sval a).toInt / 2 ^ i.toNat)))
  | .slti d a i => some (d, 4, truth ((s.sval a).toInt < i.toInt))
  | .li d i => some (d, 8, formed (BitVec.ofInt 64 i.toInt))
  | .liu d i => some (d, 8, formed (BitVec.ofNat 64 i.toNat))
  | .lih d i => some (d, 8, formed (BitVec.ofNat 64 ((s.sval d).toNat % 2 ^ 32 + i.toNat * 2 ^ 32)))
  | .addil d i =>
    let b := formed (BitVec.ofInt 64 i.toInt)
    some (d, 8, ⟨BitVec.ofNat 64 ((s.sval d).toNat + b.val.toNat), sumResidue (s.getS d) b⟩)
  | .lea d i => some (d, 4, formed (BitVec.ofInt 64 (s.front.pc.toNat + 4 * i.toInt)))
  | .mul d a b => some (d, 4, ⟨BitVec.ofNat 64 ((s.sval a).toNat * (s.sval b).toNat), productResidue (s.getS a) (s.getS b)⟩)
  | .mulh d a b => some (d, 4, formed (BitVec.ofInt 64 ((s.sval a).toInt * (s.sval b).toInt / 2 ^ 64)))
  | .mulhu d a b => some (d, 4, formed (BitVec.ofNat 64 ((s.sval a).toNat * (s.sval b).toNat / 2 ^ 64)))
  | .div d a b => some (d, 4, formed (quotient (s.sval a).toInt (s.sval b).toInt))
  | .divu d a b => some (d, 4, formed (quotient (s.sval a).toNat (s.sval b).toNat))
  | .rem d a b =>
    let x := (s.sval a).toInt
    let y := (s.sval b).toInt
    some (d, 4, formed (if y = 0 then s.sval a else BitVec.ofInt 64 (x - y * Int.tdiv x y)))
  | .remu d a b =>
    let x := (s.sval a).toNat
    let y := (s.sval b).toNat
    some (d, 4, formed (if y = 0 then s.sval a else BitVec.ofNat 64 (x - y * (x / y))))
  | .clz d a => some (d, 4, formed (BitVec.ofNat 64 (zeroRun (s.sval a) (fun i => 63 - i))))
  | .ctz d a => some (d, 4, formed (BitVec.ofNat 64 (zeroRun (s.sval a) id)))
  | .popc d a => some (d, 4, formed (BitVec.ofNat 64 ((List.range 64).foldl (fun n i => n + ((s.sval a).getLsbD i).toNat) 0)))
  | _ => none

/-! ### Scalar floating point -/

/-- The rounding of a scalar instruction (15:R335): RMODE.RM, which on a control thread rounds SR as RNE, and RMODE.FTZ. -/
def floatCtl (s : State) : RCtl :=
  ⟨if s.cur.bank = none ∧ s.front.rmode.rm = 5 then 1 else s.front.rmode.rm.toNat, s.front.rmode.ftz, false⟩

/-- The LFSR that SR steps in a bank thread (07:R157). -/
def floatSeed (s : State) : BitVec 32 := match s.cur.bank with | none => 0 | some j => (s.bank (s.ownBank j)).lfsr

/-- A source in FP32 (`t` = 11) or FP64 (`t` = 12). -/
def floatIn (s : State) (t : BitVec 4) (r : Fin 64) : FReal :=
  fdecode t s.front.rmode.ftz ((s.sval r).toNat % (if t = 11 then 2 ^ 32 else 2 ^ 64))

/-- Round of an exact result, with the operation's own flags. -/
def floatRound (s : State) (t : BitVec 4) (x : Exact) : Rounded :=
  let r := roundTo t (floatCtl s) (floatSeed s) x.val
  ⟨r.code, r.flags ||| x.flags, r.lfsr⟩

/-- The lesser or the greater: exact, so no rounding step (08:R182). -/
def floatPick (s : State) (t : BitVec 4) (x : Exact) : Rounded :=
  let r := roundTo t ⟨1, s.front.rmode.ftz, false⟩ (floatSeed s) x.val
  ⟨r.code, r.flags ||| x.flags, floatSeed s⟩

/-- A comparison (15:R334): false for a NaN; NV for a signalling NaN, and where `strict` for any NaN. -/
def floatTest (s : State) (strict : Bool) (x y : FReal) (c : Int → Bool) : Rounded :=
  if x.isNaN || y.isNaN then ⟨0, if strict || decide (x = .nan true) || decide (y = .nan true) then fNV else 0, floatSeed s⟩
  else ⟨if c (cmpReal x y) then 1 else 0, 0, floatSeed s⟩

/-- What 15:R334 and R335 say a floating instruction writes: destination, the result with its flags and the LFSR after it. -/
def floatResult (s : State) : Instr → Option (Fin 64 × Rounded)
  | .sfaddF32 d a b => some (d, floatRound s 11 (addX (floatCtl s).mode (floatIn s 11 a) (floatIn s 11 b)))
  | .sfsubF32 d a b => some (d, floatRound s 11 (addX (floatCtl s).mode (floatIn s 11 a) (floatIn s 11 b).neg))
  | .sfmulF32 d a b => some (d, floatRound s 11 (mulX (floatIn s 11 a) (floatIn s 11 b)))
  | .sfdivF32 d a b => some (d, floatRound s 11 (divX (floatIn s 11 a) (floatIn s 11 b)))
  | .sfsqrtF32 d a => some (d, floatRound s 11 (sqrtX (floatIn s 11 a)))
  | .sfminF32 d a b => some (d, floatPick s 11 (minmaxX false (floatIn s 11 a) (floatIn s 11 b)))
  | .sfmaxF32 d a b => some (d, floatPick s 11 (minmaxX true (floatIn s 11 a) (floatIn s 11 b)))
  | .sfcmpEqF32 d a b => some (d, floatTest s false (floatIn s 11 a) (floatIn s 11 b) (fun c => decide (c = 0)))
  | .sfcmpLtF32 d a b => some (d, floatTest s true (floatIn s 11 a) (floatIn s 11 b) (fun c => decide (c < 0)))
  | .sfcmpLeF32 d a b => some (d, floatTest s true (floatIn s 11 a) (floatIn s 11 b) (fun c => decide (c ≤ 0)))
  | .sfaddF64 d a b => some (d, floatRound s 12 (addX (floatCtl s).mode (floatIn s 12 a) (floatIn s 12 b)))
  | .sfsubF64 d a b => some (d, floatRound s 12 (addX (floatCtl s).mode (floatIn s 12 a) (floatIn s 12 b).neg))
  | .sfmulF64 d a b => some (d, floatRound s 12 (mulX (floatIn s 12 a) (floatIn s 12 b)))
  | .sfdivF64 d a b => some (d, floatRound s 12 (divX (floatIn s 12 a) (floatIn s 12 b)))
  | .sfsqrtF64 d a => some (d, floatRound s 12 (sqrtX (floatIn s 12 a)))
  | .sfminF64 d a b => some (d, floatPick s 12 (minmaxX false (floatIn s 12 a) (floatIn s 12 b)))
  | .sfmaxF64 d a b => some (d, floatPick s 12 (minmaxX true (floatIn s 12 a) (floatIn s 12 b)))
  | .sfcmpEqF64 d a b => some (d, floatTest s false (floatIn s 12 a) (floatIn s 12 b) (fun c => decide (c = 0)))
  | .sfcmpLtF64 d a b => some (d, floatTest s true (floatIn s 12 a) (floatIn s 12 b) (fun c => decide (c < 0)))
  | .sfcmpLeF64 d a b => some (d, floatTest s true (floatIn s 12 a) (floatIn s 12 b) (fun c => decide (c ≤ 0)))
  | .sfcvtF32I64 d a => some (d, roundTo 11 (floatCtl s) (floatSeed s) (realOfInt (s.sval a).toInt))
  | .sfcvtF64I64 d a => some (d, roundTo 12 (floatCtl s) (floatSeed s) (realOfInt (s.sval a).toInt))
  | .sfcvtI64F32 d a => some (d, roundInt 5 ⟨2, s.front.rmode.ftz, true⟩ (floatSeed s) (floatIn s 11 a))
  | .sfcvtI64F64 d a => some (d, roundInt 5 ⟨2, s.front.rmode.ftz, true⟩ (floatSeed s) (floatIn s 12 a))
  | .sfcvtF32F64 d a => some (d, roundTo 11 (floatCtl s) (floatSeed s) (floatIn s 12 a))
  | .sfcvtF64F32 d a => some (d, roundTo 12 (floatCtl s) (floatSeed s) (floatIn s 11 a))
  | _ => none

/-- Sticky flags raised: the thread's scalar flags, in a bank thread its bank's (07:R159, R166; DEDUCED, log 12), and the bank's LFSR after
the instruction. -/
def floatRaise (s : State) (r : Rounded) : State :=
  match s.cur.bank with
  | none => { s with thr := { s.thr with flags := s.thr.flags ||| r.flags } }
  | some j =>
    let x := s.bank (s.ownBank j)
    s.setBank (s.ownBank j) { x with flags := x.flags ||| r.flags, lfsr := r.lfsr }

/-! ### Branches, jumps, loops -/

/-- The condition and the offset of a branch (15:R342). -/
def branchRow (s : State) : Instr → Option (Bool × Int)
  | .beq a b o => some (decide (s.sval a = s.sval b), o.toInt)
  | .bne a b o => some (decide (s.sval a ≠ s.sval b), o.toInt)
  | .blt a b o => some (decide ((s.sval a).toInt < (s.sval b).toInt), o.toInt)
  | .bge a b o => some (decide ((s.sval b).toInt ≤ (s.sval a).toInt), o.toInt)
  | .bltu a b o => some (decide ((s.sval a).toNat < (s.sval b).toNat), o.toInt)
  | .bgeu a b o => some (decide ((s.sval b).toNat ≤ (s.sval a).toNat), o.toInt)
  | _ => none

/-- pc + 4 × off, modulo 2^64. -/
def target (s : State) (off : Int) : Word := BitVec.ofInt 64 ((s.front.pc.toNat : Int) + 4 * off)

/-- The destination and the target of a jump (15:R343). -/
def jumpRow (s : State) : Instr → Option (Fin 64 × Word)
  | .jmp d o => some (d, target s o.toInt)
  | .jreg d a i => some (d, BitVec.ofInt 64 ((s.sval a).toInt + i.toInt))
  | _ => none

/-- The address residue check of 15:R355 passes for ra + imm: a carried code of 15 fails, and ρ of the sum is the sum of the residues less the
carry. -/
def addressResidueOk (a : SReg) (imm : Word) : Prop :=
  a.res ≠ 15 ∧ (a.val + imm).toNat % 15 = ((a.res.toNat : Int) + ((imm.toNat % 15 : Nat) : Int) - (if 2 ^ 64 ≤ a.val.toNat + imm.toNat then 1 else 0)) % 15

/-- The data residue check of 15:R355 passes. -/
def dataResidueOk (a : SReg) : Prop := a.res ≠ 15 ∧ a.res.toNat = a.val.toNat % 15

/-- The JREG of a row passes the check of its target. -/
def jumpResidueOk (s : State) : Instr → Prop
  | .jreg _ a i => addressResidueOk (s.getS a) (BitVec.ofInt 64 i.toInt)
  | _ => True

/-- Level d - 1 of a loop stack of depth d. -/
def topLevel (f : Front) : LoopLevel := f.loops[lvl4 (f.depth - 1)]

/-- The loop stack with its innermost level ended. -/
def dropLevel (f : Front) : Front := { f with loops := f.loops.set (lvl4 (f.depth - 1)) { topLevel f with v := false } }

/-! ### Traps -/

/-- What a trap entry leaves (20:R433, R435): TRAPCAUSE, TRAPVAL and TRAPPC, BUSY 1, PPL the level left, VEC and BT 0; supervisor level; the pc at
TRAPVEC; the handler counts as running (R438). -/
def entered (s : State) (cause : BitVec 8) (val pc : Word) : State :=
  let t := s.thr
  { s with
    thr := { t with
      tr := { t.tr with cause := cause, val := val, pc := BitVec.ofNat 50 (fieldOf pc 51 2), busy := true, ppl := t.level, vec := false, bt := false,
                        bank := 0, bpc := 0 }
      level := .supervisor, drain := false, cond := .running, handlers := (if t.cond = .splitWait then some t.front.pc else none) :: t.handlers,
      front := { t.front with pc := BitVec.ofNat 64 (t.tr.handler.toNat * 4) } }
    vrun := false }

/-- A control thread that can take a trap at once: it runs, its queue is empty, BUSY is 0. -/
def Trapping (s : State) : Prop := s.cur.bank = none ∧ s.vrun = false ∧ s.thr.queue = [] ∧ s.thr.tr.busy = false

/-- A word as TRAPVAL holds it (02:R35): the word that was fetched. -/
def wordVal (i : Instr) : Word := BitVec.ofNat 64 (encode i)

/-- The privileged instructions with a word (00:R4, 17:R389-R394, 13:R301). -/
def privileged : Instr → Bool
  | .eret => true
  | .halt => true
  | .tlbiVA _ _ => true
  | .tlbiAS _ => true
  | .tlbiAll => true
  | .wayset _ _ => true
  | .cinv _ _ => true
  | .crr _ r => decide (0x080 ≤ r.toNat ∧ r.toNat ≤ 0x085)
  | .crw _ _ r => decide (r.toNat ≤ 2 ∨ r.toNat = 0x00A ∨ r.toNat = 0x033 ∨ r.toNat = 0x034 ∨ r.toNat = 0x040 ∨ r.toNat = 0x041 ∨
      (0x080 ≤ r.toNat ∧ r.toNat ≤ 0x085) ∨ (0x100 ≤ r.toNat ∧ r.toNat ≤ 0x13F))
  | _ => false

/-- The level a handler finds in PPL and the pc it returns to, with no vector-side instruction held; the handler has ended, and one that interrupted the
SPLIT at that pc returns to the wait there (20:R436, R438). -/
def returned (s : State) : State :=
  let t := s.thr
  let pc := BitVec.ofNat 64 (t.tr.pc.toNat * 4)
  { s with thr := { t with level := t.tr.ppl, tr := { t.tr with busy := false },
                           cond := if t.handlers.headD none = some pc then .splitWait else .running, handlers := t.handlers.drop 1,
                           front := { t.front with pc := pc, owed := false } } }

/-! ### Instructions without an effect of their own -/

/-- Instructions that only move the pc, with their length (02:R48, 17:R395). -/
def plainRow : Instr → Option Nat
  | .nop => some 4
  | .hintBt => some 4
  | .hintBn => some 4
  | .hintCpf _ => some 4
  | .hint long _ => some (if long then 8 else 4)
  | _ => none

/-! ### Control registers -/

/-- The executing banks of an instruction that issues now: the thread's owned banks under BMASK and BPART, or a bank thread's own (16:R360). -/
def executing (s : State) : List (Nat × Nat) :=
  match s.cur.bank with
  | some j => [(j, s.ownBank j)]
  | none => (s.ownedAll).filter (fun q => s.thr.bmask.getLsbD q.1)

/-- What a control register whose value is a plain field reads as (15:R350 and the layouts it points to). -/
def plainCreg (s : State) (n : Nat) : Option Word :=
  let t := s.thr
  let f := s.front
  let put (l : List (Nat × Nat)) : Word := BitVec.ofNat 64 ((l.map (fun p => p.1 * 2 ^ p.2)).sum)
  match n with
  | 0x010 => some (put [(b2n f.loops[0].v, 0), (f.loops[0].fin.toNat, 2), (f.loops[0].count.toNat, 32)])
  | 0x011 => some (put [(b2n f.loops[1].v, 0), (f.loops[1].fin.toNat, 2), (f.loops[1].count.toNat, 32)])
  | 0x012 => some (put [(b2n f.loops[2].v, 0), (f.loops[2].fin.toNat, 2), (f.loops[2].count.toNat, 32)])
  | 0x013 => some (put [(b2n f.loops[3].v, 0), (f.loops[3].fin.toNat, 2), (f.loops[3].count.toNat, 32)])
  | 0x014 => some (put [(f.loops[0].start.toNat, 2)])
  | 0x015 => some (put [(f.loops[1].start.toNat, 2)])
  | 0x016 => some (put [(f.loops[2].start.toNat, 2)])
  | 0x017 => some (put [(f.loops[3].start.toNat, 2)])
  | 0x003 => some (put [((s.ownedAll.foldl (fun a q => a ||| (s.bank q.2).flags) t.flags).toNat, 0)])
  | 0x000 => some (put [(f.vlcfg.fmt.toNat, 0), (f.vlcfg.blk.toNat, 8), (f.vlcfg.vl.toNat, 15), (f.vlcfg.live.toNat, 32)])
  | 0x001 => some (put [(f.vstart.toNat, 0)])
  | 0x002 => some (put [(f.vpoison.elem.toNat, 0), (f.vpoison.opnd.toNat, 18), (f.vpoison.reg.toNat, 20), (b2n f.vpoison.v, 63)])
  | 0x004 => some (put [(f.rmode.rm.toNat, 0), (b2n f.rmode.ftz, 4)])
  | 0x005 => some (put [(t.srseed.toNat, 0)])
  | 0x006 => some (put [(f.pcfg.wb.toNat, 0), (f.pcfg.wa.toNat, 4), (f.pcfg.wd.toNat, 8), (b2n f.pcfg.sgn, 12)])
  | 0x007 => some (put [(b2n f.sprog.active, 63), (f.sprog.s.toNat, 27), (b2n f.sprog.full, 26), (b2n f.sprog.ck, 25), (b2n f.sprog.tp, 24),
      (f.sprog.ti.toNat, 22), (f.sprog.weight.toNat, 16), (f.sprog.pair.toNat, 8), (f.sprog.kstep.toNat, 0)])
  | 0x008 => some t.bmask
  | 0x009 => some (put [(t.bpart.base.toNat, 0), (t.bpart.count.toNat, 8), (t.bpart.min.toNat, 32), (t.bpart.req.toNat, 48),
      (if t.bpart.req = t.bpart.count then 0 else 1, 63)])
  | 0x00A => some (put [(b2n f.verify, 0)])
  | 0x020 => some (put [(b2n t.ui.en, 0), (t.ui.handler.toNat, 2)])
  | 0x021 => some (put [(t.ui.epc.toNat, 2), (b2n t.ui.pend0, 61), (b2n t.ui.pend1, 62), (b2n t.ui.active, 63)])
  | 0x030 =>
    let id : Nat := s.cur.th / 2 * 2 ^ 53 + s.cur.st * 2 ^ 48
    some (match (s.stack s.cur.st).frond (s.cur.th / 2) with
      | none => put [(id, 0), (0xFFFF, 32)]
      | some b =>
        let n := ((List.range 8).filter (fun i => b.halves.getLsbD i)).length
        put ([(id, 0), (1, 0), (b2n b.spareBk, 1), (b2n b.spareFe, 2), (b2n b.splitC, 3), (b.degr, 8), (b.nbanks, 16), (b.pairs, 24), (n, 28)] ++
          (List.range 4).map (fun j => (if 2 * j < n then 4 * j else 15, 32 + 4 * j))))
  | 0x031 => some Config.timing
  | 0x032 => some (put ((List.range 16).map (fun k => (((executing s).map (fun q => ((s.bank q.2).debt[idx16 k]).toNat)).foldl max 0, 4 * k))))
  | 0x035 =>
    some (match (s.stack s.cur.st).frond (s.cur.th / 2) with
      | none => 0
      | some b => put [(if b.mode = 1 then 8 else if b.mode = 2 then b.ways.toNat else 0, 0), (b.mode.toNat, 4)])
  | 0x033 => some (put [(t.bankva.toNat, 27)])
  | 0x034 => some (put [(t.scrbase.toNat, 22)])
  | 0x041 => some f.instret
  | 0x080 => some (put [(t.tr.cause.toNat, 0)])
  | 0x081 => some (put [(t.tr.pc.toNat, 2)])
  | 0x082 => some t.tr.val
  | 0x083 => some (put [(t.tr.bpc.toNat, 0), (t.resume.length, 40), (t.tr.bank.toNat, 52), (b2n t.tr.bt, 60), (b2n t.tr.vec, 61),
      (if t.tr.ppl = .supervisor then 1 else 0, 62), (b2n t.tr.busy, 63)])
  | 0x084 => some (put [(t.tr.handler.toNat, 2)])
  | 0x085 => some t.tr.sscratch
  | n => if 0x120 ≤ n ∧ n < 0x140 then some 0 else none

/-- A counter of elapsed time, CYCLE or one of the stall counters that a cause has (15:R352, 16:R373): its value, and the state with another in its place. -/
def timeCounter (s : State) (n : Nat) : Option (Word × (State → Word → State)) :=
  if n = 0x040 then some (s.thr.cycle, fun u v => { u with thr := { u.thr with cycle := v } })
  else if h : 0x100 ≤ n ∧ n < 0x120 then
    let i : Fin 64 := ⟨n - 0x100, by omega⟩
    some (s.front.stalls[i], fun u v => u.setFront { u.front with stalls := u.front.stalls.set i v })
  else none

/-- The level and the queue let a control-register access go on: registers that a user may reach, and a drain where 15:R350 marks one. -/
def cregOpen (s : State) (n : Nat) (write : Bool) : Prop :=
  (s.level = .user → privileged (if write then .crw 0 0 (BitVec.ofNat 12 n) else .crr 0 (BitVec.ofNat 12 n)) = false) ∧ s.mustDrain = false

/-! ### Memory -/

/-- The row register that serves a DRAM address: the row of its group is bound in it (04:R83). -/
def latchOf (s : State) (pa : Nat) : Option WReg :=
  let w := (s.bank (pa / 2 ^ 27)).w[idx16 (pa / 2 ^ 23)]
  if w.state ≠ .free ∧ w.prow.toNat = pa / 2 ^ 11 % 4096 then some w else none

/-- The byte that a physical address holds: in the DRAM window that of the latch where its row is bound, else of its crown line, else of the cells; in
the scratch window that of the bank's scratch ways; in the host window that of host memory (03:R78, 04:R83, 12:R267, R270, 23:R482). -/
def byteIn (s : State) (pa : Nat) : Byte :=
  match windowOf pa with
  | .dram =>
    match latchOf s pa, mapGet (s.bank (pa / 2 ^ 27)).lines (pa / 2 ^ 7 % 2 ^ 20) with
    | some w, _ => w.latch.extractLsb' (8 * (pa % 2 ^ 11)) 8
    | none, some l => l.data.extractLsb' (8 * (pa % 2 ^ 7)) 8
    | none, none => memRead s.dram pa
  | .scratch => memRead (s.bank (scratchBank pa)).scratch (pa % 2 ^ 19)
  | .control => 0
  | .host => match hostAddr s pa with | some h => memRead s.hostMem h | none => 0

/-- The bytes from an address on, little-endian (00:R7). -/
def bytesIn (s : State) (pa : Nat) : Nat → Nat
  | 0 => 0
  | n + 1 => (byteIn s pa).toNat + 2 ^ 8 * bytesIn s (pa + 1) n

/-- Which storage an address names: two windows of host memory may name the same byte. -/
def placeOf (s : State) (pa : Nat) : Nat × Nat :=
  match windowOf pa with
  | .dram => (0, pa)
  | .scratch => (1, pa % 2 ^ 32)
  | .control => (2, pa)
  | .host => (3, (hostAddr s pa).getD 0)

/-- The 32-byte word at an address reads as poisoned: a flag of the latch, the line or the cells; or an uncorrectable error that ECC meets as
the word leaves the cells (21:R446-R449). -/
def poisonIn (s : State) (pa : Nat) : Bool :=
  match windowOf pa with
  | .dram =>
    match latchOf s pa, mapGet (s.bank (pa / 2 ^ 27)).lines (pa / 2 ^ 7 % 2 ^ 20) with
    | some w, _ => decide (getEl w.poison 4 (pa % 2 ^ 11 / 32) ≠ 0)
    | none, some l => decide (getEl l.poison 4 (pa % 2 ^ 7 / 32) ≠ 0)
    | none, none => s.cellPoison.contains (pa / 32) || s.latent.contains (pa / 32, true)
  | .scratch => decide (mapGetD (s.bank (scratchBank pa)).scratchPoison (pa % 2 ^ 19 / 32) 0 ≠ 0)
  | _ => false

/-- The memories are in their canonical form. -/
def memoriesWf (s : State) : Prop := s.dram.wf ∧ s.hostMem.wf ∧ ∀ b, (s.bank b).scratch.wf

/-- No unbinding of the row's group is under way (04:R86). -/
def noUnbinding (s : State) (pa : Nat) : Prop :=
  ∀ p ∈ (s.bank (pa / 2 ^ 27)).pend, p.grp = pa / 2 ^ 23 % 16 → p.act ≠ 2

/-- The dirty bit of a leaf entry can be set at once: its register is not being unbound, and where the entry lies in the cells its array is free, nothing of its
group being written back and no row being open there (04:R86, R88). -/
def leafFree (s : State) (l : Nat) : Prop :=
  let x := s.bank (l / 2 ^ 27)
  noUnbinding s l ∧ (latchOf s l = none → mapGet x.lines (l / 2 ^ 7 % 2 ^ 20) = none →
    (∀ p ∈ x.pend, p.grp ≠ l / 2 ^ 23 % 16) ∧ (x.w[idx16 (l / 2 ^ 23)]).state ≠ .openClean ∧ (x.w[idx16 (l / 2 ^ 23)]).state ≠ .openDirty)

/-- The dirty bit that a write-back sets meets no other work (04:R86, R88, R105): its entry lies in the group that is written back itself, or it can be set at
once and lies in no group of `others`. -/
def leafReady (s : State) (leaf : Option Nat) (own : Nat × Nat) (others : List (Nat × Nat)) : Prop :=
  ∀ l, leaf = some l → (l / 2 ^ 27, l / 2 ^ 23 % 16) = own ∨ ((l / 2 ^ 27, l / 2 ^ 23 % 16) ∉ others ∧ leafFree s l)

/-- A posted element comes from the running party (17:R376): its thread, in a bank thread its bank. -/
def awaited (s : State) (p : Posted) : Bool :=
  match s.cur.bank with
  | none => p.thread == s.tid
  | some j => p.thread == s.tid && p.bank == s.ownBank j

/-- Nothing but the storage that serves an address takes part in an access there: no store is delayed (14:R315), no far store of a bank thread's own
waits (14:R310), no word outside the cells holds an error that ECC would meet (21:R446); the bank is not on the move (21:R461), no write-back of the row's
group is under way (04:R86), an access that needs the array finds no dirty row open there (04:R88), and a new crown line has room (12:R268). -/
structure Undisturbed (s : State) (pa : Nat) : Prop where
  stores : s.stores = []
  posted : s.cur.bank.isSome = true → ∀ p ∈ s.posted, awaited s p = true → p.applied = true
  upsets : s.upsets = []
  moving : (s.bank (pa / 2 ^ 27)).moving = false
  pend : ∀ p ∈ (s.bank (pa / 2 ^ 27)).pend, p.grp ≠ pa / 2 ^ 23 % 16
  array : latchOf s pa = none → ((s.bank (pa / 2 ^ 27)).w[idx16 (pa / 2 ^ 23)]).state ≠ .openDirty
  room : (s.bank (pa / 2 ^ 27)).lines.length < 256 * (s.bank (pa / 2 ^ 27)).cacheWays

/-- An access of `n` bytes at `va` that needs the entry bits of `need` reaches physical address `pa` in state `u` under translation `x`, looked up by `ask`
(15:R338): bits [63:52] zero, aligned, translated, permitted, outside the control window, populated, undisturbed. -/
structure Reaches (s : State) (ask : Asker) (va : Word) (n : Nat) (need : Need) (u : State) (x : Xlat) (pa : Nat) : Prop where
  range : va.toNat < 2 ^ 52
  aligned : va.toNat % n = 0
  translated : translate s ask s.thr.root va.toNat = (u, .found x)
  base : x.base % 2 ^ 16 = 0
  at_ : pa = x.base + va.toNat % 2 ^ 16
  user : s.level = .user → x.bit 5 = true
  read : need.r = true → x.bit 2 = true
  write : need.w = true → x.bit 3 = true
  atomic : need.fa = true → windowOf pa = .dram → x.bit 8 = true
  window : windowOf pa ≠ .control
  present : ∀ j < n, populated u (pa + j) = true
  still : Undisturbed u pa

/-- What an access may change beside bytes and its thread: crown lines and presence bits, precharges and write-backs under way, latches, scratch bytes and
poison marks, the cells and what ECC noted of them and of their rows, verified marks of code pages. Registers of every kind, counters, flags, LFSRs, debts and all
units stay; a row register keeps its tag, its row, its write permission and whether it is bound. -/
def AccessFrame (s t : State) : Prop :=
  t = { s with banks := t.banks, stks := t.stks, dram := t.dram, hostMem := t.hostMem, cellPoison := t.cellPoison, latent := t.latent,
               xlat := t.xlat, notices := t.notices, lanternNotices := t.lanternNotices } ∧
  (t.xlat.map (fun x => { x with hashed := false })) = s.xlat.map (fun x => { x with hashed := false }) ∧
  (∀ n, t.stack n = { s.stack n with log := (t.stack n).log, logCount := (t.stack n).logCount, logLost := (t.stack n).logLost }) ∧
  ∀ b, t.bank b = { s.bank b with w := (t.bank b).w, pend := (t.bank b).pend, presence := (t.bank b).presence, lines := (t.bank b).lines,
                                  scratch := (t.bank b).scratch, scratchPoison := (t.bank b).scratchPoison,
                                  corrected := (t.bank b).corrected, repairDue := (t.bank b).repairDue } ∧
    ∀ k : Fin 16, let y := (t.bank b).w[k]
      let x := (s.bank b).w[k]
      y = { x with state := y.state, latch := y.latch, poison := y.poison } ∧ y.state.bound = x.state.bound

/-- Destination, base register, offset, width in bytes, and signedness of a load (15:R337, R340). -/
def loadRow : Instr → Option (Fin 64 × Fin 64 × Word × Nat × Bool)
  | .lb d a i => some (d, a, BitVec.ofInt 64 i.toInt, 1, true)
  | .lh d a i => some (d, a, BitVec.ofInt 64 i.toInt, 2, true)
  | .lw d a i => some (d, a, BitVec.ofInt 64 i.toInt, 4, true)
  | .ld d a i => some (d, a, BitVec.ofInt 64 i.toInt, 8, false)
  | .lbu d a i => some (d, a, BitVec.ofInt 64 i.toInt, 1, false)
  | .lhu d a i => some (d, a, BitVec.ofInt 64 i.toInt, 2, false)
  | .lwu d a i => some (d, a, BitVec.ofInt 64 i.toInt, 4, false)
  | .acqld d a _ => some (d, a, 0, 8, false)
  | _ => none

/-- Data register, base register, offset and width in bytes of a store, and whether it is a release (15:R337, R340). -/
def storeRow : Instr → Option (Fin 64 × Fin 64 × Word × Nat × Bool)
  | .sb r a i => some (r, a, BitVec.ofInt 64 i.toInt, 1, false)
  | .sh r a i => some (r, a, BitVec.ofInt 64 i.toInt, 2, false)
  | .sw r a i => some (r, a, BitVec.ofInt 64 i.toInt, 4, false)
  | .sd r a i => some (r, a, BitVec.ofInt 64 i.toInt, 8, false)
  | .relst a b _ => some (b, a, 0, 8, true)
  | _ => none

/-- What a release waits for is done (14:R316, R321): the queue is empty, no far element and no delayed store of the thread is left. -/
def releasable (s : State) : Prop := s.mustDrain = false ∧ (∀ p ∈ s.posted, p.thread ≠ s.tid) ∧ ∀ d ∈ s.stores, d.tid ≠ s.tid

/-- The word that an atomic leaves, if it writes one (15:R341). -/
def atomicRow : Instr → Option (Fin 64 × Fin 64 × Fin 64 × (Word → Word → Word → Option Word))
  | .rmwAdd d a b _ => some (d, a, b, fun old v _ => some (old + v))
  | .rmwSwap d a b _ => some (d, a, b, fun _ v _ => some v)
  | .rmwCas d a b _ => some (d, a, b, fun old v c => if old = c then some v else none)
  | .rmwAnd d a b _ => some (d, a, b, fun old v _ => some (old &&& v))
  | .rmwOr d a b _ => some (d, a, b, fun old v _ => some (old ||| v))
  | .rmwXor d a b _ => some (d, a, b, fun old v _ => some (old ^^^ v))
  | .rmwMin d a b _ => some (d, a, b, fun old v _ => some (if v.toInt < old.toInt then v else old))
  | .rmwMax d a b _ => some (d, a, b, fun old v _ => some (if v.toInt < old.toInt then old else v))
  | .rmwMinu d a b _ => some (d, a, b, fun old v _ => some (if v.toNat < old.toNat then v else old))
  | .rmwMaxu d a b _ => some (d, a, b, fun old v _ => some (if v.toNat < old.toNat then old else v))
  | _ => none

/-- The data register whose residue CAS checks beside v's (15:R355). -/
def comparesWith : Instr → Option (Fin 64)
  | .rmwCas d _ _ _ => some d
  | _ => none

/-- Base register, offset and width in bytes, and the entry bits needed, of every scalar access (15:R337-R341). -/
def accessRow (i : Instr) : Option (Fin 64 × Word × Nat × Need) :=
  match loadRow i, storeRow i, atomicRow i with
  | some (_, a, o, n, _), _, _ => some (a, o, n, ⟨true, false, false⟩)
  | none, some (_, a, o, n, _), _ => some (a, o, n, ⟨false, true, false⟩)
  | none, none, some (_, a, _, _) => some (a, 0, 8, ⟨true, true, true⟩)
  | none, none, none => none

/-- The residue checks of an access's data operands pass (15:R355). -/
def dataOperandsOk (s : State) (i : Instr) : Prop :=
  (∀ r a o n q, storeRow i = some (r, a, o, n, q) → dataResidueOk (s.getS r)) ∧
  (∀ d a b f, atomicRow i = some (d, a, b, f) → dataResidueOk (s.getS b)) ∧
  ∀ d, comparesWith i = some d → dataResidueOk (s.getS d)

/-- The entry's first missing bit, in the order U, R, W, FA, bit 8 only for the DRAM window, with its cause (19:R419). -/
def missingBit (x : Xlat) (lvl : Level) (n : Need) (pa : Nat) : Option (BitVec 8) :=
  if lvl = .user ∧ x.bit 5 = false then some 0x08
  else if n.r = true ∧ x.bit 2 = false then some 0x08
  else if n.w = true ∧ x.bit 3 = false then some 0x07
  else if n.fa = true ∧ windowOf pa = .dram ∧ x.bit 8 = false then some 0x08
  else none

/-- The bytes that a store leaves: byte j of `v` at pa + j; every populated byte elsewhere as before, those of the leaf entry apart. -/
def stored (u t : State) (pa n v : Nat) (leaf : Option Nat) : Prop :=
  (∀ j < n, (byteIn t (pa + j)).toNat = v / 2 ^ (8 * j) % 2 ^ 8) ∧
  ∀ a, populated u a = true → (∀ j < n, placeOf u a ≠ placeOf u (pa + j)) → (∀ l, leaf = some l → ¬ (l ≤ a ∧ a < l + 8)) → byteIn t a = byteIn u a

/-- The leaf entry whose dirty bit a store at `pa` must set now: none where the cached entry holds the bit, or where a latch takes the store (its
write-back sets the bit) (19:R428). -/
def leafToMark (u : State) (x : Xlat) (pa : Nat) : Option Nat :=
  if x.bit (48 + pa / 4096 % 16) = true ∨ (windowOf pa = .dram ∧ (latchOf u pa).isSome = true) then none else some x.leafAddr

/-- The leaf entry is an aligned word of populated DRAM apart from the bytes stored, and its dirty bit can be set at once. -/
def leafApart (u : State) (leaf : Option Nat) (pa n : Nat) : Prop :=
  ∀ l, leaf = some l → l % 8 = 0 ∧ l < 2 ^ 40 ∧ leafFree u l ∧ ∀ j < n, placeOf u (pa + j) ∉ (List.range 8).map (fun i => placeOf u (l + i))

/-! ### Register writes -/

/-- Sets the running hart's own registers. -/
def withFront (s : State) (g : Front → Front) : State := s.setFront (g s.front)

/-- Sets something in each of a list of banks. -/
def overBanks (s : State) (l : List (Nat × Nat)) (g : Nat × Nat → Bank → Bank) : State := l.foldl (fun acc q => acc.setBank q.2 (g q (s.bank q.2))) s

/-- Sets level i of the loop stack. -/
def withLoop (s : State) (i : Fin 4) (g : LoopLevel → LoopLevel) : State := withFront s (fun f => { f with loops := f.loops.set i (g f.loops[i]) })

/-- Sets the trap registers. -/
def withTr (s : State) (g : TrapRegs → TrapRegs) : State := { s with thr := { s.thr with tr := g s.thr.tr } }

/-- The state that a permitted write of v into control register n leaves: only the writable fields change, at once and with the side effects that
each register's rule names (15:R349, R350 and the rules of the layouts). -/
def writtenCreg (s : State) (n : Nat) (v : Word) : Option State :=
  let b (w hi lo : Nat) : BitVec w := BitVec.ofNat w (fieldOf v hi lo)
  let loopWord (i : Fin 4) : State := withLoop s i (fun l => { l with count := b 32 63 32, fin := b 30 31 2, v := v.getLsbD 0 })
  let loopBase (i : Fin 4) : State := withLoop s i (fun l => { l with start := b 50 51 2 })
  match n with
  | 0x000 =>
    let c : VlCfg := ⟨b 15 46 32, b 15 29 15, b 5 12 8, b 4 3 0⟩
    let wide := if c.fmt = 0 then 8 else tagWidth c.fmt
    some (if c.vl.toNat % 2 ^ c.blk.toNat = 0 ∧ c.vl.toNat ≤ 16384 / wide ∧ c.live.toNat ≤ c.vl.toNat ∧ c.blk.toNat ≤ 11 then
      withFront s (fun f => { f with vlcfg := c }) else s)
  | 0x001 => some (withFront s (fun f => { f with vstart := b 15 14 0 }))
  | 0x002 => some (withFront s (fun f => { f with vpoison := ⟨v.getLsbD 63, b 4 23 20, b 2 19 18, b 15 14 0⟩ }))
  | 0x003 =>
    some (overBanks { s with thr := { s.thr with flags := b 5 4 0 } } s.ownedAll (fun _ x => { x with flags := b 5 4 0 }))
  | 0x004 =>
    let rm := fieldOf v 2 0
    some (withFront s (fun f => { f with rmode := ⟨v.getLsbD 4, if 1 ≤ rm ∧ rm ≤ 5 then b 3 2 0 else f.rmode.rm⟩ }))
  | 0x005 =>
    some (overBanks { s with thr := { s.thr with srseed := b 32 31 0 } } (executing s) (fun q x =>
      { x with lfsr := let l := b 32 31 0 ^^^ BitVec.ofNat 32 (q.1 * 2 ^ 24)
                       if l = 0 then 1 else l }))
  | 0x006 => some (withFront s (fun f => { f with pcfg := ⟨v.getLsbD 12, b 4 11 8, b 4 7 4, b 4 3 0⟩ }))
  | 0x007 =>
    some (withFront s (fun f => { f with sprog := ⟨v.getLsbD 63, b 3 29 27, v.getLsbD 26, v.getLsbD 25, v.getLsbD 24, b 2 23 22, b 4 19 16, b 3 10 8, b 6 5 0⟩ }))
  | 0x008 => some { s with thr := { s.thr with bmask := v } }
  | 0x009 =>
    let most := match (s.stack s.cur.st).frond (feOf s.cur.th) with | some f => f.nbanks | none => 0
    some (if s.thr.bpart.min.toNat ≤ fieldOf v 55 48 ∧ fieldOf v 55 48 ≤ most then
      { s with thr := { s.thr with bpart := { s.thr.bpart with req := b 8 55 48 } } } else s)
  | 0x00A => some (withFront s (fun f => { f with verify := v.getLsbD 0 }))
  | 0x010 => some (loopWord 0)
  | 0x011 => some (loopWord 1)
  | 0x012 => some (loopWord 2)
  | 0x013 => some (loopWord 3)
  | 0x014 => some (loopBase 0)
  | 0x015 => some (loopBase 1)
  | 0x016 => some (loopBase 2)
  | 0x017 => some (loopBase 3)
  | 0x020 => some { s with thr := { s.thr with ui := { s.thr.ui with handler := b 50 51 2, en := v.getLsbD 0 } } }
  | 0x021 =>
    let u := s.thr.ui
    some { s with thr := { s.thr with ui := { u with pend0 := u.pend0 && !v.getLsbD 61, pend1 := u.pend1 && !v.getLsbD 62 } } }
  | 0x033 => some { s with thr := { s.thr with bankva := b 25 51 27 } }
  | 0x034 => some { s with thr := { s.thr with scrbase := b 30 51 22 } }
  | 0x040 => some { s with thr := { s.thr with cycle := v } }
  | 0x041 => some (withFront s (fun f => { f with instret := v }))
  | 0x080 => some (withTr s (fun t => { t with cause := b 8 7 0 }))
  | 0x081 =>
    let u := withTr s (fun t => { t with pc := b 50 51 2 })
    some { u with thr := { u.thr with resume := [], heldPc := if s.thr.resume = [] then s.thr.heldPc else 0 } }
  | 0x082 => some (withTr s (fun t => { t with val := v }))
  | 0x083 =>
    some (withTr s (fun t => { t with busy := v.getLsbD 63 || (t.busy && decide (s.thr.resume ≠ [])),
                                      ppl := if v.getLsbD 62 then .supervisor else .user }))
  | 0x084 => some (withTr s (fun t => { t with handler := b 50 51 2 }))
  | 0x085 => some (withTr s (fun t => { t with sscratch := v }))
  | 0x030 => some s
  | 0x031 => some s
  | 0x032 => some s
  | 0x035 => some s
  | n => if 0x120 ≤ n ∧ n < 0x140 then some s else none

/-- The step that writes one control register, with its number and value. -/
def writeStep : Instr → Option (Nat × Word)
  | .registerWrite false n v => some (n, v)
  | .vlcfgWrite v => some (0x000, v)
  | .vstartWrite v => some (0x001, v)
  | .flagsWrite v => some (0x003, v)
  | .rmodeWrite v => some (0x004, v)
  | .srseedWrite v => some (0x005, v)
  | .bpartWrite v => some (0x009, v)
  | .vmodeWrite v => some (0x00A, v)
  | .uistatWrite v => some (0x021, v)
  | .trappcWrite v => some (0x081, v)
  | .trapstatWrite v => some (0x083, v)
  | _ => none

/-- Sets something in a stack's control units. -/
def withStack (s : State) (st : Nat) (g : Stack → Stack) : State := s.setStack st (g (s.stack st))

/-- The state that a write of v at offset `off` of a stack block leaves (18:R397-R401, 21:R465, 24:R502). -/
def writtenStackReg (s : State) (st off : Nat) (v : Word) : Option State :=
  let b (w hi lo : Nat) : BitVec w := BitVec.ofNat w (fieldOf v hi lo)
  match off with
  | 0x00 => some (withStack s st (fun k => { k with ageshift := b 5 4 0, softlim := b 16 31 16, ganglim := b 16 47 32 }))
  | 0x08 => some s
  | 0x10 => some (withStack s st (fun k => { k with park := b 40 39 0 }))
  | 0x18 => some (withStack s st (fun k => { k with ctxbase := v }))
  | 0x40 =>
    some (if 100 ≤ fieldOf v 15 0 ∧ fieldOf v 15 0 ≤ 420 then withStack s st (fun k => { k with limit := b 16 15 0 }) else s)
  | 0x800000 => some s
  | 0x800008 => some (withStack s st (fun k => { k with errcfg := b 8 7 0 }))
  | _ => none

/-- The step that writes one register of a stack block. -/
def stackWriteStep : Instr → Option (Nat × Nat × Word)
  | .registerWrite true addr v => if addr < 2 ^ 29 ∧ addr % 8 = 0 then some (addr / 2 ^ 24, addr % 2 ^ 24, v) else none
  | .parkWrite st v => some (st.val, 0x10, v)
  | .pwrctlWrite st v => some (st.val, 0x40, v)
  | _ => none

/-- What a register of a stack's block reads as (18:R397, R400, 21:R465, 24:R502). -/
def plainStackReg (s : State) (st off : Nat) : Option Word :=
  let k := s.stack st
  let put (l : List (Nat × Nat)) : Word := BitVec.ofNat 64 ((l.map (fun p => p.1 * 2 ^ p.2)).sum)
  match off with
  | 0x00 => some (put [(k.ageshift.toNat, 0), (k.softlim.toNat, 16), (k.ganglim.toNat, 32)])
  | 0x10 => some (put [(k.park.toNat, 0)])
  | 0x18 => some k.ctxbase
  | 0x40 => some (put [(k.limit.toNat, 0), (b2n k.hot, 32), (k.duty.toNat, 36)])
  | 0x800000 => some (put [(k.logCount.toNat % 2 ^ 32, 0), (k.logLost.toNat, 32)])
  | 0x800008 => some (put [(k.errcfg.toNat, 0)])
  | _ => none

/-- A scalar access of `n` bytes at `va` reaches bytes `sub` to `sub + n - 1` of the register at offset `off` of a stack's block (03:R80, 15:R338, 18:R397):
at supervisor level, with the rights that `need` names; no store is delayed, and the cached entry holds the page's dirty bit where the access writes. -/
structure ReachesBlock (s : State) (va : Word) (n : Nat) (need : Need) (u : State) (x : Xlat) (st off sub : Nat) : Prop where
  level : s.level = .supervisor
  range : va.toNat < 2 ^ 52
  aligned : va.toNat % n = 0
  translated : translate s s.asker s.thr.root va.toNat = (u, .found x)
  base : x.base % 2 ^ 16 = 0
  at_ : x.base + va.toNat % 2 ^ 16 = 2 ^ 41 + st * 2 ^ 24 + off + sub
  block : st < 32 ∧ off < 2 ^ 24 ∧ off % 8 = 0 ∧ sub + n ≤ 8
  read : need.r = true → x.bit 2 = true
  write : need.w = true → x.bit 3 = true ∧ x.bit (48 + (x.base + va.toNat % 2 ^ 16) / 4096 % 16) = true
  present : (u.stack st).excluded = false
  stores : u.stores = []

/-- A word with n bytes from byte `sub` on replaced by those of another (15:R339). -/
def mergedWord (v : Word) (sub n : Nat) (w : Word) : Word :=
  BitVec.ofNat 64 ((List.range 8).map (fun i =>
    (if sub ≤ i ∧ i < sub + n then w.toNat / 2 ^ (8 * (i - sub)) % 2 ^ 8 else v.toNat / 2 ^ (8 * i) % 2 ^ 8) * 2 ^ (8 * i))).sum

/-! ### Synchronisation, tasks, privileged instructions -/

/-- Completion of a vector-side instruction of `n` bytes (16:R363, R371, 20:R434): VSTART is 0, a resumed instruction has gone on; the queue gives up its
head, or the pc moves on. -/
def vectorDone (s : State) (n : Nat) (u : State) : State :=
  let t := withFront u (fun f => { f with vstart := 0, owed := false })
  if s.vrun then { t with thr := { t.thr with queue := t.thr.queue.drop 1 }, vrun := false }.retire else complete n t

/-- The instruction is at its turn on the vector side: it is the head of the queue, or nothing waits before it. -/
def atTurn (s : State) : Prop := (s.vrun = true ∧ s.thr.queue ≠ [] ∧ s.cur.bank = none) ∨ (s.vrun = false ∧ s.mustDrain = false)

/-- A bank in which one more vector-side instruction has run (21:R458). -/
def counted (x : Bank) : Bank := { x with count := x.count + 1 }

/-- A bank thread as SPLIT starts it at an offset (16:R367). -/
def startedBank (s : State) (v : Word) : BankThread :=
  ⟨{ Front.reset with pc := v, vlcfg := s.front.vlcfg, rmode := s.front.rmode, pcfg := s.front.pcfg, verify := s.front.verify }, s.thr.level, 0,
   .running⟩

/-- A bank thread counts as arrived at barrier n (17:R379). -/
def hasArrived (b : BankThread) (n : Nat) : Bool :=
  decide (n ≤ b.barb) || (match b.status with | .joined => true | .stopped _ => true | _ => false)

/-- Every bank thread that waits at a barrier which all others of the SPLIT have reached goes on after its BARB (17:R379). -/
def barriersOpened (s : State) : State :=
  let l := s.thr.bts
  { s with thr := { s.thr with bts := l.map (fun p =>
      if p.2.status = .atBarrier ∧ l.all (fun q => q.1 == p.1 || hasArrived q.2 p.2.barb) then
        (p.1, { p.2 with status := .running, front := { p.2.front.fallTo (p.2.front.pc + 4) with
          instret := (p.2.front.fallTo (p.2.front.pc + 4)).instret + 1 } })
      else p) } }

/-- The 20 words of a launch record (17:R380). -/
def recordAt (s : State) (pa : Nat) : List Word := (List.range 20).map (fun i => BitVec.ofNat 64 (bytesIn s (pa + 8 * i) 8))

/-- The record check of 17:R381 fails on the record's own words: a reserved bit, PRIO above 7, no completion word, a misaligned address. -/
def badRecord (w : List Word) : Prop :=
  let h := wordAt w 3
  fieldOf h 63 16 ≠ 0 ∨ fieldOf h 15 9 ≠ 0 ∨ 7 < fieldOf h 7 0 ∨ wordAt w 1 = 0 ∨ (wordAt w 1).toNat % 8 ≠ 0 ∨ (wordAt w 2).toNat % 8 ≠ 0

/-- The record that the launch unit copies. -/
def recordOf (s : State) (w : List Word) (i : TaskInfo) : LaunchRec :=
  { kernel := wordAt w 0, cword := wordAt w 1, dep := wordAt w 2, prio := fieldOf (wordAt w 3) 7 0, gang := (wordAt w 3).getLsbD 8,
    args := Vector.ofFn (fun n : Fin 16 => wordAt w (4 + n.val)), ctx := i.ctx, root := s.thr.root }

/-- The engine queue n of the running thread: 4 × slot + 2c + n, the slot being the number of bound fronds of lower front ends (12:R277, 18:R399). -/
def ownEngine (s : State) (q : Bool) : Fin 64 :=
  let slot := ((s.stack s.cur.st).fronds.filter (fun f => decide (f.fe < s.cur.th / 2))).length
  ⟨(4 * slot + 2 * (s.cur.th % 2) + b2n q) % 64, Nat.mod_lt _ (by decide)⟩

/-- Engine queue `n` of a stack. -/
def engineOf (s : State) (st : Nat) (n : Fin 64) : EngQ := (s.stack st).engines[n]

/-- The result FIFO of queue q. -/
def resultsOf (s : State) (q : Bool) : List Word := if q then s.thr.results[1] else s.thr.results[0]

/-- The result FIFO of queue q replaced. -/
def withResults (s : State) (q : Bool) (l : List Word) : State :=
  { s with thr := { s.thr with results := if q then s.thr.results.set 1 l else s.thr.results.set 0 l } }

/-- s48-s63 exchanged with their shadow copies (12:R282, R283). -/
def exchanged (t : Thread) : Thread :=
  { t with sregs := Vector.ofFn (fun i : Fin 64 => if h : 48 ≤ i.val then t.shadow[i.val - 48] else t.sregs[i])
           shadow := Vector.ofFn (fun i : Fin 16 => t.sregs[48 + i.val]) }

/-- The words of a task in an engine FIFO. -/
def pushedBy (e : EngQ) (id : TaskId) : List Word := (e.fifo.filter (fun w => decide (w.2.task = id))).map (fun w => w.1)

/-- The translations that TLBI removes, and the pointer entries of the walkers' caches (17:R393, 19:R417, R421): by page and root, by root, every one. -/
def purged (s : State) : Instr → Option ((Xlat → Bool) × (Ptr → Bool))
  | .tlbiVA a b =>
    let page := (s.sval a).toNat / 2 ^ 16
    some (fun x => decide (x.root = s.sval b) &&
        (decide (x.page = page) || ((x.bit 10 || x.run.isSome) && decide (x.page / 32 = page / 32))),
      fun p => decide (p.root = s.sval b) && decide (p.page / 2 ^ p.low = page / 2 ^ p.low))
  | .tlbiAS a => some (fun x => decide (x.root = s.sval a), fun p => decide (p.root = s.sval a))
  | .tlbiAll => some (fun _ => true, fun _ => true)
  | _ => none

/-! ### Row registers -/

/-- A register that is bound to a row (04:R82). -/
def isBound (r : WReg) : Bool := decide (r.state ≠ .free)

/-- A register whose latch differs from its row (04:R82). -/
def isDirty (r : WReg) : Bool := decide (r.state = .openDirty ∨ r.state = .heldDirty)

/-- The words of a bank's row registers that carry an error which nothing has read yet (21:R445). -/
abbrev Errors := Fin 16 → List (Nat × Bool)

/-- The errors of the latches of bank b. -/
def latchErrors (s : State) (b : Nat) : Errors := fun k =>
  s.upsets.filterMap (fun e => match e.1 with | .latch c g w => if c = b ∧ g = k.val then some (w % 64, e.2) else none | _ => none)

/-- A write-back of register k starts with the latch as it stands, errors included; `act` says what follows it: 0 nothing, 1 a precharge, 2 an unbinding
(04:R84, 05:R116). -/
def startedWb (er : Errors) (x : Bank) (k : Fin 16) (act : Nat) : Bank :=
  { x with pend := x.pend ++ [⟨k.val, (x.w[k]).prow.toNat, (x.w[k]).latch, (x.w[k]).poison, (x.w[k]).leaf, true, act, er k⟩] }

/-- Register k in another state. -/
def inState (x : Bank) (k : Fin 16) (st : WState) : Bank :=
  let r : WReg := { x.w[k] with state := st }
  { x with w := x.w.set k r }

/-- Register k unbound, with its bits and its tag kept (04:R86). -/
def unbound (x : Bank) (k : Fin 16) : Bank :=
  let r : WReg := { x.w[k] with state := .free, row := 0, prow := 0, writable := false, leaf := none }
  { x with w := x.w.set k r }

/-- WBK, PRE and PRE.D of one register in one bank (05:R116, R117). -/
def wbkBank (er : Errors) (x : Bank) (k : Fin 16) : Bank := if isDirty x.w[k] then startedWb er x k 0 else x

def preBank (er : Errors) (x : Bank) (k : Fin 16) : Bank :=
  match (x.w[k]).state with
  | .free => x
  | .openClean => inState x k .heldClean
  | .openDirty => startedWb er x k 1
  | .heldClean => x
  | .heldDirty => startedWb er x k 0

def preDropBank (er : Errors) (x : Bank) (k : Fin 16) : Bank :=
  match (x.w[k]).state with
  | .free => x
  | .openClean => unbound x k
  | .openDirty => startedWb er x k 2
  | .heldClean => unbound x k
  | .heldDirty => startedWb er x k 2

/-- An array demand on group k whose register holds no dirty row open (04:R85, R88): an open clean register is held. -/
def demandedBank (x : Bank) (k : Fin 16) : Bank :=
  match (x.w[k]).state with
  | .openClean => inState x k .heldClean
  | _ => x

/-- One REF step of group k (04:R97, 05:R119): after an array demand, DEBT falls by one unless it is 0, and PTR moves on. -/
def refreshedBank (x : Bank) (k : Fin 16) : Bank :=
  let y := demandedBank x k
  let d := if y.debt[k] = 0 then 0 else y.debt[k] - 1
  let p := y.ptr[k] + 1
  { y with debt := y.debt.set k d, ptr := y.ptr.set k p }

/-- x register d takes a value with its residue; x0 stays (15:R328, R354). -/
def xSet (x : Bank) (d : Fin 32) (n : Nat) : Bank := if d = 0 then x else { x with x := x.x.set d (formed (BitVec.ofNat 64 n)) }

/-- RSTAT's word (05:R121): state, tag, bound row, cross-group and write-protect marks, a repair mapping that waits. -/
def rstatWord (x : Bank) (k : Fin 16) : Nat :=
  let r := x.w[k]
  let key := k.val * 2 ^ 12 + r.prow.toNat
  let code := match r.state with | .free => 0 | .openClean => 1 | .openDirty => 2 | .heldClean => 3 | .heldDirty => 4
  code + r.tag.toNat * 2 ^ 4 + (if isBound r then r.row.toNat * 2 ^ 8 + b2n (mapGet x.xgroup key).isSome * 2 ^ 20 + b2n (!r.writable) * 2 ^ 21 +
    b2n (x.pendRepair.contains key) * 2 ^ 23 else 0)

/-- What a row instruction without an operand of its own does in one executing bank (05:R116-R121), a REF that finds a dirty row open apart. -/
def rowEffect (er : Errors) (x : Bank) : Instr → Option Bank
  | .wbk k => if isBound x.w[k] then some (wbkBank er x k) else none
  | .pre k => some (preBank er x k)
  | .preD k => some (preDropBank er x k)
  | .prea => some ((List.finRange 16).foldl (preBank er) x)
  | .ref k => if (x.w[k]).state = .openDirty then none else some (refreshedBank x k)
  | .refQ d k => some (xSet x d ((x.debt[k]).toNat + (x.ptr[k]).toNat * 2 ^ 8))
  | .rstat d k => some (xSet x d (rstatWord x k))
  | _ => none

/-- The row operand of an instruction in a bank: a row number, or imm7 plus an x register (05:R109). -/
def rowNumber (x : Bank) (ind : Bool) (f : BitVec 12) : Nat :=
  if ind then (BitVec.ofNat 64 (f.toNat / 32) + (x.getX ⟨f.toNat % 32, Nat.mod_lt _ (by decide)⟩).val).toNat else f.toNat

/-- The residue check of an indexed row operand passes in a bank. -/
def rowResidueOk (x : Bank) (ind : Bool) (f : BitVec 12) : Prop :=
  ind = true → addressResidueOk (x.getX ⟨f.toNat % 32, Nat.mod_lt _ (by decide)⟩) (BitVec.ofNat 64 (f.toNat / 32))

/-- Row n of group k of logical bank j resolves to physical row `prow` of bank b under translation x, for reading or for writing (05:R109, R110). -/
structure RowResolves (s : State) (j b : Nat) (k : Fin 16) (n : Nat) (write : Bool) (x : Xlat) (prow : Nat) : Prop where
  range : n ≤ 4095
  low : (s.bankva.toNat + j) * 2 ^ 27 + k.val * 2 ^ 23 + n * 2 ^ 11 < 2 ^ 52
  translated : translate s (s.rowAsker b) s.thr.root ((s.bankva.toNat + j) * 2 ^ 27 + k.val * 2 ^ 23 + n * 2 ^ 11) = (s, .found x)
  present : populated s (x.base + n * 2 ^ 11 % 2 ^ 16) = true
  window : windowOf (x.base + n * 2 ^ 11 % 2 ^ 16) = .dram
  own : (x.base + n * 2 ^ 11 % 2 ^ 16) / 2 ^ 23 = b * 2 ^ 4 + k.val
  row : prow = (x.base + n * 2 ^ 11 % 2 ^ 16) / 2 ^ 11 % 2 ^ 12
  user : s.level = .user → x.bit 5 = true
  perm : x.bit (if write then 3 else 2) = true

/-- What ACT reads of a row: its cells, overwritten by the dirty crown lines where the row's presence bit is set (04:R96). -/
def mergedByte (s : State) (b : Nat) (k : Fin 16) (prow i : Nat) : Byte :=
  match mapGet (s.bank b).lines (k.val * 2 ^ 16 + prow * 2 ^ 4 + i / 2 ^ 7) with
  | some l =>
    if l.dirty && (s.bank b).presence.contains (k.val * 2 ^ 12 + prow) then l.data.extractLsb' (8 * (i % 2 ^ 7)) 8
    else memRead s.dram (rowAddr b k.val prow + i)
  | none => memRead s.dram (rowAddr b k.val prow + i)

/-- A dirty crown line of the row merges. -/
def merges (s : State) (b : Nat) (k : Fin 16) (prow : Nat) : Bool :=
  (s.bank b).presence.contains (k.val * 2 ^ 12 + prow) &&
    (s.bank b).lines.any (fun e => decide (e.1 / 2 ^ 4 = k.val * 2 ^ 12 + prow) && e.2.dirty)

/-- ACT in its two forms: register, tag, operand (05:R109, R113). -/
def actRow : Instr → Option (Fin 16 × Fin 16 × Bool × BitVec 12)
  | .act k t r => some (k, t, false, r)
  | .actIndexed k t x i => some (k, t, true, BitVec.ofNat 12 (x.val + 32 * i.toNat))
  | _ => none

/-- The row of an address that a dirty bit would touch is none of the rows of a list. -/
def leafOutside (leaf : Option Nat) (rows : List Nat) : Prop := ∀ l, leaf = some l → l / 2 ^ 11 ∉ rows.map (fun r => r / 2 ^ 11)

/-- RCLONE and RZERO: register, destination operand, and source operand where there is one (05:R122). -/
def cloneOp : Instr → Option (Fin 16 × Bool × BitVec 12 × Option (Bool × BitVec 12))
  | .rclone k xd rd xs rs => some (k, xd, rd, some (xs, rs))
  | .rzero k xd rd => some (k, xd, rd, none)
  | _ => none

/-- The 2 KiB block that CLD or CST reaches from a bank under translation x (05:R123): aligned, translated, permitted, the bank's own crown-cacheable DRAM
or its slice's scratch. -/
structure CrownBlock (s : State) (b : Nat) (va : Word) (write : Bool) (x : Xlat) (pa : Nat) : Prop where
  aligned : va.toNat % 2 ^ 11 = 0
  range : va.toNat < 2 ^ 52
  translated : translate s (s.rowAsker b) s.thr.root va.toNat = (s, .found x)
  base : x.base % 2 ^ 16 = 0
  at_ : pa = x.base + va.toNat % 2 ^ 16
  user : s.level = .user → x.bit 5 = true
  perm : x.bit (if write then 3 else 2) = true
  present : ∀ i < 2 ^ 11, populated s (pa + i) = true
  mine : (windowOf pa = .dram ∧ pa / 2 ^ 27 = b ∧ x.bit 7 = true) ∨ (windowOf pa = .scratch ∧ scratchBank pa = b)
  dirtied : write = true → x.bit (48 + pa / 4096 % 16) = true
  still : Undisturbed s pa
  room : (s.bank b).lines.length + 16 ≤ 256 * (s.bank b).cacheWays
  clean : ∀ i < 2 ^ 11, poisonIn s (pa + i) = false

/-- The element of width w at index i of the 2 KiB from an address on. -/
def memElem (s : State) (pa w i : Nat) : Nat := bytesIn s pa 2048 / 2 ^ (w * i) % 2 ^ w

/-- The element width of the format in a configuration, bits counting 8 (06:R128). -/
def cfgWidth (c : VlCfg) : Nat := if c.fmt = 0 then 8 else tagWidth c.fmt

/-- Element i is governed by mask m at the granule of width w (07:R152). -/
def maskOn (x : Bank) (m : Fin 16) (w i : Nat) : Bool :=
  decide (m = 0) || (x.m[m]).getLsbD (i / (if w = 1 then 8 else if w = 4 then 2 else 1))

/-- The crown lines of a bank lie over rows that are not bound, their clean ones hold what the cells hold; no write-back is under way and no dirty row is
open. -/
structure LinesSettled (s : State) (b : Nat) : Prop where
  rising : keysAbove none (s.bank b).lines = true
  small : ∀ e ∈ (s.bank b).lines, e.1 < 2 ^ 20
  free : ∀ e ∈ (s.bank b).lines, latchOf s (b * 2 ^ 27 + e.1 * 2 ^ 7) = none
  agree : ∀ e ∈ (s.bank b).lines, e.2.dirty = false → ∀ i < 2 ^ 7,
    memRead s.dram (b * 2 ^ 27 + e.1 * 2 ^ 7 + i) = e.2.data.extractLsb' (8 * i) 8
  still : (s.bank b).pend = []
  shut : ∀ k : Fin 16, ((s.bank b).w[k]).state ≠ .openDirty
  window : b < 2 ^ 13

/-- The range of a cache-maintenance instruction covers a byte of the line: in a page of the range that is translated to DRAM and not bank-private (13:R302;
the last as log 32 reads it). -/
def coversLine (tr : Nat → Xlat) (lo n b line : Nat) : Prop :=
  ∃ v, lo ≤ v ∧ v < lo + n ∧ v / 2 ^ 16 < 2 ^ 36 ∧ windowOf (tr (v / 2 ^ 16)).base = .dram ∧ (tr (v / 2 ^ 16)).bit 9 = false ∧
    (tr (v / 2 ^ 16)).base / 2 ^ 27 = b ∧ ((tr (v / 2 ^ 16)).base + v % 2 ^ 16) / 2 ^ 7 = b * 2 ^ 20 + line

/-- Ranges: whether lines are written back, whether they are dropped (13:R301). -/
def rangeRow : Instr → Option (Fin 64 × Fin 64 × Bool × Bool)
  | .cwb a b => some (a, b, true, false)
  | .cwbi a b => some (a, b, true, true)
  | .cinv a b => some (a, b, false, true)
  | _ => none

/-! ### Vector instructions, element by element -/

/-- An integer as a code of an integer format: modulo 2^width (06:R130). -/
def wrapped (t : BitVec 4) (v : Int) : Nat := wrapInt (tagWidth t) v

/-- An operation on codes of one format: on an integer format, on a floating format; a missing one is a tag mismatch (08:R178-R190). -/
structure Oper where
  int : Option (BitVec 4 → Nat → Nat → Nat)
  flt : Option (BitVec 4 → RCtl → BitVec 32 → Nat → Nat → Rounded)

/-- An integer operation on the values of the codes, wrapped to the format. -/
def onInts (g : BitVec 4 → Int → Int → Int) : Option (BitVec 4 → Nat → Nat → Nat) :=
  some (fun t a b => wrapped t (g t (intValue t a) (intValue t b)))

/-- A floating operation: exact, then one rounding (07:R156, 08:R181). -/
def onReals (g : Nat → FReal → FReal → Exact) : Option (BitVec 4 → RCtl → BitVec 32 → Nat → Nat → Rounded) :=
  some (fun t c l a b =>
    let x := g c.mode (fdecode t c.ftz a) (fdecode t c.ftz b)
    let r := roundTo t c l x.val
    ⟨r.code, r.flags ||| x.flags, r.lfsr⟩)

/-- A floating operation that picks an operand: exact, with no rounding step (08:R182). -/
def picking (max : Bool) : Option (BitVec 4 → RCtl → BitVec 32 → Nat → Nat → Rounded) :=
  some (fun t c l a b =>
    let x := minmaxX max (fdecode t c.ftz a) (fdecode t c.ftz b)
    let r := roundTo t ⟨1, c.ftz, false⟩ l x.val
    ⟨r.code, r.flags ||| x.flags, l⟩)

/-- VABS and VNEG of a floating code (08:R181): the sign cleared or inverted; a NaN becomes canonical, a signalling one raising NV; with FTZ a subnormal
is zero. -/
def signed (inv : Bool) : Option (BitVec 4 → RCtl → BitVec 32 → Nat → Nat → Rounded) :=
  some (fun t c l a _ =>
    let top := 2 ^ (tagWidth t - 1)
    let neg := inv && decide (a / top % 2 = 0)
    match fdecode t c.ftz a with
    | .nan s => ⟨canonNaN t, if s then fNV else 0, l⟩
    | .fin _ 0 _ _ => ⟨withSign t neg 0, 0, l⟩
    | _ => ⟨withSign t neg (a % top), 0, l⟩)

/-- An approximation: rounded to nearest, raising NV, DZ and OF only (08:R188). -/
def approximated (g : FReal → Exact) : Option (BitVec 4 → RCtl → BitVec 32 → Nat → Nat → Rounded) :=
  some (fun t c l a _ =>
    let x := g (fdecode t c.ftz a)
    let r := roundTo t ⟨1, c.ftz, false⟩ 0 x.val
    ⟨r.code, (r.flags ||| x.flags) &&& 28, l⟩)

def opAdd : Oper := ⟨onInts (fun _ x y => x + y), onReals addX⟩
def opSub : Oper := ⟨onInts (fun _ x y => x - y), onReals (fun k x y => addX k x y.neg)⟩
def opRsub : Oper := ⟨onInts (fun _ x y => y - x), onReals (fun k x y => addX k y x.neg)⟩
def opMul : Oper := ⟨onInts (fun _ x y => x * y), onReals (fun _ x y => mulX x y)⟩
def opMin : Oper := ⟨onInts (fun _ x y => min x y), picking false⟩
def opMax : Oper := ⟨onInts (fun _ x y => max x y), picking true⟩

/-- The clamped sum and difference (08:R180); a floating format is a tag mismatch. -/
def opAddS : Oper := ⟨onInts (fun t x y => max (intMin t) (min (intMax t) (x + y))), none⟩
def opSubS : Oper := ⟨onInts (fun t x y => max (intMin t) (min (intMax t) (x - y))), none⟩

/-- Quotient truncated toward zero, all ones for a divisor 0; remainder, the dividend for a divisor 0 (08:R187). -/
def opDiv : Oper := ⟨onInts (fun _ x y => if y = 0 then -1 else Int.tdiv x y), onReals (fun _ x y => divX x y)⟩
def opRem : Oper := ⟨onInts (fun _ x y => if y = 0 then x else x - y * Int.tdiv x y), none⟩
def opAbs : Oper := ⟨onInts (fun _ x _ => (x.natAbs : Int)), signed false⟩
def opNeg : Oper := ⟨onInts (fun _ x _ => -x), signed true⟩
def opSqrt : Oper := ⟨none, onReals (fun _ x _ => sqrtX x)⟩
def opRsqrte : Oper := ⟨none, approximated rsqrtX⟩
def opExp2e : Oper := ⟨none, approximated exp2X⟩

/-- An arithmetic instruction: destination, source a, source b, mask, rm, operation. -/
structure Arith where
  d : Fin 16
  a : Fin 16
  b : BSrc
  m : Fin 16
  rm : Nat
  op : Oper

/-- The arithmetic instructions (08:R178-R188). -/
def arithRow : Instr → Option Arith
  | .vaddVV d a b m _ => some ⟨d, a, .row b, m, 0, opAdd⟩
  | .vsubVV d a b m _ => some ⟨d, a, .row b, m, 0, opSub⟩
  | .vmulVV d a b m _ => some ⟨d, a, .row b, m, 0, opMul⟩
  | .vminVV d a b m _ => some ⟨d, a, .row b, m, 0, opMin⟩
  | .vmaxVV d a b m _ => some ⟨d, a, .row b, m, 0, opMax⟩
  | .vaddSVV d a b m _ => some ⟨d, a, .row b, m, 0, opAddS⟩
  | .vsubSVV d a b m _ => some ⟨d, a, .row b, m, 0, opSubS⟩
  | .vaddVX d a b m _ => some ⟨d, a, .x b, m, 0, opAdd⟩
  | .vsubVX d a b m _ => some ⟨d, a, .x b, m, 0, opSub⟩
  | .vmulVX d a b m _ => some ⟨d, a, .x b, m, 0, opMul⟩
  | .vminVX d a b m _ => some ⟨d, a, .x b, m, 0, opMin⟩
  | .vmaxVX d a b m _ => some ⟨d, a, .x b, m, 0, opMax⟩
  | .vaddSVX d a b m _ => some ⟨d, a, .x b, m, 0, opAddS⟩
  | .vsubSVX d a b m _ => some ⟨d, a, .x b, m, 0, opSubS⟩
  | .vaddVI d a v m _ => some ⟨d, a, .imm v, m, 0, opAdd⟩
  | .vsubVI d a v m _ => some ⟨d, a, .imm v, m, 0, opSub⟩
  | .vrsub d a v m _ => some ⟨d, a, .imm v, m, 0, opRsub⟩
  | .vmulVI d a v m _ => some ⟨d, a, .imm v, m, 0, opMul⟩
  | .vminVI d a v m _ => some ⟨d, a, .imm v, m, 0, opMin⟩
  | .vmaxVI d a v m _ => some ⟨d, a, .imm v, m, 0, opMax⟩
  | .vaddRm d a b rm m _ => some ⟨d, a, .row b, m, rm.val, ⟨none, opAdd.flt⟩⟩
  | .vsubRm d a b rm m _ => some ⟨d, a, .row b, m, rm.val, ⟨none, opSub.flt⟩⟩
  | .vmulRm d a b rm m _ => some ⟨d, a, .row b, m, rm.val, ⟨none, opMul.flt⟩⟩
  | .vdiv d a b rm m => some ⟨d, a, .row b, m, rm.val, opDiv⟩
  | .vrem d a b m => some ⟨d, a, .row b, m, 0, opRem⟩
  | .vabs d a m _ => some ⟨d, a, .none, m, 0, opAbs⟩
  | .vneg d a m _ => some ⟨d, a, .none, m, 0, opNeg⟩
  | .vsqrt d a rm m => some ⟨d, a, .none, m, rm.val, opSqrt⟩
  | .vrsqrte d a m => some ⟨d, a, .none, m, 0, opRsqrte⟩
  | .vexp2e d a m => some ⟨d, a, .none, m, 0, opExp2e⟩
  | _ => none

/-- A fused instruction: destination, a, b, c, mask, rm, whether c is subtracted (08:R184). -/
def fusedRow : Instr → Option (Fin 16 × Fin 16 × BSrc × Fin 16 × Fin 16 × Nat × Bool)
  | .vfma d a b c rm m _ => some (d, a, .row b, c, m, rm.val, false)
  | .vfms d a b c rm m _ => some (d, a, .row b, c, m, rm.val, true)
  | .vfmaX d a b c rm m _ => some (d, a, .x b, c, m, rm.val, false)
  | .vfmsX d a b c rm m _ => some (d, a, .x b, c, m, rm.val, true)
  | _ => none

/-- A comparison: destination mask, sources, mask, truth of the order -1, 0, 1 of two numbers, of a NaN, and whether every NaN raises NV (08:R189, R190). -/
def compareRow : Instr → Option (Fin 16 × Fin 16 × Fin 16 × Fin 16 × (Int → Bool) × Bool × Bool)
  | .vcmpEq d a b m => some (d, a, b, m, fun c => decide (c = 0), false, false)
  | .vcmpNe d a b m => some (d, a, b, m, fun c => decide (c ≠ 0), true, false)
  | .vcmpLt d a b m => some (d, a, b, m, fun c => decide (c < 0), false, true)
  | .vcmpLe d a b m => some (d, a, b, m, fun c => decide (c ≤ 0), false, true)
  | .vcmpGt d a b m => some (d, a, b, m, fun c => decide (0 < c), false, true)
  | .vcmpGe d a b m => some (d, a, b, m, fun c => decide (0 ≤ c), false, true)
  | .vcmpUn d a b m => some (d, a, b, m, fun _ => false, true, false)
  | .vcmpOr d a b m => some (d, a, b, m, fun _ => true, false, false)
  | _ => none

/-- A bitwise instruction, its value at width w (08:R191, R192). -/
def bitwiseRow : Instr → Option (Fin 16 × Fin 16 × BSrc × Fin 16 × (Nat → Nat → Nat → Nat))
  | .vandVV d a b m _ => some (d, a, .row b, m, fun _ x y => x &&& y)
  | .vorVV d a b m _ => some (d, a, .row b, m, fun _ x y => x ||| y)
  | .vxorVV d a b m _ => some (d, a, .row b, m, fun _ x y => x ^^^ y)
  | .vandn d a b m _ => some (d, a, .row b, m, fun w x y => x &&& (2 ^ w - 1 - y % 2 ^ w))
  | .vnot d a m _ => some (d, a, .none, m, fun w x _ => 2 ^ w - 1 - x % 2 ^ w)
  | .vandVI d a v m _ => some (d, a, .imm v, m, fun _ x y => x &&& y)
  | .vorVI d a v m _ => some (d, a, .imm v, m, fun _ x y => x ||| y)
  | .vxorVI d a v m _ => some (d, a, .imm v, m, fun _ x y => x ^^^ y)
  | _ => none

/-- A shift of an element of width w by n, `x` its code and `v` its value as its format reads it (08:R193): every count of w or more leaves zeros, or the
sign. -/
def shiftRow : Instr → Option (Fin 16 × Fin 16 × BSrc × Fin 16 × (Nat → Nat → Int → Nat → Nat))
  | .vsllVV d a b m _ => some (d, a, .row b, m, fun w x _ n => x * 2 ^ n % 2 ^ w)
  | .vsrlVV d a b m _ => some (d, a, .row b, m, fun _ x _ n => x / 2 ^ n)
  | .vsraVV d a b m _ => some (d, a, .row b, m, fun w _ v n => wrapInt w (v / ((2 ^ n : Nat) : Int)))
  | .vsllVI d a i m _ => some (d, a, .imm i, m, fun w x _ n => x * 2 ^ n % 2 ^ w)
  | .vsrlVI d a i m _ => some (d, a, .imm i, m, fun _ x _ n => x / 2 ^ n)
  | .vsraVI d a i m _ => some (d, a, .imm i, m, fun w _ v n => wrapInt w (v / ((2 ^ n : Nat) : Int)))
  | _ => none

/-- What an element-wise instruction does in one bank: its checks, whether the masks that hold the elements, the registers it reads, the destination
with its element width and offset, and the result of element n with the LFSR before it. -/
structure VForm where
  ok : Bool
  mask : Option (Fin 16)
  width : Nat
  reads : List (Fin 16)
  dst : Fin 16
  dw : Nat
  off : Nat
  toMask : Bool
  run : Nat → BitVec 32 → Rounded

/-- Element n of width w of a row register. -/
def rowEl (x : Bank) (k : Fin 16) (w n : Nat) : Nat := getEl (x.w[k]).latch w n

/-- The element width of a register in an operation of width w: its format's own, or w for tag 0 (06:R128). -/
def ownWidth (x : Bank) (k : Fin 16) (w : Nat) : Nat := if (x.w[k]).tag = 0 then w else tagWidth (x.w[k]).tag

/-- VL elements of width w fit a row (06:R141). -/
def fits (e : VEnv) (w : Nat) : Bool := decide (e.ctx.vlcfg.vl.toNat ≤ 16384 / w)

/-- The destination may be written (05:R115): it is bound to no write-protected row, or no element is to be written. -/
def mayWrite (e : VEnv) (x : Bank) (k : Fin 16) : Bool :=
  !decide (e.ctx.vstart.toNat < e.ctx.vlcfg.live.toNat) || !isBound x.w[k] || (x.w[k]).writable

/-- The operation format of two sources (06:R139), of one alone otherwise. -/
def operFormat (x : Bank) (a : Fin 16) (b : BSrc) : Option (BitVec 4) :=
  let ta := (x.w[a]).tag
  match b with
  | .row k => opFormat ta (x.w[k]).tag
  | _ => if ta = 0 ∨ ta = 13 ∨ ta = 15 then none else some ta

/-- Element n of source b in format f: a widened element, bits of an x register, the immediate's value (08:R179). -/
def secondIn (x : Bank) (f : BitVec 4) (b : BSrc) (n : Nat) : Nat :=
  match b with
  | .row k => widen (x.w[k]).tag f (rowEl x k (ownWidth x k (tagWidth f)) n)
  | .x r => (x.getX r).val.toNat % 2 ^ tagWidth f
  | .imm v => immCode f v
  | .none => 0

/-- Element n of a register in format f. -/
def firstIn (x : Bank) (f : BitVec 4) (a : Fin 16) (n : Nat) : Nat := widen (x.w[a]).tag f (rowEl x a (ownWidth x a (tagWidth f)) n)

/-- The row register of source b. -/
def bsrcReg (b : BSrc) : List (Fin 16) := match b with | .row k => [k] | _ => []

/-- The sources of an operation of format f are as long as VL, and the destination carries f or no format. -/
def operOk (e : VEnv) (x : Bank) (f : BitVec 4) (d : Fin 16) (regs : List (Fin 16)) : Bool :=
  ((x.w[d]).tag == f || (x.w[d]).tag == 0) && fits e (tagWidth f) && regs.all (fun k => fits e (ownWidth x k (tagWidth f))) && mayWrite e x d

/-- An arithmetic instruction in one bank. -/
def arithForm (s : State) (e : VEnv) (x : Bank) (i : Instr) : Option VForm :=
  match arithRow i with
  | none => none
  | some r =>
    match operFormat x r.a r.b with
    | none => none
    | some f =>
      let ok := operOk e x f r.d (r.a :: bsrcReg r.b)
      let form (run : Nat → BitVec 32 → Rounded) : VForm := ⟨ok, some r.m, tagWidth f, r.a :: bsrcReg r.b, r.d, tagWidth f, 0, false, run⟩
      if isFloatTag f then r.op.flt.map (fun g => form (fun n l => g f (s.rctl r.rm false) l (firstIn x f r.a n) (secondIn x f r.b n)))
      else r.op.int.map (fun g => form (fun n l => ⟨g f (firstIn x f r.a n) (secondIn x f r.b n), 0, l⟩))

/-- A fused instruction in one bank (08:R184): a and b in their format, then with c in theirs; one rounding. -/
def fusedForm (s : State) (e : VEnv) (x : Bank) (i : Instr) : Option VForm :=
  match fusedRow i with
  | none => none
  | some (d, a, b, c, m, rm, sub) =>
    match operFormat x a b with
    | none => none
    | some g =>
      (opFormat g (x.w[c]).tag).map (fun f =>
        let ok := operOk e x f d [c] && (a :: bsrcReg b).all (fun k => fits e (ownWidth x k (tagWidth g)))
        let ctl := s.rctl rm false
        let run (n : Nat) (l : BitVec 32) : Rounded :=
          let va := widen g f (firstIn x g a n)
          let vb := widen g f (secondIn x g b n)
          let vc := firstIn x f c n
          if isFloatTag f then
            let z := fdecode f ctl.ftz vc
            let y := fmaX ctl.mode (fdecode f ctl.ftz va) (fdecode f ctl.ftz vb) (if sub then z.neg else z)
            let r := roundTo f ctl l y.val
            ⟨r.code, r.flags ||| y.flags, r.lfsr⟩
          else ⟨wrapped f (intValue f va * intValue f vb + (if sub then -(intValue f vc) else intValue f vc)), 0, l⟩
        ⟨ok, some m, tagWidth f, (a :: bsrcReg b) ++ [c], d, tagWidth f, 0, false, run⟩)

/-- A comparison in one bank (08:R189, R190): a bit of the mask for every element; not of a 4-bit format. -/
def compareForm (s : State) (e : VEnv) (x : Bank) (i : Instr) : Option VForm :=
  match compareRow i with
  | none => none
  | some (d, a, b, m, hold, nan, loud) =>
    (opFormat (x.w[a]).tag (x.w[b]).tag).map (fun f =>
      let ok := tagWidth f != 4 && fits e (ownWidth x a (tagWidth f)) && fits e (ownWidth x b (tagWidth f))
      let run (n : Nat) (l : BitVec 32) : Rounded :=
        let u := firstIn x f a n
        let v := secondIn x f (.row b) n
        if isFloatTag f then
          let p := fdecode f s.front.rmode.ftz u
          let q := fdecode f s.front.rmode.ftz v
          if p.isNaN || q.isNaN then ⟨b2n nan, if loud || decide (p = .nan true) || decide (q = .nan true) then fNV else 0, l⟩
          else ⟨b2n (hold (cmpReal p q)), 0, l⟩
        else ⟨b2n (hold (intValue f u - intValue f v).sign), 0, l⟩
      ⟨ok, some m, tagWidth f, [a, b], d, 1, 0, true, run⟩)

/-- A bitwise instruction, a shift, VSEL, VSPLAT or VIOTA in one bank (08:R176, R177, R191-R194). -/
def bitsForm (e : VEnv) (x : Bank) (i : Instr) : Option VForm :=
  let w := cfgWidth e.ctx.vlcfg
  match bitwiseRow i, shiftRow i, i with
  | some (d, a, b, m, g), _, _ =>
    let regs := a :: bsrcReg b
    let two (n : Nat) : Nat := match b with | .row k => rowEl x k w n | .imm v => (if w ≤ 8 then v.toNat % 2 ^ w else wrapInt w v.toInt) | _ => 0
    some ⟨fits e w && mayWrite e x d, some m, w, regs, d, w, 0, false, fun n l => ⟨g w (rowEl x a w n) (two n), 0, l⟩⟩
  | none, some (d, a, b, m, g), _ =>
    let ta := (x.w[a]).tag
    let w := ownWidth x a w
    let ints (k : Fin 16) : Bool := (x.w[k]).tag == 0 || isIntTag (x.w[k]).tag
    let two (n : Nat) : Nat := match b with | .row k => rowEl x k (ownWidth x k w) n | .imm v => v.toNat | _ => 0
    let uns := if ta = 0 then decide (e.ctx.vlcfg.fmt = 2) else decide (ta = 2)
    let ok := (a :: bsrcReg b).all ints && ((x.w[d]).tag == ta || (x.w[d]).tag == 0) && fits e w && (bsrcReg b).all (fun k => fits e (ownWidth x k w)) &&
      mayWrite e x d
    some ⟨ok, some m, w, a :: bsrcReg b, d, w, 0, false,
      fun n l => ⟨g w (rowEl x a w n) (if uns then (rowEl x a w n : Int) else toSigned w (rowEl x a w n)) (two n), 0, l⟩⟩
  | none, none, .vsel d a b m =>
    some ⟨fits e w && mayWrite e x d, none, w, [a, b], d, w, 0, false, fun n l => ⟨if maskOn x m w n then rowEl x a w n else rowEl x b w n, 0, l⟩⟩
  | none, none, .vsplat d _ =>
    let w := ownWidth x d w
    some ⟨fits e w && mayWrite e x d, none, w, [], d, w, 0, false, fun _ l => ⟨e.ctx.sa.toNat % 2 ^ w, 0, l⟩⟩
  | none, none, .viota d _ =>
    let w := ownWidth x d w
    let ints := (x.w[d]).tag == 0 || isIntTag (x.w[d]).tag
    some ⟨ints && fits e w && mayWrite e x d, none, w, [], d, w, 0, false, fun n l => ⟨(e.ctx.sa.toNat + n) % 2 ^ w, 0, l⟩⟩
  | _, _, _ => none

/-- A conversion or a table lookup in one bank (08:R195-R198, 09:R207): the narrower of the two registers holds the part p of the wide one's elements. -/
def convertForm (s : State) (e : VEnv) (x : Bank) (i : Instr) : Option VForm :=
  let part (imm : BitVec 8) : Nat := imm.toNat % 2 ^ 4
  -- the offsets of part p in source and destination
  let offs (aw dw p : Nat) : Nat × Nat := (if aw < dw then p * (16384 / dw) else 0, if dw < aw then p * (16384 / aw) else 0)
  let partOk (aw dw p : Nat) : Bool := decide (p < max aw dw / min aw dw)
  let block := 2 ^ e.ctx.vlcfg.blk.toNat
  -- VCVT.MX and VQNT.MX: data in `mx`, scales in `b`
  let scaled (d a b m : Fin 16) (imm : BitVec 8) (ok : Bool) (off : Nat × Nat → Nat) (val : FReal → Int → FReal) (rm : Nat) (sat : Bool) : VForm :=
    let ta := (x.w[a]).tag
    let td := (x.w[d]).tag
    let aw := tagWidth ta
    let dw := tagWidth td
    let o := offs aw dw (part imm)
    let groups := (max o.1 o.2 + e.vl + block - 1) / block
    let run (n : Nat) (l : BitVec 32) : Rounded :=
      let k := rowEl x b 8 ((n + off o) / block)
      let v := if k = 255 then .nan false else val (valueOf ta s.front.rmode.ftz (rowEl x a aw (n + o.1))) ((k : Int) - 127)
      if isIntTag td then roundInt td (s.rctl rm sat) l v else roundTo td (s.rctl rm sat) l v
    ⟨ok && (x.w[b]).tag == 13 && fits e dw && fits e aw && decide (groups ≤ 2048) && partOk aw dw (part imm) && mayWrite e x d, some m, max aw dw, [a, b],
     d, dw, o.2, false, run⟩
  match i with
  | .vcvt d a imm rm sat m _ =>
    let ta := (x.w[a]).tag
    let td := (x.w[d]).tag
    let aw := tagWidth ta
    let dw := tagWidth td
    let o := offs aw dw (part imm)
    let named (t : BitVec 4) : Bool := t != 0 && t != 15
    some ⟨named ta && named td && fits e dw && fits e aw && partOk aw dw (part imm) && mayWrite e x d, some m, max aw dw, [a], d, dw, o.2, false,
      fun n l => convert ta td (s.rctl rm.val sat) l (rowEl x a aw (n + o.1))⟩
  | .vcvtMX d a b imm rm sat m _ =>
    let ta := (x.w[a]).tag
    some (scaled d a b m imm (isMxTag ta && isFloatTag (x.w[d]).tag) (fun o => o.1) (fun v k => v.scale (k - if ta = 1 then 6 else 0)) rm.val sat)
  | .vqntMX d a b imm rm sat m _ =>
    let td := (x.w[d]).tag
    some (scaled d a b m imm (isFloatTag (x.w[a]).tag && isMxTag td) (fun o => o.2) (fun v k => v.scale (-k + if td = 1 then 6 else 0)) rm.val sat)
  | .vlut d a b imm m =>
    let w := cfgWidth e.ctx.vlcfg
    let aw := ownWidth x a w
    let dw := ownWidth x d w
    let o := offs aw dw (part imm)
    let ok := (x.w[a]).tag != 15 && ((x.w[b]).tag == (x.w[d]).tag || (x.w[b]).tag == 0) && (x.w[d]).tag != 15
    some ⟨ok && fits e dw && fits e aw && partOk aw dw (part imm) && mayWrite e x d, some m, max aw dw, [a, b], d, dw, o.2, false,
      fun n l => ⟨rowEl x b dw (rowEl x a aw (n + o.1) % 2 ^ 4), 0, l⟩⟩
  | _ => none

/-- Element n is active (07:R151, R152): from VSTART up, below LIVE, and governed. -/
def VForm.on (f : VForm) (e : VEnv) (x : Bank) (n : Nat) : Bool :=
  decide (e.ctx.vstart.toNat ≤ n ∧ n < e.ctx.vlcfg.live.toNat) && (match f.mask with | none => true | some m => maskOn x m f.width n)

/-- LFSR and flags after the loop indices below n, in ascending order (07:R157, R159). -/
def chained (on : Nat → Bool) (run : Nat → BitVec 32 → Rounded) (l : BitVec 32) : Nat → BitVec 32 × BitVec 5
  | 0 => (l, 0)
  | n + 1 =>
    let z := chained on run l n
    if on n then
      let r := run n z.1
      (r.lfsr, z.2 ||| r.flags)
    else z

/-- Registers that have been read or written: their words have arrived (08:R172). -/
def arrived (x : Bank) (l : List (Fin 16)) : Bank := l.foldl (fun (y : Bank) (k : Fin 16) =>
  let r : WReg := { y.w[k] with valid := true }
  { y with w := y.w.set k r }) x

/-- The row register k with new bits, as a local write leaves it (04:R85): its state is dirty where it was clean, and a write-back under way no longer
carries its contents. -/
def rewritten (x : Bank) (k : Fin 16) (bits : RowBits) : Bank :=
  let st := match (x.w[k]).state with | .openClean => .openDirty | .heldClean => .heldDirty | z => z
  let r : WReg := { x.w[k] with latch := bits, state := st, valid := true }
  { x with w := x.w.set k r, pend := x.pend.map (fun p => if p.grp = k.val then { p with live := false } else p) }

/-- A bank after the elements `on` of a form have been computed with `run` and committed: every other element, register and mask as it was. -/
def VForm.committed (f : VForm) (x : Bank) (on : Nat → Bool) (live : Nat) : Bank :=
  let code (n : Nat) : Nat := (f.run n (chained on f.run x.lfsr n).1).code
  let z := chained on f.run x.lfsr live
  let els := (List.range live).filter on
  let y := arrived x f.reads
  let u :=
    if f.toMask then
      if f.dst = 0 ∨ els = [] then y
      else { y with m := y.m.set f.dst (els.foldl (fun b n => setEl b 1 n (code n)) y.m[f.dst]) }
    else if els = [] then arrived y [f.dst]
    else rewritten y f.dst (els.foldl (fun b n => setEl b f.dw (n + f.off) (code n)) (y.w[f.dst]).latch)
  { u with lfsr := z.1, flags := x.flags ||| z.2 }

/-- VPOISON.V clears once the element that it names is among those completed (21:R452). -/
def poisonCleared (done : Nat → Bool) (s : State) : State :=
  if done s.front.vpoison.elem.toNat then withFront s (fun f => { f with vpoison := { f.vpoison with v := false } }) else s

/-- The elements that an instruction runs: from VSTART up, below LIVE. -/
def ranAll (e : VEnv) (n : Nat) : Bool := decide (e.ctx.vstart.toNat ≤ n ∧ n < e.ctx.vlcfg.live.toNat)

/-- The rows, by their addresses, that registers of a bank are bound to. -/
def rowsOf (b : Nat) (x : Bank) (l : List (Fin 16)) : List Nat :=
  (l.filter (fun k => isBound x.w[k])).map (fun k => rowAddr b k.val (x.w[k]).prow.toNat)

/-- A write into rows removes the verified mark of every translation of their pages (22:R476). -/
def unmarked (s : State) (rows : List Nat) : State :=
  { s with xlat := s.xlat.map (fun x => if rows.any (fun a => x.covers s a) then { x with hashed := false } else x) }

/-- The same for the rows of the registers that each bank of a list writes. -/
def unmarkedIn (s : State) (banks : List (Nat × Nat)) (regs : Nat × Nat → List (Fin 16)) : State :=
  unmarked s (banks.flatMap (fun q => rowsOf q.2 (s.bank q.2) (regs q)))

/-- The row register that a form writes, where elements `on` are active. -/
def VForm.writes (f : VForm) (on : Nat → Bool) (live : Nat) : List (Fin 16) := if f.toMask || !(List.range live).any on then [] else [f.dst]

/-- A vector-side instruction meets nothing but its operands: no hard pre-emption is to stop it and no lane disagreement to stop a verified one; no word
outside the cells holds an error, no far store of the party's own waits; in the executing banks no word is poisoned and no write-back ends in an
unbinding. -/
structure AtRest (s : State) (banks : List (Nat × Nat)) : Prop where
  uncut : s.cut = none
  lanes : s.front.verify = false ∨ s.laneFault = none
  upsets : s.upsets = []
  posted : ∀ p ∈ s.posted, awaited s p = true → p.applied = true
  clean : ∀ q ∈ banks, ∀ k : Fin 16, ((s.bank q.2).w[k]).poison = 0
  still : ∀ q ∈ banks, ∀ p ∈ (s.bank q.2).pend, p.act ≠ 2

/-- The s register that an element-wise instruction reads. -/
def scalarOf : Instr → Fin 64
  | .vsplat _ a => a
  | .viota _ a => a
  | _ => 0

/-- Every instruction of a table of forms, in every executing bank (08:R168, R171). -/
def elementsCommit (table : State → VEnv → Bank → Instr → Option VForm) : Prop :=
  ∀ (s : State) (i : Instr) (form : Nat → VForm),
    let e := s.venv i i.len (scalarOf i) 0
    (∃ x, (table s e x i).isSome = true) → (∀ m, i.cpFields ≠ some (true, m)) → AtRest s e.banks →
    (∀ q ∈ e.banks, table s e (s.bank q.2) i = some (form q.2) ∧ (form q.2).ok = true) →
    let u := unmarkedIn s e.banks (fun q => (form q.2).writes ((form q.2).on e (s.bank q.2)) e.live)
    exec i s = .next (vectorDone s i.len (poisonCleared (ranAll e) (overBanks u e.banks (fun q x =>
      counted ((form q.2).committed x ((form q.2).on e x) e.live)))))

/-- The form of an instruction that may be half of a complement pair. -/
def pairForm (s : State) (e : VEnv) (x : Bank) (i : Instr) : Option VForm :=
  match arithForm s e x i, fusedForm s e x i, bitsForm e x i, convertForm s e x i with
  | some f, _, _, _ => some f
  | none, some f, _, _ => some f
  | none, none, some f, _ => some f
  | none, none, none, z => z

/-- The row registers that a complement pair writes. -/
def pairWrites (x : Bank) (e : VEnv) (p q : VForm) : List (Fin 16) :=
  let ran := (List.range e.live).filter (fun n => decide (e.ctx.vstart.toNat ≤ n ∧ n < e.ctx.vlcfg.live.toNat))
  (if ran.any (p.on e x) then [p.dst] else []) ++ (if ran.any (fun n => !p.on e x n) then [q.dst] else [])

/-- A bank after a complement pair (02:R42): every loop index from VSTART below LIVE takes I's result where I's mask governs, J's elsewhere; both read
what the registers held before. -/
def pairCommitted (x : Bank) (e : VEnv) (p q : VForm) : Bank :=
  let pick (n : Nat) : VForm := if p.on e x n then p else q
  let on (n : Nat) : Bool := decide (e.ctx.vstart.toNat ≤ n ∧ n < e.ctx.vlcfg.live.toNat)
  let run (n : Nat) (l : BitVec 32) : Rounded := (pick n).run n l
  let code (n : Nat) : Nat := (run n (chained on run x.lfsr n).1).code
  let els := (List.range e.live).filter on
  let y := arrived x ((p.dst :: p.reads) ++ q.dst :: q.reads)
  let write (z : Bank) (k : Fin 16) : Bank :=
    if els.any (fun n => (pick n).dst == k) then
      rewritten z k (els.foldl (fun b n => if (pick n).dst = k then setEl b (pick n).dw (n + (pick n).off) (code n) else b) (x.w[k]).latch)
    else z
  let u := write (write y p.dst) q.dst
  { u with lfsr := (chained on run x.lfsr e.live).1, flags := x.flags ||| (chained on run x.lfsr e.live).2 }

/-! ### Vector instructions that act on whole registers -/

/-- What a whole-class instruction does in one bank: its checks, the registers it names, the row registers it writes with their new bits, the flags it
raises, the LFSR after it (09:R200). -/
structure WForm where
  ok : Bool
  regs : List (Fin 16)
  rows : List (Fin 16 × RowBits)
  flags : BitVec 5
  lfsr : BitVec 32

/-- A bank after a whole-class instruction. -/
def WForm.committed (f : WForm) (x : Bank) : Bank :=
  let u := f.rows.foldl (fun (y : Bank) (p : Fin 16 × RowBits) => rewritten y p.1 p.2) (arrived x f.regs)
  { u with flags := x.flags ||| f.flags, lfsr := f.lfsr }

/-- A resumed whole-class instruction with no element left commits nothing (20:R434). -/
def spent (e : VEnv) : Bool := decide (0 < e.ctx.vstart.toNat ∧ e.ctx.vlcfg.live.toNat ≤ e.ctx.vstart.toNat)

/-- Every instruction of a table of whole-class forms, in every executing bank (09:R200); `done` is the elements that it has needed, or completed. -/
def wholesCommit (table : State → VEnv → Bank → Instr → Option WForm) : Prop :=
  ∀ (s : State) (i : Instr) (form : Nat → WForm),
    let e := s.venv i i.len 0 0
    (∃ x, (table s e x i).isSome = true) → AtRest s e.banks →
    (∀ q ∈ e.banks, table s e (s.bank q.2) i = some (form q.2) ∧ (form q.2).ok = true) →
    ∃ done, exec i s = .next (vectorDone s i.len (if spent e then overBanks s e.banks (fun q x => counted (arrived x (form q.2).regs))
      else poisonCleared done (overBanks (unmarkedIn s e.banks (fun q => (form q.2).rows.map (fun p => p.1))) e.banks (fun q x =>
        counted ((form q.2).committed x)))))

/-- Loop index n is active under mask m for elements of width w. -/
def activeAt (e : VEnv) (x : Bank) (m : Fin 16) (w n : Nat) : Bool :=
  decide (e.ctx.vstart.toNat ≤ n ∧ n < e.ctx.vlcfg.live.toNat) && maskOn x m w n

/-- A permute: destination, source, index register, mask, and the new value of element n of width w, if it takes one (09:R201-R204). -/
def permuteRow (e : VEnv) (x : Bank) : Instr → Option (Fin 16 × Fin 16 × Option (Fin 16) × (Nat → Nat → Option Nat))
  | .vpick d a b m => some (d, a, some b, fun w n =>
      let k := rowEl x b (ownWidth x b (cfgWidth e.ctx.vlcfg)) n
      if activeAt e x m w n then some (if k < e.live then rowEl x a w k else 0) else none)
  | .vpack d a m => some (d, a, none, fun w n =>
      if e.vstart ≤ n then (((List.range e.live).filter (maskOn x m w))[n]?).map (rowEl x a w) else none)
  | .vspread d a m => some (d, a, none, fun w n =>
      if activeAt e x m w n then some (rowEl x a w ((List.range n).filter (maskOn x m w)).length) else none)
  | .vmovup d a b m => some (d, a, none, fun w n =>
      let k := (x.getX ⟨b.val, by omega⟩).val.toNat
      if activeAt e x m w n then some (if k ≤ n then rowEl x a w (n - k) else 0) else none)
  | .vmovdn d a b m => some (d, a, none, fun w n =>
      let k := (x.getX ⟨b.val, by omega⟩).val.toNat
      if activeAt e x m w n then some (if n + k < e.live then rowEl x a w (n + k) else 0) else none)
  | .vpushlo d a b m => some (d, a, none, fun w n =>
      if activeAt e x m w n then some (if n = 0 then (x.getX ⟨b.val, by omega⟩).val.toNat % 2 ^ w else rowEl x a w (n - 1)) else none)
  | .vpushhi d a b m => some (d, a, none, fun w n =>
      if activeAt e x m w n then some (if n + 1 < e.live then rowEl x a w (n + 1) else (x.getX ⟨b.val, by omega⟩).val.toNat % 2 ^ w) else none)
  | _ => none

/-- A permute in one bank: only equal formats, or none, move; a plane does not (09:R202). -/
def permuteForm (e : VEnv) (x : Bank) (i : Instr) : Option WForm :=
  (permuteRow e x i).map (fun r =>
    let d := r.1
    let a := r.2.1
    let ta := (x.w[a]).tag
    let td := (x.w[d]).tag
    let w := ownWidth x a (ownWidth x d (cfgWidth e.ctx.vlcfg))
    let ix := r.2.2.1.toList
    let ok := ta != 15 && td != 15 && (ta == 0 || td == 0 || ta == td) && ix.all (fun k => (x.w[k]).tag == 0 || isIntTag (x.w[k]).tag) && fits e w &&
      ix.all (fun k => fits e (ownWidth x k (cfgWidth e.ctx.vlcfg))) && mayWrite e x d
    let els := (List.range e.live).filterMap (fun n => (r.2.2.2 w n).map (fun v => (n, v)))
    ⟨ok, [d, a] ++ ix, if els = [] then [] else [(d, els.foldl (fun b p => setEl b w p.1 p.2) (x.w[d]).latch)], 0, x.lfsr⟩)

/-- The accumulation format of a reduction (09:R210): the destination's, or the source's under tag 0; the source must mix into it. -/
def totalFormat (x : Bank) (d a : Fin 16) : Option (BitVec 4) :=
  let f := if (x.w[d]).tag = 0 then (x.w[a]).tag else (x.w[d]).tag
  if opFormat (x.w[a]).tag f = some f then some f else none

/-- VTOTAL, VLEAST, VMOST: the integer operation, the floating one, and what the combination of no element is (07:R161, 09:R211). -/
def totalRow : Instr → Option (Fin 16 × Fin 16 × Fin 16 × (Int → Int → Int) × (BitVec 4 → RCtl → BitVec 32 → Nat → Nat → Rounded) × Option Nat)
  | .vtotal d a m => some (d, a, m, fun x y => x + y, fun t c l a b =>
      let x := addX c.mode (fdecode t c.ftz a) (fdecode t c.ftz b)
      let r := roundTo t c l x.val
      ⟨r.code, r.flags ||| x.flags, r.lfsr⟩, some 0)
  | .vleast d a m => some (d, a, m, fun x y => min x y, (picking false).getD (fun _ _ _ _ _ => ⟨0, 0, 0⟩), none)
  | .vmost d a m => some (d, a, m, fun x y => max x y, (picking true).getD (fun _ _ _ _ _ => ⟨0, 0, 0⟩), none)
  | _ => none

/-- The bitwise reductions. -/
def bitTotalRow : Instr → Option (Fin 16 × Fin 16 × Fin 16 × (Nat → Nat → Nat))
  | .vband d a m => some (d, a, m, fun x y => x &&& y)
  | .vbor d a m => some (d, a, m, fun x y => x ||| y)
  | .vbxor d a m => some (d, a, m, fun x y => x ^^^ y)
  | _ => none

/-- The active elements of a register in format f. -/
def activeIn (e : VEnv) (x : Bank) (m a : Fin 16) (f : BitVec 4) : List Nat :=
  ((List.range e.live).filter (activeAt e x m (ownWidth x a (tagWidth f)))).map (firstIn x f a)

/-- A reduction in one bank: element 0 of wd takes the combination of the active elements with what it held. Integers: in any order. Floats: in the
order of 07:R161. VTOTAL.SEQ: one after the other, with the flags in element 1 (07:R163). -/
def totalForm (s : State) (e : VEnv) (x : Bank) (i : Instr) : Option WForm :=
  let w0 := cfgWidth e.ctx.vlcfg
  match totalRow i, bitTotalRow i, i with
  | some (d, a, m, g, h, absent), _, _ =>
    (totalFormat x d a).map (fun f =>
      let w := tagWidth f
      let ok := fits e (ownWidth x a w) && mayWrite e x d
      let old := rowEl x d w 0
      if isFloatTag f then
        let op (l : BitVec 32) (u v : Nat) : Rounded := h f (s.rctl 0 false) l u v
        let vals := (List.range e.live).map (fun n => if activeAt e x m (ownWidth x a w) n then some (firstIn x f a n) else none)
        let r := reduceTree op (ownWidth x a w) ⟨0, x.lfsr⟩ vals
        let z := comb op r.1 (if r.2 = none then absent else r.2) (some old)
        ⟨ok, [d, a], [(d, setEl (x.w[d]).latch w 0 (z.2.getD 0))], z.1.flags, z.1.lfsr⟩
      else
        let v := (activeIn e x m a f).foldl (fun (acc : Int) (c : Nat) => g acc (intValue f c)) (intValue f old)
        ⟨ok, [d, a], [(d, setEl (x.w[d]).latch w 0 (wrapped f v))], 0, x.lfsr⟩)
  | none, some (d, a, m, g), _ =>
    let ta := (x.w[a]).tag
    let td := (x.w[d]).tag
    let w := ownWidth x a (ownWidth x d w0)
    let ints (t : BitVec 4) : Bool := t == 0 || isIntTag t
    let ok := ints ta && ints td && (ta == 0 || td == 0 || ta == td) && w != 1 && fits e w && mayWrite e x d
    let v := (((List.range e.live).filter (activeAt e x m w)).map (rowEl x a w)).foldl g (rowEl x d w 0)
    some ⟨ok, [d, a], [(d, setEl (x.w[d]).latch w 0 v)], 0, x.lfsr⟩
  | none, none, .vtotalSeq d a m =>
    (if d = a then none else totalFormat x d a).map (fun f =>
      let w := tagWidth f
      let c := s.rctl 0 false
      let ok := fits e (ownWidth x a w) && mayWrite e x d
      let add (l : BitVec 32) (u v : Nat) : Rounded :=
        if isFloatTag f then
          let y := addX c.mode (fdecode f c.ftz u) (fdecode f c.ftz v)
          let r := roundTo f c l y.val
          ⟨r.code, r.flags ||| y.flags, r.lfsr⟩
        else ⟨wrapped f (intValue f u + intValue f v), 0, l⟩
      let first : Rounded := ⟨rowEl x d w 0, if e.vstart = 0 then 0 else BitVec.ofNat 5 (rowEl x d w 1), x.lfsr⟩
      let z := (activeIn e x m a f).foldl (fun (acc : Rounded) (v : Nat) =>
        let r := add acc.lfsr acc.code v
        ⟨r.code, acc.flags ||| r.flags, r.lfsr⟩) first
      ⟨ok, [d, a], [(d, setEl (setEl (x.w[d]).latch w 0 z.code) w 1 z.flags.toNat)], z.flags, z.lfsr⟩)
  | none, none, .vtotalMX d a b m =>
    let ta := (x.w[a]).tag
    let td := (x.w[d]).tag
    let aw := tagWidth ta
    let block := 2 ^ e.ctx.vlcfg.blk.toNat
    let nb := (e.vl + block - 1) / block
    let on (n : Nat) : Bool := activeAt e x m aw n
    let vals (k : Nat) : List (Option Nat) × Bool :=
      ((List.range e.vl).map (fun n => if n / block ≠ k then none else if e.live ≤ n then some 0 else if on n then some (mxCode ta (rowEl x a aw n)) else none),
        (List.range block).any (fun o => on (k * block + o)))
    let z := mxBlocks (s.rctl 0 false) aw (rowEl x b 8) vals (List.range nb) (⟨0, x.lfsr⟩, none)
    let ok := isMxTag ta && (x.w[b]).tag == 13 && (td == 11 || td == 0) && fits e aw && decide (nb ≤ 2048) && mayWrite e x d
    some ⟨ok, [d, a, b], [(d, setEl (x.w[d]).latch 32 0 (z.2.getD 0))], z.1.flags, z.1.lfsr⟩
  | _, _, _ => none

/-- One butterfly stage at distance 2^k (09:R208): the sum below, the difference above. -/
def stage (add sub : Nat → Nat → Rounded) (k : Nat) (v : Nat → Nat) (n : Nat) : Rounded :=
  if n.testBit k then sub (v (n - 2 ^ k)) (v n) else add (v n) (v (n + 2 ^ k))

/-- The values after the stages at distances 2^k up to 2^(k+n-1). -/
def stages (add sub : Nat → Nat → Rounded) : Nat → Nat → (Nat → Nat) → Nat → Nat
  | _, 0, v => v
  | k, n + 1, v => stages add sub (k + 1) n (fun o => (stage add sub k v o).code)

/-- The flags that the live results of every stage raise. -/
def stageFlags (add sub : Nat → Nat → Rounded) (live : Nat) : Nat → Nat → (Nat → Nat) → BitVec 5
  | _, 0, _ => 0
  | k, n + 1, v =>
    (List.range live).foldl (fun f o => f ||| (stage add sub k v o).flags) 0 ||| stageFlags add sub live (k + 1) n (fun o => (stage add sub k v o).code)

/-- VHAD in one bank (09:R208). -/
def hadamardForm (s : State) (e : VEnv) (x : Bank) : Instr → Option WForm
  | .vhad d a imm p rm sat m =>
    let ta := (x.w[a]).tag
    let td := (x.w[d]).tag
    let named (t : BitVec 4) : Bool := isIntTag t || isFloatTag t
    let aw := tagWidth ta
    let dw := tagWidth td
    let k := imm.toNat % 2 ^ 4
    let n := imm.toNat / 2 ^ 4 + 1
    let f : BitVec 4 := if ta = 12 then 12 else if isFloatTag ta then 11 else if ta = 5 then 5 else 4
    let c : RCtl := ⟨1, s.front.rmode.ftz, false⟩
    let both (neg : Bool) (u v : Nat) : Rounded :=
      if isFloatTag f then
        let z := fdecode f c.ftz v
        let y := addX 1 (fdecode f c.ftz u) (if neg then z.neg else z)
        let r := roundTo f c 0 y.val
        ⟨r.code, r.flags ||| y.flags, 0⟩
      else ⟨wrapped f (intValue f u + (if neg then -(intValue f v) else intValue f v)), 0, 0⟩
    let offA := if aw < dw then p.val * (16384 / dw) else 0
    let offD := if dw < aw then p.val * (16384 / aw) else 0
    let v (o : Nat) : Nat := if o < e.live then widen ta f (rowEl x a aw (o + offA)) else 0
    let on (o : Nat) : Bool := activeAt e x m (max aw dw) o
    let run (o : Nat) (l : BitVec 32) : Rounded := convertVal f td (s.rctl rm.val sat) l (stages (both false) (both true) k n v o)
    let els := (List.range e.live).filter on
    let bits := els.foldl (fun b o => setEl b dw (o + offD) (run o (chained on run x.lfsr o).1).code) (x.w[d]).latch
    let ok := named ta && named td && fits e dw && fits e aw && (e.vl == 0 || decide (k + n ≤ 14 ∧ e.vl % 2 ^ (k + n) = 0)) &&
      decide (p.val < max aw dw / min aw dw) && mayWrite e x d
    some ⟨ok && decide (e.live ≤ e.vl), [d, a], if els = [] then [] else [(d, bits)],
      stageFlags (both false) (both true) e.live k n v ||| (chained on run x.lfsr e.live).2, (chained on run x.lfsr e.live).1⟩
  | _ => none

/-! ### Masks and configuration -/

/-- The mask with the bits of a predicate. -/
def maskFrom (f : Nat → Bool) : MaskBits := (List.range 2048).foldl (fun (b : MaskBits) i => if f i then b ||| BitVec.ofNat 2048 (2 ^ i) else b) 0

/-- A mask instruction: destination, sources, and bit n of the result from the sources' bits, the number of live bits being `live` (09:R214). -/
def maskRow (live : Nat) : Instr → Option (Fin 16 × Fin 16 × Fin 16 × ((Nat → Bool) → (Nat → Bool) → Nat → Bool))
  | .mkand d a b => some (d, a, b, fun p q n => p n && q n)
  | .mkor d a b => some (d, a, b, fun p q n => p n || q n)
  | .mkxor d a b => some (d, a, b, fun p q n => p n != q n)
  | .mkandn d a b => some (d, a, b, fun p q n => p n && !q n)
  | .mknot d a => some (d, a, a, fun p _ n => !p n)
  | .mkbelow d a => some (d, a, a, fun p _ n => decide (n < live) && (List.range (n + 1)).all (fun o => !p o))
  | .mkupto d a => some (d, a, a, fun p _ n => decide (n < live) && (List.range n).all (fun o => !p o))
  | .mkfirst d a => some (d, a, a, fun p _ n => decide (n < live) && p n && (List.range n).all (fun o => !p o))
  | _ => none

/-- The live bits of a mask (09:R214): one for every live element, or for two of 4 bits, or for eight of 1. -/
def liveOf (c : VlCfg) : Nat :=
  let g := if cfgWidth c = 1 then 8 else if cfgWidth c = 4 then 2 else 1
  (c.live.toNat + g - 1) / g

/-- md takes a value, m0 apart. -/
def withMask (x : Bank) (d : Fin 16) (v : MaskBits) : Bank := if d = 0 then x else { x with m := x.m.set d v }

/-- What VMOVMS reads (09:R215): the banks with a live 1, those all live 1, the live ones counted, the first live 1, the low word of the first bank. -/
def maskSummary (s : State) (banks : List (Nat × Nat)) (mode : Nat) (m : Fin 16) : Word :=
  let n := min (liveOf s.front.vlcfg) 2048
  let bit (q : Nat × Nat) (k : Nat) : Bool := maskOn (s.bank q.2) m 8 k
  let ones (q : Nat × Nat) : List Nat := (List.range n).filter (bit q)
  let named (l : List (Nat × Nat)) : Word := BitVec.ofNat 64 (l.map (fun q => 2 ^ q.1)).sum
  if mode = 0 then named (banks.filter (fun q => (ones q) != []))
  else if mode = 1 then named (banks.filter (fun q => (ones q).length == n))
  else if mode = 2 then BitVec.ofNat 64 (banks.map (fun q => (ones q).length)).sum
  else if mode = 3 then
    match banks.filter (fun q => (ones q) != []) with
    | [] => BitVec.allOnes 64
    | q :: _ => BitVec.ofNat 64 (q.1 * 2 ^ 16 + (ones q).headD 0)
  else match banks with | q :: _ => maskWord (s.bank q.2) m | [] => 0
where
  maskWord (x : Bank) (m : Fin 16) : Word := if m = 0 then BitVec.allOnes 64 else (x.m[m]).setWidth 64

/-! ### Planes -/

/-- Element n of a plane value of w planes from register `base` up (07:R164). -/
def planeAt (x : Bank) (base : Fin 16) (w n : Nat) : Nat :=
  ((List.range w).map (fun k => 2 ^ k * (if h : base.val + k < 16 then rowEl x ⟨base.val + k, h⟩ 1 n else 0))).sum

/-- A number of w bits read signed or unsigned (09:R220). -/
def readAs (sgn : Bool) (w v : Nat) : Int := if sgn then toSigned w v else (v : Int)

/-- A plane instruction: destination with its planes, first source, second source, mask, whether the destination may share the first source's base,
whether it may lie anywhere, and the result of an element (09:R219, R220). -/
structure PlaneOp where
  d : Fin 16
  wd : Nat
  a : Fin 16
  b : Option (Fin 16)
  m : Fin 16
  share : Bool
  free : Bool
  f : Nat → Nat → Int

/-- The plane instructions under a configuration (09:R217, R220). -/
def planeRow (c : PCfg) : Instr → Option PlaneOp
  | .vpadd d a b m => some ⟨d, c.wd.toNat + 1, a, some b, m, true, false, fun u v => sa u + sb v⟩
  | .vpsub d a b m => some ⟨d, c.wd.toNat + 1, a, some b, m, true, false, fun u v => sa u - sb v⟩
  | .vpmul d a b m => some ⟨d, c.wd.toNat + 1, a, some b, m, false, false, fun u v => sa u * sb v⟩
  | .vpcmpEq d a b m => some ⟨d, 1, a, some b, m, false, true, fun u v => if sa u = sb v then 1 else 0⟩
  | .vpcmpNe d a b m => some ⟨d, 1, a, some b, m, false, true, fun u v => if sa u = sb v then 0 else 1⟩
  | .vpcmpLt d a b m => some ⟨d, 1, a, some b, m, false, true, fun u v => if sa u < sb v then 1 else 0⟩
  | .vpcmpLe d a b m => some ⟨d, 1, a, some b, m, false, true, fun u v => if sa u ≤ sb v then 1 else 0⟩
  | .vpcmpGt d a b m => some ⟨d, 1, a, some b, m, false, true, fun u v => if sb v < sa u then 1 else 0⟩
  | .vpcmpGe d a b m => some ⟨d, 1, a, some b, m, false, true, fun u v => if sb v ≤ sa u then 1 else 0⟩
  | .vpsll d a n m => some ⟨d, c.wd.toNat + 1, a, none, m, true, false, fun u _ => sa u * ((2 ^ n.val : Nat) : Int)⟩
  | .vpsrl d a n m => some ⟨d, c.wd.toNat + 1, a, none, m, true, false, fun u _ => ((u / 2 ^ n.val : Nat) : Int)⟩
  | .vpsra d a n m => some ⟨d, c.wd.toNat + 1, a, none, m, true, false, fun u _ => toSigned (c.wa.toNat + 1) u / ((2 ^ n.val : Nat) : Int)⟩
  | .vpcnt d a m => some ⟨d, c.wd.toNat + 1, a, none, m, false, false, fun u _ => (((List.range (c.wa.toNat + 1)).countP (fun k => u.testBit k)) : Int)⟩
  | _ => none
where
  sa (u : Nat) : Int := readAs c.sgn (c.wa.toNat + 1) u
  sb (v : Nat) : Int := readAs c.sgn (c.wb.toNat + 1) v

/-- The registers of a plane value. -/
def planesOf (base : Fin 16) (w : Nat) : List (Fin 16) := (List.finRange 16).filter (fun k => decide (base.val ≤ k.val ∧ k.val < base.val + w))

/-- The new planes of a destination whose elements take values: register base + k takes bit k. -/
def planeRows (x : Bank) (d : Fin 16) (wd : Nat) (els : List (Nat × Nat)) : List (Fin 16 × RowBits) :=
  if els = [] then [] else (planesOf d wd).map (fun k => (k, els.foldl (fun b p => setEl b 1 p.1 (p.2 / 2 ^ (k.val - d.val) % 2)) (x.w[k]).latch))

/-- Two runs of registers do not meet. -/
def apart (d : Fin 16) (wd : Nat) (a : Fin 16) (wa : Nat) : Bool := decide (d.val + wd ≤ a.val ∨ a.val + wa ≤ d.val)

/-- A plane instruction, VTRP or VTRW in one bank (09:R217-R222). -/
def planeForm (e : VEnv) (x : Bank) (i : Instr) : Option WForm :=
  let c := e.ctx.pcfg
  let wa := c.wa.toNat + 1
  let wb := c.wb.toNat + 1
  let isPlane := e.ctx.vlcfg.fmt == 15
  let tagged (l : List (Fin 16)) (dst : Bool) : Bool := l.all (fun k => (x.w[k]).tag == 15 || (dst && (x.w[k]).tag == 0))
  let words (t : BitVec 4) : Bool := t == 1 || t == 2 || t == 3 || t == 14
  let inside (base : Fin 16) (w : Nat) : Bool := decide (base.val + w ≤ 16)
  let idx (m p : Fin 16) (w : Nat) : List Nat := (List.range e.live).filter (fun n => activeAt e x m 1 n && decide (n / (16384 / w) = p.val))
  match planeRow c i, i with
  | some r, _ =>
    let bs := r.b.toList
    let els := ((List.range e.live).filter (activeAt e x r.m 1)).map (fun n =>
      (n, wrapInt r.wd (r.f (planeAt x r.a wa n) (match r.b with | some b => planeAt x b wb n | none => 0))))
    let ok := isPlane && tagged (planesOf r.d r.wd) true && tagged (planesOf r.a wa) false && bs.all (fun b => tagged (planesOf b wb) false) &&
      inside r.d r.wd && inside r.a wa && bs.all (fun b => inside b wb) &&
      (r.free || (apart r.d r.wd r.a wa || (r.share && r.d == r.a && decide (r.wd ≤ wa))) && bs.all (fun b => apart r.d r.wd b wb)) &&
      (planesOf r.d r.wd).all (mayWrite e x)
    some ⟨ok, planesOf r.d r.wd ++ planesOf r.a wa ++ bs.flatMap (fun b => planesOf b wb), planeRows x r.d r.wd els, 0, x.lfsr⟩
  | none, .vtrp d a p m =>
    let t := (x.w[a]).tag
    let w := tagWidth t
    let wd := c.wd.toNat + 1
    let els := (idx m p w).map (fun n => (n, wrapInt wd (intValue t (rowEl x a w (n % (16384 / w))))))
    let ok := isPlane && tagged (planesOf d wd) true && words t && inside d wd && apart d wd a 1 && decide (p.val < w) && (planesOf d wd).all (mayWrite e x)
    some ⟨ok, a :: planesOf d wd, planeRows x d wd els, 0, x.lfsr⟩
  | none, .vtrw d a p m =>
    let t := (x.w[d]).tag
    let w := tagWidth t
    let l := idx m p w
    let bits := l.foldl (fun b n => setEl b w (n % (16384 / w)) (wrapInt w (readAs c.sgn wa (planeAt x a wa n)))) (x.w[d]).latch
    let ok := isPlane && tagged (planesOf a wa) false && words t && inside a wa && apart d 1 a wa && decide (p.val < w) && mayWrite e x d
    some ⟨ok, d :: planesOf a wa, if l = [] then [] else [(d, bits)], 0, x.lfsr⟩
  | _, _ => none

/-! ### Tiles, matrix steps, pinnate instructions -/

/-- Element n = 64 i + j of a tile (10:R223). -/
def tileEl (x : Bank) (t : Fin 4) (n : Nat) : Nat := getEl x.t[t] 32 n

/-- The tile of given elements. -/
def tileFrom (f : Nat → Nat) : TileBits := (List.range 4096).foldl (fun (b : TileBits) n => setEl b 32 n (f n)) 0

/-- A bank with a tile's elements replaced. -/
def withTile (x : Bank) (t : Fin 4) (f : Nat → Nat) : Bank := { x with t := x.t.set t (tileFrom f) }

/-- The sum of row i of a tile read as INT32, modulo 2^32 (10:R244). -/
def rowTotal (x : Bank) (t : Fin 4) (i : Nat) : Nat := ((List.range 64).map (fun j => tileEl x t (64 * i + j))).sum % 2 ^ 32

/-- A bank with n entries of a tile's checksum row, from i on, set to their row sums (11:R256). -/
def summed (x : Bank) (t : Fin 4) (i n : Nat) : Bank :=
  { x with q := x.q.set t ((List.range n).foldl (fun (b : MaskBits) d => setEl b 32 (i + d) (rowTotal x t (i + d))) x.q[t]) }

/-- A tile and its checksum row to zero. -/
def zeroed (x : Bank) (t : Fin 4) : Bank := { x with t := x.t.set t 0, q := x.q.set t 0 }

/-- The rounding of the matrix array: RMODE, SR carried out as RNE (10:R227). -/
def matrixCtl (s : State) : RCtl := ⟨if s.front.rmode.rm = 5 then 1 else s.front.rmode.rm.toNat, s.front.rmode.ftz, false⟩

/-- A real rounded once into FP32 or FP64, its own flags added. -/
def roundedX (t : BitVec 4) (c : RCtl) (y : Exact) : Nat × BitVec 5 :=
  let r := roundTo t c 0 y.val
  (r.code, r.flags ||| y.flags)

/-- The OR of the flags of n results. -/
def flagsOf (n : Nat) (f : Nat → BitVec 5) : BitVec 5 := (List.range n).foldl (fun (a : BitVec 5) i => a ||| f i) 0

/-- The tile pair tp as FP64 elements: the odd tile in bits [63:32] (10:R223). -/
def evenTile (tp : Bool) : Fin 4 := if tp then 2 else 0
def oddTile (tp : Bool) : Fin 4 := if tp then 3 else 1

/-- The fold of tile ti into the pair tp at weight v with exponents in c and e (10:R236, 11:R262). -/
def folded (tp : Bool) (ti : Fin 4) (c e : Fin 16) (v : Nat) (x : Bank) : Bank :=
  let p := evenTile tp
  let o := oddTile tp
  let ex (k : Fin 16) (i : Nat) : Int := toSigned 16 (rowEl x k 16 i)
  let sum (n : Nat) : Nat × BitVec 5 :=
    let a := ex c (n / 64)
    let b := ex e (n % 64)
    if a = 32767 ∨ b = 32767 then (canonNaN 12, fNV)
    else
      roundedX 12 ⟨1, false, false⟩ (addX 1 (fdecode 12 false (tileEl x p n + 2 ^ 32 * tileEl x o n))
        ((realOfInt (toSigned 32 (tileEl x ti n))).scale (a + b - 12 - 7 * (v : Int))))
  let y := withTile (withTile x p (fun n => (sum n).1 % 2 ^ 32)) o (fun n => (sum n).1 / 2 ^ 32)
  zeroed { y with flags := x.flags ||| flagsOf 4096 (fun n => (sum n).2) } ti

/-- An indivisible instruction in one bank: its checks, the register it names, whether it needs source words, the bank it leaves (11:R252-R257, R262). -/
def indivisible (s : State) (x : Bank) : Instr → Option (Bool × List (Fin 16) × Bool × (Bank → Bank))
  | .mzero t => some (true, [], false, fun y => zeroed y t)
  | .mld t a b =>
    if 8 ≤ b.val then none
    else some ((x.w[a]).tag == 0 || (x.w[a]).tag == 4 || (x.w[a]).tag == 11, [a], true, fun y =>
      summed (withTile y t (fun n => if n / 512 = b.val then rowEl y a 32 (n % 512) else tileEl y t n)) t (8 * b.val) 8)
  | .mldP t a b =>
    if h : t.val % 2 = 1 then none
    else
      let o : Fin 4 := ⟨t.val + 1, by omega⟩
      some ((x.w[a]).tag == 0 || (x.w[a]).tag == 5 || (x.w[a]).tag == 12, [a], true, fun y =>
        let y1 := withTile y t (fun n => if n / 256 = b.val then rowEl y a 64 (n % 256) % 2 ^ 32 else tileEl y t n)
        let y2 := withTile y1 o (fun n => if n / 256 = b.val then rowEl y a 64 (n % 256) / 2 ^ 32 else tileEl y o n)
        summed (summed y2 t (4 * b.val) 4) o (4 * b.val) 4)
  | .mst t a b =>
    if 8 ≤ b.val then none
    else some (((x.w[a]).tag == 0 || (x.w[a]).tag == 4 || (x.w[a]).tag == 11) && (!isBound x.w[a] || (x.w[a]).writable), [a], false, fun y =>
      rewritten y a ((List.range 512).foldl (fun (r : RowBits) n => setEl r 32 n (tileEl y t (512 * b.val + n))) 0))
  | .mstP t a b =>
    if h : t.val % 2 = 1 then none
    else
      let o : Fin 4 := ⟨t.val + 1, by omega⟩
      some (((x.w[a]).tag == 0 || (x.w[a]).tag == 5 || (x.w[a]).tag == 12) && (!isBound x.w[a] || (x.w[a]).writable), [a], false, fun y =>
        rewritten y a ((List.range 256).foldl (fun (r : RowBits) n =>
          setEl r 64 n (tileEl y t (256 * b.val + n) + 2 ^ 32 * tileEl y o (256 * b.val + n))) 0))
  | .mscale t a => some ((x.w[a]).tag == 13, [a], true, fun y =>
      let el (n : Nat) : Nat × BitVec 5 :=
        let c := rowEl y a 8 (n % 64)
        if c = 255 then (canonNaN 11, 0)
        else roundedX 11 (matrixCtl s) ⟨(fdecode 11 s.front.rmode.ftz (tileEl y t n)).scale ((c : Int) - 127), 0⟩
      let z := withTile y t (fun n => (el n).1)
      { z with flags := y.flags ||| flagsOf 4096 (fun n => (el n).2) })
  | .pfold tp ti c e v =>
    if (ti = evenTile tp ∨ ti = oddTile tp) then none
    else some ((x.w[c]).tag == 3 && (x.w[e]).tag == 3, [c, e], true, folded tp ti c e v.toNat)
  | _ => none

/-- The indivisible instructions that write a row register. -/
def storesRow : Instr → Bool
  | .mst _ _ _ => true
  | .mstP _ _ _ => true
  | _ => false

/-- Completion of an instruction that leaves VSTART as it found it (11:R250). -/
def vectorKept (s : State) (e : VEnv) (n : Nat) (u : State) : State := withFront (vectorDone s n u) (fun f => { f with vstart := e.ctx.vstart })

/-- A rank-1 update of a matrix step (10:R225-R231): tile, sources with the formats they are read in, whether the tile is FP32, the scale register with the
block length, whether products are subtracted, whether the checksum row follows, the active loop indices. -/
structure Update where
  t : Fin 4
  a : Fin 16
  b : Fin 16
  fa : BitVec 4
  fb : BitVec 4
  fp : Bool
  scales : Option (Fin 16 × Nat)
  sub : Bool
  ck : Bool
  on : Nat → Bool

/-- Update k of a matrix step in a bank, with one rounding of each sum; an inactive row or column leaves its elements bit for bit (10:R227-R229, R244). -/
def Update.at (p : Update) (c : RCtl) (x : Bank) (k : Nat) : Bank :=
  let ca (i : Nat) : Nat := rowEl x p.a (tagWidth p.fa) (64 * k + i)
  let cb (j : Nat) : Nat := rowEl x p.b (tagWidth p.fb) (64 * k + j)
  let real (t : BitVec 4) (v : Nat) : FReal := if isIntTag t then (realOfInt (intValue t v)).scale (if p.scales.isSome then -6 else 0) else fdecode t false v
  let ra (i : Nat) : FReal :=
    match p.scales with
    | none => real p.fa (ca i)
    | some (m, len) =>
      let z := rowEl x m 8 ((64 * k + i) / len)
      if z = 255 then .nan false else (real p.fa (ca i)).scale ((z : Int) - 127)
  let sign : Int := if p.sub then -1 else 1
  let el (n : Nat) : Nat × BitVec 5 :=
    let old := tileEl x p.t n
    if p.on (64 * k + n / 64) && p.on (64 * k + n % 64) then
      if p.fp then roundedX 11 c (fmaX c.mode (if p.sub then (ra (n / 64)).neg else ra (n / 64)) (real p.fb (cb (n % 64))) (fdecode 11 c.ftz old))
      else (wrapInt 32 ((old : Int) + sign * intValue p.fa (ca (n / 64)) * intValue p.fb (cb (n % 64))), 0)
    else (old, 0)
  let y := withTile x p.t (fun n => (el n).1)
  let z := { y with flags := x.flags ||| flagsOf 4096 (fun n => (el n).2) }
  if p.ck then
    let sigma := ((List.range 64).filter (fun j => p.on (64 * k + j))).foldl (fun (v : Int) j => v + intValue p.fb (cb j)) 0
    let q := (List.range 64).foldl (fun (b : MaskBits) i =>
      if p.on (64 * k + i) then setEl b 32 i (wrapInt 32 ((getEl b 32 i : Int) + sign * intValue p.fa (ca i) * sigma)) else b) x.q[p.t]
    { z with q := z.q.set p.t q }
  else z

/-- Updates lo up to hi - 1, in ascending order. -/
def Update.run (p : Update) (c : RCtl) (lo hi : Nat) (x : Bank) : Bank := (List.range (hi - lo)).foldl (fun (y : Bank) d => p.at c y (lo + d)) x

/-- A matrix step in one bank: its checks and its update (11:R253, R254). -/
def stepForm (e : VEnv) (x : Bank) (i : Instr) : Option (Bool × Update) :=
  let live (n : Nat) : Bool := ranAll e n
  let sized (fa fb : BitVec 4) : Bool := decide (e.vl % 64 = 0) && fits e (tagWidth fa) && fits e (tagWidth fb)
  let plain (t : Fin 4) (a b m : Fin 16) (ck sub : Bool) : Option (Bool × Update) :=
    (matPair (x.w[a]).tag (x.w[b]).tag).map (fun (f : BitVec 4 × BitVec 4 × Bool) =>
      (!(ck && f.2.2) && sized f.1 f.2.1, ⟨t, a, b, f.1, f.2.1, f.2.2, none, sub, ck, fun n => live n && maskOn x m (tagWidth f.1) n⟩))
  let scaled (ms : Fin 16) (t : Fin 4) (a b : Fin 16) (sub : Bool) : Option (Bool × Update) :=
    let len := 2 ^ e.ctx.vlcfg.blk.toNat
    (mxPair (x.w[a]).tag (x.w[b]).tag).map (fun (f : BitVec 4 × BitVec 4 × Bool) =>
      ((x.w[ms]).tag == 13 && sized f.1 f.2.1 && decide ((e.vl + len - 1) / len ≤ 2048),
       ⟨t, a, b, f.1, f.2.1, true, some (ms, len), sub, false, live⟩))
  match i with
  | .mopa t a b m ck => plain t a b m ck false
  | .mops t a b m ck => plain t a b m ck true
  | .mopaMX ms t a b => scaled ms t a b false
  | .mopsMX ms t a b => scaled ms t a b true
  | _ => none

/-- PEXP and PSPLIT in one bank (11:R259, R260). -/
def pinnateForm (e : VEnv) (x : Bank) : Instr → Option WForm
  | .pexp d a imm S m =>
    let ta := (x.w[a]).tag
    let w := tagWidth ta
    let ok := (ta == 12 || (ta == 11 && decide (S.val ≤ 4))) && (x.w[d]).tag == 3 && fits e w && (!isBound x.w[d] || (x.w[d]).writable)
    let top (r : Nat) : Int :=
      ((List.range e.live).filter (fun n => activeAt e x m w n && n % 64 == r)).foldl (fun (v : Int) n =>
        match fdecode ta false (rowEl x a w n) with
        | .fin _ 0 _ _ => v
        | .fin _ k ex _ => max v ((Nat.log2 k : Int) + ex)
        | _ => 32767) (if imm.getLsbD 0 then toSigned 16 (rowEl x d 16 r) else -1075)
    some ⟨ok, [d, a], [(d, (List.range 64).foldl (fun (b : RowBits) r => setEl b 16 r (wrapInt 16 (top r))) (x.w[d]).latch)], 0, x.lfsr⟩
  | .psplit d a c imm S m =>
    let ta := (x.w[a]).tag
    let w := tagWidth ta
    let ds := planesOf d S.val
    let part := imm.toNat % 8
    let ok := (ta == 12 || (ta == 11 && decide (S.val ≤ 4))) && ds.all (fun k => (x.w[k]).tag == 1) && (x.w[c]).tag == 3 && decide (d.val + S.val ≤ 16) &&
      fits e w && decide (part < w / 8) && ds.all (mayWrite e x)
    let els := (List.range e.live).filter (activeAt e x m w)
    let ex (n : Nat) : Int := toSigned 16 (rowEl x c 16 (n % 64))
    let slice (k n : Nat) : Int :=
      if ex n = 32767 then 0 else match fdecode ta false (rowEl x a w n) with | .fin neg v e0 _ => sliceOf neg v e0 (ex n) S.val k | _ => 0
    let flag (n : Nat) : BitVec 5 :=
      match fdecode ta false (rowEl x a w n) with
      | .fin _ v e0 _ => if v ≠ 0 ∧ ex n + 1 ≤ (Nat.log2 v : Int) + e0 then fNV else 0
      | _ => if ex n = 32767 then 0 else fNV
    let rows := ds.map (fun k => (k, els.foldl (fun (b : RowBits) n =>
      setEl b 8 (n + part * (16384 / w)) (wrapInt 8 (slice (k.val - d.val) n))) (x.w[k]).latch))
    some ⟨ok, ds ++ [a, c], if els = [] then [] else rows, els.foldl (fun (f : BitVec 5) n => f ||| flag n) 0, x.lfsr⟩
  | _ => none

/-- The fields of a PMMA, its k steps, the loop indices it runs. -/
structure Pinnate where
  tp : Bool
  ti : Fin 4
  a : Fin 16
  b : Fin 16
  c : Fin 16
  e : Fin 16
  S : Nat
  full : Bool
  ck : Bool
  m : Fin 16
  kc : Nat
  on : Nat → Bool

/-- The slice of A in the first pair of weight v, and the pairs that a weight has (10:R235). -/
def Pinnate.lowest (p : Pinnate) (v : Nat) : Nat := v + 1 - p.S
def Pinnate.pairs (p : Pinnate) (v : Nat) : Nat := min v (p.S - 1) + 1 - p.lowest v
def Pinnate.highest (p : Pinnate) : Nat := if p.full then 2 * (p.S - 1) else p.S - 1

/-- Pair n of weight v, k steps lo to Kc - 1, in one bank (10:R236). -/
def Pinnate.pairRun (p : Pinnate) (v lo : Nat) (x : Bank) (n : Nat) : Bank :=
  let sa := p.lowest v + n
  let reg (k : Nat) : Fin 16 := ⟨k % 16, Nat.mod_lt _ (by decide)⟩
  Update.run ⟨p.ti, reg (p.a.val + sa), reg (p.b.val + (v - sa)), 1, 1, false, none, false, p.ck,
    fun i => p.on i && maskOn x p.m 8 i⟩ ⟨1, false, false⟩ lo p.kc x

/-- The pairs of weight v from (n0, k0) on. -/
def Pinnate.weightRun (p : Pinnate) (v n0 k0 : Nat) (x : Bank) : Bank :=
  (List.range (p.pairs v - n0)).foldl (fun (y : Bank) d => p.pairRun v (if d = 0 then k0 else 0) y (n0 + d)) x

/-- The weights below n, from the highest down, each with its fold; with whether every checksum row agreed before its fold (10:R236, R245). -/
def Pinnate.weights (p : Pinnate) : Nat → Bank → Bank × Bool
  | 0, x => (x, true)
  | n + 1, x =>
    let y := p.weightRun n 0 0 x
    let r := p.weights n (folded p.tp p.ti p.c p.e n y)
    (r.1, r.2 && (!p.ck || (List.range 64).all (fun i => rowTotal y p.ti i == getEl y.q[p.ti] 32 i)))

/-- PMMA in one bank, from SPROG's point where it is active (10:R236, R243). -/
def Pinnate.whole (p : Pinnate) (sp : SProg) (x : Bank) : Bank × Bool :=
  if sp.active then
    let v := sp.weight.toNat
    let y := p.weightRun v sp.pair.toNat sp.kstep.toNat x
    let r := p.weights v (folded p.tp p.ti p.c p.e v y)
    (r.1, r.2 && (!p.ck || (List.range 64).all (fun i => rowTotal y p.ti i == getEl y.q[p.ti] 32 i)))
  else p.weights (p.highest + 1) x

/-- SPROG continues this PMMA, or is not active (10:R243). -/
def Pinnate.resumable (p : Pinnate) (sp : SProg) : Prop :=
  sp.active = true → sp.s.toNat = p.S ∧ sp.full = p.full ∧ sp.ck = p.ck ∧ sp.tp = p.tp ∧ sp.ti.toNat = p.ti.val ∧ sp.weight.toNat ≤ p.highest ∧
    sp.pair.toNat < p.pairs sp.weight.toNat ∧ sp.kstep.toNat < p.kc

/-- The tags and the registers of PMMA's operands (10:R237). -/
def Pinnate.operandsOk (p : Pinnate) (x : Bank) : Prop :=
  p.a.val + p.S ≤ 16 ∧ p.b.val + p.S ≤ 16 ∧ (∀ k ∈ planesOf p.a p.S ++ planesOf p.b p.S, (x.w[k]).tag = 1) ∧ (x.w[p.c]).tag = 3 ∧ (x.w[p.e]).tag = 3

/-! ### Gallery operations -/

/-- The position of an executing bank (12:R264). -/
def positionOf (e : VEnv) (q : Nat × Nat) : Nat := e.banks.findIdx (fun o => o == q)

/-- The executing bank at a position. -/
def bankAt (e : VEnv) (n : Nat) : Nat := ((e.banks[n]?).map (fun q => q.2)).getD 0

/-- A gallery move: destination, source, mask, and what the bank at position p receives: nothing, the element of another position, or zeros (12:R265,
13:R287). -/
def moveRow (s : State) (e : VEnv) : Instr → Option (Fin 16 × Fin 16 × Fin 16 × (Nat → Option (Option Nat)))
  | .grot d a n m => some (d, a, m, fun p => some (some ((p + e.banks.length - n.toNat % e.banks.length) % e.banks.length)))
  | .gbcast d a n m => some (d, a, m, fun _ => some (if n.toNat < e.banks.length then some n.toNat else none))
  | .gperm d a x m => some (d, a, m, fun p =>
      let t := ((s.bank (bankAt e p)).getX x).val.toNat
      some (if t < e.banks.length then some t else none))
  | .gxch d a n m => some (d, a, m, fun p => if p ^^^ n.toNat < e.banks.length then some (some (p ^^^ n.toNat)) else none)
  | _ => none

/-- Some element of a gallery operation is active in a bank. -/
def anyActive (e : VEnv) (x : Bank) (m : Fin 16) : Bool := (List.range e.live).any (activeAt e x m (cfgWidth e.ctx.vlcfg))

/-- The tags and lengths of a gallery operation's registers in a bank (13:R288). -/
def galleryOk (e : VEnv) (x : Bank) (d a : Fin 16) : Bool :=
  let f := e.ctx.vlcfg.fmt
  ((x.w[d]).tag == f || (x.w[d]).tag == 0) && ((x.w[a]).tag == f || (x.w[a]).tag == 0) && fits e (cfgWidth e.ctx.vlcfg)

/-- A bank after a gallery move: the active elements of wd take the values, if the position receives any. -/
def moved (s : State) (e : VEnv) (x : Bank) (d a m : Fin 16) (src : Option (Option Nat)) : Bank :=
  let w := cfgWidth e.ctx.vlcfg
  let els := (List.range e.live).filter (activeAt e x m w)
  let y := arrived x [a, d]
  match src with
  | none => y
  | some o =>
    let v (n : Nat) : Nat := match o with | some q => rowEl (s.bank (bankAt e q)) a w n | none => 0
    if els = [] then y else rewritten y d (els.foldl (fun (b : RowBits) n => setEl b w n (v n)) (x.w[d]).latch)

/-- A gallery reduce: destination, source, mask, the integer operation or the bitwise one, and the floating one (12:R266, 13:R287). -/
structure Gather where
  d : Fin 16
  a : Fin 16
  m : Fin 16
  int : BitVec 4 → Nat → Nat → Nat
  flt : Option (BitVec 4 → RCtl → BitVec 32 → Nat → Nat → Rounded)

def gatherRow : Instr → Option Gather
  | .gredSum d a m => some ⟨d, a, m, fun t u v => wrapped t (intValue t u + intValue t v), opAdd.flt⟩
  | .gredMin d a m => some ⟨d, a, m, fun t u v => wrapped t (min (intValue t u) (intValue t v)), opMin.flt⟩
  | .gredMax d a m => some ⟨d, a, m, fun t u v => wrapped t (max (intValue t u) (intValue t v)), opMax.flt⟩
  | .gredAnd d a m => some ⟨d, a, m, fun _ u v => u &&& v, none⟩
  | .gredOr d a m => some ⟨d, a, m, fun _ u v => u ||| v, none⟩
  | .gredXor d a m => some ⟨d, a, m, fun _ u v => u ^^^ v, none⟩
  | _ => none

/-- What a gallery reduce of floats writes of an element that one position alone supplies: a NaN becomes canonical, a signalling one raising NV; with FTZ a
subnormal is zero (06:R132, R133). -/
def alone (f : BitVec 4) (c : RCtl) (code : Nat) : Nat × BitVec 5 :=
  match fdecode f c.ftz code with
  | .nan g => (canonNaN f, if g then fNV else 0)
  | .fin neg 0 _ _ => (b2n neg * 2 ^ (tagWidth f - 1), 0)
  | _ => (code, 0)

/-- The bank at position 0 after a gallery reduce: each of its active elements takes the combination, over the positions where the element is active, of
the elements of wa; of floats in the order of 12:R266. -/
def gathered (s : State) (e : VEnv) (g : Gather) (x : Bank) : Bank :=
  let f := e.ctx.vlcfg.fmt
  let w := cfgWidth e.ctx.vlcfg
  let els := (List.range e.live).filter (activeAt e x g.m w)
  let val (q : Nat × Nat) (n : Nat) : Option Nat := if activeAt e (s.bank q.2) g.m w n then some (rowEl (s.bank q.2) g.a w n) else none
  let y := arrived x [g.a, g.d]
  let put (c : Nat → Nat) : Bank := if els = [] then y else rewritten y g.d (els.foldl (fun (b : RowBits) n => setEl b w n (c n)) (x.w[g.d]).latch)
  match isFloatTag f, g.flt with
  | true, some h =>
    let r := gredTree (h f (s.rctl 0 false)) 8 ⟨0, x.lfsr⟩ (e.banks.map (fun q => (List.range e.live).map (val q)))
    let res (n : Nat) : Nat × BitVec 5 :=
      let c := ((r.2[n]?).getD none).getD 0
      if (e.banks.filter (fun q => (val q n).isSome)).length = 1 then alone f (s.rctl 0 false) c else (c, 0)
    let z := put (fun n => (res n).1)
    { z with flags := els.foldl (fun a n => a ||| (res n).2) (x.flags ||| r.1.flags), lfsr := r.1.lfsr }
  | _, _ => put (fun n => match e.banks.filterMap (fun q => val q n) with | [] => 0 | c :: l => l.foldl (g.int f) c)

/-- The formats of a gallery reduce (13:R288). -/
def gatherOk (g : Gather) (f : BitVec 4) : Bool := isIntTag f || (g.flt.isSome && isFloatTag f) || (g.flt.isNone && f == 0)

/-! ### Far operations -/

/-- A far operation (13:R291-R300): bytes of an element, operation (0 store, 1 scatter-add, 16 and up the atomics by their func8), whether it loads, its
registers, whether wd is written and whether it is compared, its fields, the tags its data may carry, the entry bits it needs. -/
structure FarRow where
  bytes : Nat
  op : Nat
  load : Bool
  d : Option (Fin 16)
  ret : Bool
  cmp : Bool
  a : Option (Fin 16)
  b : Option (Fin 16)
  x : Fin 32
  off : BitVec 20
  nr : Bool
  m : Fin 16
  tags : BitVec 4 → Bool
  need : Need

/-- The data tags of loads and stores, of the scatter-add, of the integer atomics (13:R293). -/
def dataTag (n : Nat) (t : BitVec 4) : Bool := t == 0 || (t != 15 && tagWidth t == 8 * n)
def sumTag (n : Nat) (t : BitVec 4) : Bool := t != 0 && t != 6 && t != 7 && t != 8 && t != 13 && t != 14 && t != 15 && tagWidth t == 8 * n
def atomTag (n : Nat) (t : BitVec 4) : Bool := t == 0 || ((t == 4 || t == 5) && tagWidth t == 8 * n)

/-- A far atomic: wd receives the old values unless nothing returns, and holds what FAR.CAS compares with. -/
def farAtom (op : Nat) (tags : BitVec 4 → Bool) (d a : Fin 16) (x : Fin 32) (off : BitVec 20) (b : Fin 16) (esz : Fin 4) (nr : Bool) (m : Fin 16) : FarRow :=
  ⟨2 ^ esz.val, op, false, if nr && op != 26 then none else some d, !nr, op == 26, some a, some b, x, off, nr, m, tags, ⟨true, true, true⟩⟩

def farRow : Instr → Option FarRow
  | .farLd d x off esz _ _ m => some ⟨2 ^ esz.val, 0, true, some d, true, false, none, none, x, off, false, m, dataTag (2 ^ esz.val), ⟨true, false, false⟩⟩
  | .farSt a x off esz _ _ nr m => some ⟨2 ^ esz.val, 0, false, none, false, false, some a, none, x, off, nr, m, dataTag (2 ^ esz.val), ⟨false, true, false⟩⟩
  | .farGather d x off b esz _ _ m =>
    some ⟨2 ^ esz.val, 0, true, some d, true, false, none, some b, x, off, false, m, dataTag (2 ^ esz.val), ⟨true, false, false⟩⟩
  | .farScatter a x off b esz _ _ nr m =>
    some ⟨2 ^ esz.val, 0, false, none, false, false, some a, some b, x, off, nr, m, dataTag (2 ^ esz.val), ⟨false, true, false⟩⟩
  | .farScadd a x off b esz _ _ nr m =>
    some ⟨2 ^ esz.val, 1, false, none, false, false, some a, some b, x, off, nr, m, sumTag (2 ^ esz.val), ⟨true, true, true⟩⟩
  | .farAdd d a x off b esz _ _ nr m => some (farAtom 16 (atomTag (2 ^ esz.val)) d a x off b esz nr m)
  | .farFadd d a x off b esz _ _ nr m => some (farAtom 17 (fun t => t == 11 || t == 0) d a x off b esz nr m)
  | .farMin d a x off b esz _ _ nr m => some (farAtom 18 (atomTag (2 ^ esz.val)) d a x off b esz nr m)
  | .farMax d a x off b esz _ _ nr m => some (farAtom 19 (atomTag (2 ^ esz.val)) d a x off b esz nr m)
  | .farMinu d a x off b esz _ _ nr m => some (farAtom 20 (atomTag (2 ^ esz.val)) d a x off b esz nr m)
  | .farMaxu d a x off b esz _ _ nr m => some (farAtom 21 (atomTag (2 ^ esz.val)) d a x off b esz nr m)
  | .farAnd d a x off b esz _ _ nr m => some (farAtom 22 (atomTag (2 ^ esz.val)) d a x off b esz nr m)
  | .farOr d a x off b esz _ _ nr m => some (farAtom 23 (atomTag (2 ^ esz.val)) d a x off b esz nr m)
  | .farXor d a x off b esz _ _ nr m => some (farAtom 24 (atomTag (2 ^ esz.val)) d a x off b esz nr m)
  | .farSwap d a x off b esz _ _ nr m => some (farAtom 25 (atomTag (2 ^ esz.val)) d a x off b esz nr m)
  | .farCas d a x off b esz _ _ nr m => some (farAtom 26 (atomTag (2 ^ esz.val)) d a x off b esz nr m)
  | _ => none

/-- The word that an element leaves in memory, and the flags it raises (13:R299, R300): `t` is wa's tag, `n` the bytes, sums of floats rounded to nearest. -/
def farNew (op : Nat) (t : BitVec 4) (n old v c : Nat) : Nat × BitVec 5 :=
  let w := 8 * n
  let sum (f : BitVec 4) : Nat × BitVec 5 := roundedX f ⟨1, false, false⟩ (addX 1 (fdecode f false old) (fdecode f false v))
  match op with
  | 1 => if isFloatTag t then sum t else (wrapped t (intValue t old + intValue t v), 0)
  | 16 => ((old + v) % 2 ^ w, 0)
  | 17 => sum 11
  | 18 => (if toSigned w v < toSigned w old then v else old, 0)
  | 19 => (if toSigned w old < toSigned w v then v else old, 0)
  | 20 => (min old v, 0)
  | 21 => (max old v, 0)
  | 22 => (old &&& v, 0)
  | 23 => (old ||| v, 0)
  | 24 => (old ^^^ v, 0)
  | 26 => (if old = c then v else old, 0)
  | _ => (v, 0)

/-- The virtual address of element n in a bank (13:R292): an index is unsigned under UINT8 and tag 0, signed otherwise. -/
def farVa (r : FarRow) (e : VEnv) (x : Bank) (n : Nat) : Word :=
  let k : Int := match r.b with
    | some b =>
      let t := (x.w[b]).tag
      let c := rowEl x b (ownWidth x b (cfgWidth e.ctx.vlcfg)) n
      if t = 0 ∨ t = 2 then (c : Int) else toSigned (tagWidth t) c
    | none => (n : Int)
  BitVec.ofInt 64 ((x.getX r.x).val.toInt + r.off.toInt + k * (r.bytes : Int))

/-- The registers of a far operation. -/
def FarRow.regs (r : FarRow) : List (Fin 16) := r.d.toList ++ r.a.toList ++ r.b.toList

/-- Tags and lengths in a bank, and the write permission of a register that receives (13:R292, R293). -/
def FarRow.ok (r : FarRow) (e : VEnv) (x : Bank) : Bool :=
  (r.d.toList ++ r.a.toList).all (fun k => r.tags (x.w[k]).tag && fits e (8 * r.bytes)) &&
    r.b.toList.all (fun k => ((x.w[k]).tag == 0 || isIntTag (x.w[k]).tag) && fits e (ownWidth x k (cfgWidth e.ctx.vlcfg))) &&
    (!r.ret || r.d.toList.all (mayWrite e x))

/-- An element of a far operation: bank, index, address, wa's tag, its value, what it is compared with. -/
structure FarEl where
  bank : Nat
  n : Nat
  pa : Nat
  tag : BitVec 4
  v : Nat
  c : Nat

/-- The active elements, bank by bank in ascending index. -/
def FarRow.elements (r : FarRow) (s : State) (e : VEnv) (pa : Nat → Nat → Nat) : List FarEl :=
  e.banks.flatMap (fun q =>
    let x := s.bank q.2
    let el (k : Option (Fin 16)) (n : Nat) : Nat := match k with | some k => rowEl x k (8 * r.bytes) n | none => 0
    ((List.range e.live).filter (activeAt e x r.m (8 * r.bytes))).map (fun n =>
      ⟨q.2, n, pa q.2 n, match r.a with | some k => (x.w[k]).tag | none => 0, el r.a n, if r.cmp then el r.d n else 0⟩))

/-- The bytes of a memory from an address on. -/
def wordOf (m : Nat → Byte) (a : Nat) : Nat → Nat
  | 0 => 0
  | n + 1 => (m a).toNat + 2 ^ 8 * wordOf m (a + 1) n

/-- Memory, old values and flags after elements have been applied one by one (12:R275). -/
structure FarAcc where
  mem : Nat → Byte
  olds : List (FarEl × Nat × BitVec 5)

def FarRow.apply (r : FarRow) (z : FarAcc) (el : FarEl) : FarAcc :=
  let old := wordOf z.mem el.pa r.bytes
  let v := farNew r.op el.tag r.bytes old el.v el.c
  ⟨fun a => if el.pa ≤ a ∧ a < el.pa + r.bytes then BitVec.ofNat 8 (v.1 / 2 ^ (8 * (a - el.pa))) else z.mem a, z.olds ++ [(el, old, v.2)]⟩

/-- Every active element reaches an unpoisoned word of a DRAM row that none of the instruction's own registers is bound to, through a cached translation whose
dirty bit for it is set where it writes (13:R294). -/
structure FarReaches (s : State) (e : VEnv) (r : FarRow) (x : Nat → Nat → Xlat) (pa : Nat → Nat → Nat) : Prop where
  residue : ∀ q ∈ e.banks, addressResidueOk ((s.bank q.2).getX r.x) 0
  reach : ∀ q ∈ e.banks, ∀ n, activeAt e (s.bank q.2) r.m (8 * r.bytes) n = true →
    Reaches s (s.rowAsker q.2) (farVa r e (s.bank q.2) n) r.bytes r.need s (x q.2 n) (pa q.2 n) ∧ (x q.2 n).bit 9 = false ∧ windowOf (pa q.2 n) = .dram ∧
    poisonIn s (pa q.2 n) = false ∧ (r.load = false → r.nr = false → (x q.2 n).bit (48 + pa q.2 n / 4096 % 16) = true)
  outside : ∀ q ∈ e.banks, ∀ n, activeAt e (s.bank q.2) r.m (8 * r.bytes) n = true → ∀ o ∈ e.banks, ∀ k ∈ r.regs,
    isBound (s.bank o.2).w[k] = true → pa q.2 n / 2 ^ 11 ≠ rowAddr o.2 k.val ((s.bank o.2).w[k]).prow.toNat / 2 ^ 11

/-- An address lies in a row that a register of an executing bank is bound to. -/
def inRowOf (s : State) (e : VEnv) (d : Option (Fin 16)) (a : Nat) : Prop :=
  ∃ o ∈ e.banks, ∃ k ∈ d.toList, isBound (s.bank o.2).w[k] = true ∧ a / 2 ^ 11 = rowAddr o.2 k.val ((s.bank o.2).w[k]).prow.toNat / 2 ^ 11

/-- An element as it is posted (12:R276): the thread, the instruction (by the counter of free values) and the bank it comes from, its address with the leaf
whose dirty bit it will set, its operation and values. -/
def farPosted (s : State) (r : FarRow) (x : Nat → Nat → Xlat) (el : FarEl) : Posted where
  thread := s.tid
  group := s.tick
  bank := el.bank
  pa := el.pa
  leaf := ⟨some (x el.bank el.n).leafAddr, !(x el.bank el.n).bit (48 + el.pa / 4096 % 16)⟩
  bytes := r.bytes
  op := r.op
  v := BitVec.ofNat 64 el.v
  c := BitVec.ofNat 64 el.c
  fmt := el.tag
  applied := false
  flags := 0
  lost := false

/-! ### Walks, controllers, far elements in flight -/

/-- The levels of a walk above level n (19:R414, R415, R418): `t m` is the table of level m, the root being that of level 3; every entry taken above level
n is a valid pointer to the next table, read from populated DRAM and not poisoned; no walker cache holds an entry of the address space. -/
structure WalkDown (s : State) (root : Word) (page : Nat) (t : Nat → Nat) (n : Nat) : Prop where
  root_ : t 3 = root.toNat ∧ root.toNat % 2 ^ 12 = 0 ∧ root.toNat < 2 ^ 42
  level : n ≤ 3
  tables : ∀ m, n < m → m ≤ 3 → windowOf (t m) = .dram ∧ populated s (t m) = true ∧ Undisturbed s (t m + 8 * (page / 2 ^ (9 * m) % 512)) ∧
    poisonIn s (t m + 8 * (page / 2 ^ (9 * m) % 512)) = false
  unheld : ∀ p ∈ s.ptrs, p.root ≠ root
  entries : ∀ m, n < m → m ≤ 3 →
    let e := bytesIn s (t m + 8 * (page / 2 ^ (9 * m) % 512)) 8
    e % 2 = 1 ∧ e / 2 % 2 = 0 ∧ e / 4 % 2 ^ 10 = 0 ∧ e < 2 ^ 42 ∧ t (m - 1) = e / 2 ^ 12 % 2 ^ 30 * 2 ^ 12

/-- The entry of level n that a walk reads. -/
def walkEntry (s : State) (page : Nat) (t : Nat → Nat) (n : Nat) : Nat := bytesIn s (t n + 8 * (page / 2 ^ (9 * n) % 512)) 8

/-- The table of level n can be read, and its entry is not poisoned. -/
def tableReadable (s : State) (page : Nat) (t : Nat → Nat) (n : Nat) : Prop :=
  windowOf (t n) = .dram ∧ populated s (t n) = true ∧ Undisturbed s (t n + 8 * (page / 2 ^ (9 * n) % 512)) ∧ poisonIn s (t n + 8 * (page / 2 ^ (9 * n) % 512)) = false

/-- A leaf entry is valid: V and LEAF, reserved bits zero (19:R416, R418). -/
def validLeaf (e : Nat) : Prop := e % 4 = 3 ∧ e / 2 ^ 11 % 2 ^ 5 = 0 ∧ e / 2 ^ 42 % 2 ^ 6 = 0

/-- One bank of a state changed. -/
def withBank (s : State) (b : Nat) (g : Bank → Bank) : State := s.setBank b (g (s.bank b))

/-- Nothing but bank b of a state has changed, and it is now y. -/
def onlyBank (s t : State) (b : Nat) (y : Bank) : Prop := t = { s with banks := t.banks } ∧ t.bank b = y ∧ ∀ c, c ≠ b → t.bank c = s.bank c

/-- What the commit of a write-back leaves of its register's state: clean where no write reached the latch since its start, held where a precharge or an
unbinding follows (04:R84, R85). -/
def afterCommit (p : PendWb) (x : WState) : WState :=
  let y : WState := if p.live then (match x with | .openDirty => .openClean | .heldDirty => .heldClean | z => z) else x
  if p.act = 0 then y else (match y with | .openClean => .heldClean | .openDirty => .heldDirty | z => z)

/-- Spare rows of group g that are in use (03:R71, R72). -/
def sparesTaken (x : Bank) (g : Nat) : Nat :=
  (x.repairs.filter (fun e => e.1 / 2 ^ 12 == g)).length + (x.xgroup.filter (fun e => e.2 / 24 == g)).length

/-- A repair mapping that has been added waits for the write-back of a bound row, or for the copy of an unbound one (03:R74). -/
def repairWaits (x : Bank) (k : Fin 16) (row : Nat) : Bank :=
  if isBound x.w[k] = true ∧ (x.w[k]).prow.toNat = row then { x with pendRepair := setInsert x.pendRepair (k.val * 2 ^ 12 + row) }
  else { x with copying := setInsert x.copying (k.val * 2 ^ 12 + row) }

/-- A lane group's suspect score has reached 3 and it is in service (21:R458). -/
def suspected (x : Bank) (g : Nat) : Bool :=
  decide (3 ≤ (x.blames.filter (fun e => decide (e.1 = g ∧ x.count < e.2 + 2 ^ 20))).length) && !x.quarantined.contains g

/-- The older posted element q must be applied before p (14:R310, R312): from the same bank to the same bank, or of the same thread to the same word. -/
def comesBefore (q p : Posted) : Prop :=
  q.thread = p.thread ∧ ((q.bank = p.bank ∧ q.pa / 2 ^ 27 = p.pa / 2 ^ 27) ∨ q.pa / 8 = p.pa / 8)

/-- A posted element's target: aligned and populated, undisturbed, apart from the leaf entry it marks. -/
structure Lands (s : State) (p : Posted) : Prop where
  size : p.bytes = 1 ∨ p.bytes = 2 ∨ p.bytes = 4 ∨ p.bytes = 8
  aligned : p.pa % p.bytes = 0
  present : ∀ i < p.bytes, populated s (p.pa + i) = true
  window : windowOf p.pa ≠ .control
  still : Undisturbed s p.pa
  apart_ : leafApart s p.leaf.due p.pa p.bytes

/-! ### Engine queues -/

/-- Queue q of a stack runs command r, and holds no result back. -/
def runs (s : State) (st : Fin 32) (q : Fin 64) (r : Running) : Prop := (engineOf s st.val q).run = some r ∧ (engineOf s st.val q).held = none

/-- The running command of a queue replaced. -/
def withRun (s : State) (st : Fin 32) (q : Fin 64) (r : Option Running) : State :=
  let e : EngQ := { engineOf s st.val q with run := r }
  withStack s st.val (fun k => { k with engines := k.engines.set q e })

/-- Operand n of a command (12:R278). -/
def operand (r : Running) (n : Nat) : Word := (r.ops[n]?).getD 0

/-- The length of a remote command (23:R484). -/
def lengthOf (r : Running) : Nat := if r.op = 3 then (operand r 2).toNat else fieldOf (operand r 2) 40 0

/-- A command that ends with a status; it completes at its completion step. The part-step at the end of a remote command counts under OK alone
(12:R280). -/
def ends (r : Running) (c : BitVec 8) : Running :=
  { r with status := some c, done := if c ≠ 1 ∧ 2 ≤ r.op.toNat ∧ r.op.toNat ≤ 4 then min r.done (lengthOf r / 4096) else r.done }

/-- The n bytes of a unit from virtual address va on lie in pages that are translated, permitted, outside the control window and bank-private pages,
populated, undisturbed; byte i at physical address `(x i).base + (va + i) mod 2^16` (12:R279, 19:R419, R420). -/
structure UnitRange (s : State) (st : Nat) (own : QOwner) (va n : Nat) (write : Bool) (x : Nat → Xlat) : Prop where
  range : va + n ≤ 2 ^ 52
  reach : ∀ i < n, translate s (unitAsker st) own.root (va + i) = (s, .found (x i)) ∧ (x i).base % 2 ^ 16 = 0 ∧ (own.level = .user → (x i).bit 5 = true) ∧
    (x i).bit (if write then 3 else 2) = true ∧ (x i).bit 9 = false
  present : ∀ i < n, let pa := (x i).base + (va + i) % 2 ^ 16
    windowOf pa ≠ .control ∧ populated s pa = true ∧ Undisturbed s pa ∧ (s.bank (pa / 2 ^ 27)).lines.length + 128 ≤ 256 * (s.bank (pa / 2 ^ 27)).cacheWays
  dirtied : write = true → ∀ i < n, (x i).bit (48 + ((x i).base + (va + i) % 2 ^ 16) / 2 ^ 12 % 16) = true

/-- The physical address of byte i. -/
def unitPa (x : Nat → Xlat) (va i : Nat) : Nat := (x i).base + (va + i) % 2 ^ 16

/-- Range bytes hold no poison. -/
def unpoisoned (s : State) (x : Nat → Xlat) (va n : Nat) : Prop := ∀ i < n, poisonIn s (unitPa x va i) = false

/-- The bytes of a range. -/
def bytesOf (s : State) (x : Nat → Xlat) (va n : Nat) : List Byte := (List.range n).map (fun i => byteIn s (unitPa x va i))

/-- The n bytes from virtual address va on now hold `v i`, distinct bytes of memory, and every other populated byte is as before. -/
def written (s t : State) (x : Nat → Xlat) (va n : Nat) (v : Nat → Byte) : Prop :=
  (∀ i < n, byteIn t (unitPa x va i) = v i) ∧
  ∀ a, populated s a = true → (∀ i < n, placeOf s a ≠ placeOf s (unitPa x va i)) → byteIn t a = byteIn s a

/-- Where a piece of a copy that starts at byte pos of a range ends: about 4,096 bytes on with a whole destination word, or at the range's end (14:R324). -/
def pieceStop (dst pos len : Nat) : Nat := if len ≤ pos + 4096 then len else pos + 4096 - (dst + pos + 4096) % 8

/-- How far the source is read for a piece that ends at `stop`: to the end of the word that holds its last byte (14:R323). -/
def readStop (src stop len : Nat) : Nat := min len (stop + (8 - (src + stop) % 8) % 8)

/-- What a piece from byte pos on has of its source: the bytes kept from the word read last, then those from there up to byte `upto` (14:R323). -/
def pieceBytes (s : State) (r : Running) (x : Nat → Xlat) (src pos upto : Nat) : List Byte :=
  r.carry.map (fun c => c.1) ++ bytesOf s x (src + pos + r.carry.length) (upto - pos - r.carry.length)

/-- The source of a piece can be read: the bytes kept and those to read hold no poison. -/
structure PieceSource (s : State) (st : Nat) (r : Running) (src pos upto : Nat) (x : Nat → Xlat) : Prop where
  kept : ∀ c ∈ r.carry, c.2 = false
  reach : UnitRange s st r.own (src + pos + r.carry.length) (upto - pos - r.carry.length) false x
  clean : unpoisoned s x (src + pos + r.carry.length) (upto - pos - r.carry.length)

/-- Bytes kept for the next piece. -/
def keptOf (l : List Byte) : List (Byte × Bool) := l.map (fun b => (b, false))

/-- A range names distinct bytes of memory. -/
def distinct (s : State) (x : Nat → Xlat) (va n : Nat) : Prop :=
  ∀ i < n, ∀ j < n, placeOf s (unitPa x va i) = placeOf s (unitPa x va j) → i = j

/-- Byte i of a number, little-endian (00:R7). -/
def byteAt (v i : Nat) : Byte := BitVec.ofNat 8 (v / 2 ^ (8 * i))

/-- A result word (12:R280). -/
def resultOf (r : Running) (c : BitVec 8) : Word :=
  BitVec.ofNat 64 (c.toNat * 2 ^ 56 + fieldOf r.hdr 47 32 * 2 ^ 32 + min r.done (2 ^ 32 - 1))

/-- A thread that takes a result word in its queue's FIFO, with PENDq where the command asked for an interrupt (12:R281, R282). -/
def withResult (t : Thread) (q : Fin 64) (irq : Bool) (w : Word) : Thread :=
  let n : Fin 2 := ⟨q.val % 2, Nat.mod_lt _ (by decide)⟩
  let l := t.results[n] ++ [w]
  { t with results := t.results.set n l
           ui := { t.ui with pend0 := t.ui.pend0 || (irq && q.val % 2 == 0), pend1 := t.ui.pend1 || (irq && q.val % 2 == 1) } }

/-- A register of an engine program's slot (12:R285). -/
def slotReg (s : State) (st : Fin 32) (r : Running) (off : Nat) : Word :=
  mapGetD ((mapGet (s.stack st.val).gel (fieldOf (operand r 0) 5 0)).getD []) off 0

/-- The operand word m of a program's current step, with its parameter added in where it names one (12:R285). -/
def stepValue (s : State) (st : Fin 32) (r : Running) (m : Nat) : Nat :=
  let w := slotReg s st r (0x40 + 64 * r.done + 8 + 8 * m)
  let k := fieldOf w 62 60
  if w.getLsbD 63 then
    ((if k + 1 < r.ops.length then operand r (k + 1) else slotReg s st r (8 + 8 * k)) + BitVec.ofInt 64 (toSigned 60 (fieldOf w 59 0))).toNat
  else w.toNat

/-- The current step of a program is of a kind and keeps its layout: the operands past its own are zero, a parameter index is at most 5 (12:R285, R286). -/
def stepIs (s : State) (st : Fin 32) (r : Running) (kind arity : Nat) : Prop :=
  slotReg s st r (0x40 + 64 * r.done) = BitVec.ofNat 64 (kind * 2 ^ 56) ∧
  (∀ m < 7, arity ≤ m → slotReg s st r (0x40 + 64 * r.done + 8 + 8 * m) = 0) ∧
  ∀ m < arity, (slotReg s st r (0x40 + 64 * r.done + 8 + 8 * m)).getLsbD 63 = true →
    fieldOf (slotReg s st r (0x40 + 64 * r.done + 8 + 8 * m)) 62 60 ≤ 5

/-- A program that has finished a step: it goes on, or ends with OK after its last (12:R286). -/
def stepped (s : State) (st : Fin 32) (r : Running) : Running :=
  let r' : Running := { r with done := r.done + 1, pos := 0, carry := [] }
  if r.done + 1 = fieldOf (slotReg s st r 0) 7 0 then ends r' 1 else r'

/-- A program is installed for this part's engines and has steps left. -/
def programReady (s : State) (st : Fin 32) (r : Running) : Prop :=
  r.done < fieldOf (slotReg s st r 0) 7 0 ∧ mapGetD (s.stack st.val).gelRev (fieldOf (operand r 0) 5 0) 0x00010002 = 0x00010002

/-! ### Remote commands -/

/-- The number of 4,096-byte units of a remote command's range (12:R280, 23:R484). -/
def unitCount (r : Running) : Nat := (lengthOf r + 4095) / 4096

/-- PRECOPY with HARVEST: its units are the harvested ones (23:R486). -/
def harvests (r : Running) : Bool := decide (r.op = 3) && (operand r 4).getLsbD 4

/-- A unit is one of the command's. -/
def unitThere (r : Running) (u : Nat) : Bool := if harvests r then r.pages.contains u else decide (u < unitCount r)

/-- How far the first whole word of the remote range lies past a unit's start. -/
def unitSkew (r : Running) : Nat := (8 - fieldOf (operand r 1) 33 0 % 8) % 8

/-- The bytes of the range that the packet of unit u carries: the unit's, but a remote word that lies in two units goes whole with the earlier (14:R323, R324,
23:R485; the cut is the model's reading, log 76). -/
def unitStart (r : Running) (u : Nat) : Nat :=
  min (lengthOf r) (4096 * u + if u ≠ 0 ∧ unitThere r (u - 1) = true then unitSkew r else 0)
def unitEnd (r : Running) (u : Nat) : Nat := if unitThere r (u + 1) then unitStart r (u + 1) else min (lengthOf r) (4096 * (u + 1))

/-- The packets with bytes of its range that a command sends or asks for. -/
def packetCount (r : Running) : Nat :=
  if harvests r then r.pages.length else if lengthOf r = 0 then 0 else max 1 ((lengthOf r - unitSkew r + 4095) / 4096)

/-- Packet number i of a running command, about bytes [off, off + len) of its range: node, export and offset from operand 1, tag and key slot from operands 2
and 4 (23:R484-R487). -/
def packetFor (s : State) (st : Fin 32) (q : Fin 64) (r : Running) (kind : PacketKind) (i off len : Nat) (data : List Byte) : Packet :=
  { kind := kind, node := fieldOf (operand r 1) 59 40, src := fieldOf s.nodecfg 19 0, cmd := (r.id * 32 + st.val) * 64 + q.val, unit := i,
    exp := ⟨fieldOf (operand r 1) 39 34 % 64, Nat.mod_lt _ (by decide)⟩, off := fieldOf (operand r 1) 33 0 + off, len := len, data := data,
    tag := idx16 (fieldOf (operand r 2) 59 56), slot := idx16 (fieldOf (operand r 4) 3 0), poison := [], refused := false, ok := true }

/-- An acknowledgement answers packet i of a running command: the one that the acknowledgement names, else the oldest that waits (23:R488; log 76). -/
def answers (s : State) (st : Fin 32) (q : Fin 64) (r : Running) (i : Nat) : Prop :=
  (s.ackFor = some ((r.id * 32 + st.val) * 64 + q.val, i) ∨ (s.ackFor = none ∧ i = ackedPrefix r.acked)) ∧ i < r.sent ∧ i ∉ r.acked

/-- DONE of a command whose packets in `r.acked` have been acknowledged: whole units from the start of the range, with HARVEST the units copied (12:R280). -/
def ackedUnits (r : Running) : Nat := if harvests r then r.acked.length else min (ackedPrefix r.acked) (unitCount r)

/-- A running command with packet i acknowledged. -/
def acked (r : Running) (i : Nat) : Running :=
  let r' : Running := { r with acked := setInsert r.acked i }
  if r'.acked.length = packetCount r + (if r.op = 4 then 1 else 0) then ends { r' with done := if harvests r then r.pages.length else unitCount r } 1
  else { r' with done := ackedUnits r' }

/-- The completion word of a launch (16:R370). -/
def completionWord (l : Launch) : Word :=
  BitVec.ofNat 64 ((if l.status = 0 then 1 else l.status.toNat) * 2 ^ 56 + (if l.status = 0 then 0 else l.failTask % 2 ^ 17) * 2 ^ 39 +
    l.ended % 2 ^ 18 * 2 ^ 16 + b2n l.ploss * 2 ^ 8 + l.flags.toNat)

/-- A state that has sent a packet. -/
def sent (s : State) (p : Packet) : State := { s with outbox := s.outbox ++ [p] }

/-- Some port reaches a node: a peer-link port a node of this domain, an Ultra Ethernet port any other (23:R481). -/
def routed (s : State) (node : Nat) : Bool :=
  if node / 2 ^ 8 = fieldOf s.nodecfg 19 8 then (List.range 48).any (fun p => !s.ports.contains p)
  else (List.range 16).any (fun p => !s.ports.contains (48 + p))

/-- A state that has sent a packet of a running command, where a port reaches its node (23:R481, R488). -/
def sentOut (s : State) (p : Packet) : State := if routed s p.node then sent s p else s

/-- The kind of packet in which a command sends the bytes of its range, and the unit that goes next (23:R485-R487): with HARVEST the next harvested one. -/
def pushes (r : Running) : Option (PacketKind × Nat) :=
  if r.op = 2 ∧ (operand r 2).getLsbD 63 = false ∧ r.sent < packetCount r then some (.write, r.sent)
  else if r.op = 3 ∧ harvests r = false ∧ r.sent < packetCount r then some (.precopy, r.sent)
  else if harvests r = true ∧ r.pos ≠ 0 then (r.pages[r.sent]?).map (fun u => (.precopy, u))
  else if r.op = 4 ∧ r.sent < packetCount r then some (.coll, r.sent)
  else none

/-- The instruction that works on a remote command (23:R485-R487). -/
noncomputable def remoteStep (r : Running) (st : Fin 32) (q : Fin 64) : Instr := if r.op = 2 then .copyNode st q else if r.op = 3 then .precopy st q else .coll st q

/-- The owner under which an export's accesses run: the root in the context table's entry, in the stack that the export names (23:R483; user level: log 16). -/
def exportRoot (s : State) (e : Export) : QOwner :=
  let st := fieldOf e.w0 12 8
  ⟨⟨st, 0, 0⟩, BitVec.ofNat 64 (bytesIn s ((s.stack st).ctxbase.toNat + 256 * fieldOf e.w0 7 0) 8), .user⟩

/-- The context table's entry of an export can be read. -/
def exportTable (s : State) (e : Export) : Prop :=
  let a := (s.stack (fieldOf e.w0 12 8)).ctxbase.toNat + 256 * fieldOf e.w0 7 0
  a % 8 = 0 ∧ ∀ i < 256, windowOf (a + i) = .dram ∧ Undisturbed s (a + i)

/-- An export admits a packet: VALID, the bytes in range, the permissions its kind needs, a stack in service (23:R483, R484). -/
def admits (s : State) (e : Export) (p : Packet) : Prop :=
  e.w0.getLsbD 63 = true ∧ p.off + (if p.kind = .flag then 8 else p.len) ≤ e.size.toNat ∧ (s.stack (fieldOf e.w0 12 8)).excluded = false ∧
  (p.kind = .read ∨ p.kind = .coll → e.w0.getLsbD 61 = true) ∧ (p.kind ≠ .read → e.w0.getLsbD 62 = true)

/-- The answer to a packet: back to where it came from, with its command and number (23:R484, R488). -/
def answerTo (s : State) (p : Packet) : Packet :=
  { p with node := p.src, src := fieldOf s.nodecfg 19 0, data := [], poison := [], refused := false, ok := true }

/-- The element format of a COLL packet is one that COLL takes (23:R484). -/
def collFormat (p : Packet) : Prop := p.tag = 4 ∨ p.tag = 5 ∨ p.tag = 10 ∨ p.tag = 11 ∨ p.tag = 12

/-- The bytes that a packet brings: its own, or those a PRECOPY's key decrypts (23:R486). -/
def brings (s : State) (p : Packet) : Option (List Byte) :=
  match p.kind with
  | .write => some p.data
  | .precopy => match s.keys[p.slot] with | some k => Config.decryptUnit k p.data | none => none
  | _ => none

/-! ### Launches and the scheduler -/

/-- The count of a spatial loop kind of a kernel: a constant, an argument, or what the absent entry stands for (16:R357). -/
def spatialCount (k : Kernel) (r : LaunchRec) (kind absent : Nat) : Nat :=
  match k.loops.find? (fun e => e.1 == kind) with
  | none => absent
  | some (_, 0, v) => v
  | some (_, _, v) => ((r.args.toList[v]?).getD 0).toNat

/-- A record can be turned into tasks on the stacks of `dests`, one for each stack index (16:R357, 18:R403): its kernel is registered, the counts are in
range, every stack has a frond of enough banks. -/
structure Expandable (s : State) (st : Nat) (r : LaunchRec) (k : Kernel) (dests : List Nat) : Prop where
  kernel : s.kernels.find? (fun x => decide (x.root = r.root ∧ x.handle = r.kernel)) = some k
  stackCount : 1 ≤ dests.length ∧ dests.length = spatialCount k r 3 1 ∧ dests.length ≤ 32
  fronds : 1 ≤ spatialCount k r 2 1 ∧ spatialCount k r 2 1 ≤ 2 ^ 12
  banks : spatialCount k r 1 k.need ≤ 2 ^ 6
  upward : dests = (((List.range 32).map (fun i => (st + i) % 32)).filter (fun n => (s.stack n).excluded = false)).take dests.length
  serve : ∀ d ∈ dests, ∃ f ∈ (s.stack d).fronds, k.need ≤ f.nbanks
  fresh : ∀ l ∈ (s.stack st).table, l.id < (s.stack st).nextLaunch

/-- What the expansion leaves (16:R357, R358, 18:R403): an entry of the launch table, eligible where the record has no DEPWORD, and a waiting task for every
pair of a stack index and a frond index, numbered a × F + b, in the stack of its index. -/
def expanded (s t : State) (st : Nat) (r : LaunchRec) (k : Kernel) (dests : List Nat) : Prop :=
  let ns := dests.length
  let nf := spatialCount k r 2 1
  let nb := spatialCount k r 1 k.need
  (t.stack st).nextLaunch = (s.stack st).nextLaunch + 1 ∧
  (∃ l : Launch, t.getLaunch st (s.stack st).nextLaunch = some l ∧ l.rcd = r ∧ l.ns = ns ∧ l.nf = nf ∧ l.nb = nb ∧ l.need = k.need ∧ l.entry = k.entry ∧
    l.eligible = decide (r.dep = 0) ∧ l.finished = 0 ∧ l.status = 0 ∧ l.started = false) ∧
  ∀ a d, dests[a]? = some d → ∀ b < nf, ∃ w ∈ (t.stack d).waiting, w.info.id = ⟨st, (s.stack st).nextLaunch, a * nf + b⟩ ∧ w.info.prio = r.prio ∧
    w.info.root = r.root ∧ w.fresh = some ⟨r, a, b, ns * nf, nb, k.entry, k.nargs⟩ ∧ w.hold = false

/-- A thread can take the only waiting task of its stack, a fresh one (01:R32, 18:R404, R406, R412, 19:R423): the launch is eligible, the launch unit, the
scheduler and a walker run, the thread is unparked and free as is the other of its front end, which has not failed; the frond is bound with enough banks, each
with a free save slot and none being moved. -/
structure Takes (s : State) (st th : Nat) (w : Waiting) (f : Fresh) (l : Launch) (d : Frond) : Prop where
  only : (s.stack st).waiting = [w]
  task : w.fresh = some f ∧ w.saved = none ∧ w.hold = false ∧ w.reserved = none
  launch : s.getLaunch w.info.id.stack w.info.id.launch = some l ∧ l.eligible = true ∧ l.failed = false
  column : ((s.stack st).cols[0]).state ≠ .stopped ∧ ((s.stack st).cols[1]).state ≠ .stopped ∧ (s.stack st).excluded = false
  walker : ∃ c : Fin 6, 2 ≤ c.val ∧ ((s.stack st).cols[c]).state ≠ .stopped
  works : (s.stack st).failedFe.getLsbD (th / 2) = false
  thread : th < 40 ∧ (s.stack st).park.getLsbD th = false ∧ ∀ c < 2, (s.thread (st * 40 + 2 * (th / 2) + c)).task = none
  frond : (s.stack st).frond (th / 2) = some d
  banks : 1 ≤ w.info.need ∧ w.info.need ≤ (banksOf s st (th / 2)).length ∧
    ∀ b ∈ banksOf s st (th / 2), (s.bank b).moving = false ∧ ((s.bank b).slots[0] = none ∨ (s.bank b).slots[1] = none)

/-- What a fresh task finds on its thread and in its banks (16:R358, R359, 18:R406): PREF banks where the frond has them, else what it has, from the thread's
end of the frond; arguments, indices, task number and total in s1-s20; every register of its banks reset, x1 holding the bank's number in the range. -/
def startedOn (s t : State) (st th : Nat) (w : Waiting) (f : Fresh) (gang : Bool) : Prop :=
  let v := t.thread (st * 40 + th)
  let banks := banksOf s st (th / 2)
  let count := min banks.length (max w.info.pref w.info.need)
  let base := if th % 2 = 0 then 0 else banks.length - count
  (v.task.map (fun i => i.id)) = some w.info.id ∧ v.cond = (if gang then .ready false else .running) ∧ v.level = .user ∧ v.front.pc = f.entry ∧
  v.bpart = ⟨BitVec.ofNat 8 count, BitVec.ofNat 8 w.info.need, BitVec.ofNat 8 count, BitVec.ofNat 8 base⟩ ∧
  v.bmask = BitVec.ofNat 64 ((2 ^ f.nb - 1) * 2 ^ base) ∧ v.flags = 0 ∧ v.queue = [] ∧
  (∀ i : Fin 64, v.sregs[i] = formed (
    if 1 ≤ i.val ∧ i.val ≤ 16 then (if i.val ≤ f.nargs then (f.rcd.args.toList[i.val - 1]?).getD 0 else 0)
    else if i.val = 17 then BitVec.ofNat 64 f.a else if i.val = 18 then BitVec.ofNat 64 f.b
    else if i.val = 19 then BitVec.ofNat 64 w.info.id.num else if i.val = 20 then BitVec.ofNat 64 f.total else 0)) ∧
  (t.stack st).waiting = [] ∧
  ∀ j, base ≤ j → j < base + count → ∀ b, banks[j]? = some b →
    (∀ k : Fin 16, ((t.bank b).w[k]).state = .free ∧ ((t.bank b).w[k]).tag = 0 ∧ ((t.bank b).w[k]).latch = 0 ∧ ((t.bank b).m[k]) = 0) ∧
    (∀ k : Fin 4, ((t.bank b).t[k]) = 0 ∧ ((t.bank b).q[k]) = 0) ∧ (t.bank b).flags = 0 ∧
    (∀ k : Fin 32, (t.bank b).x[k] = formed (if k = 1 then BitVec.ofNat 64 (j - base) else 0)) ∧
    (t.bank b).lfsr = (let l : BitVec 32 := 1 ^^^ BitVec.ofNat 32 (j * 2 ^ 24)
                       if l = 0 then 1 else l)

/-- A task has left its thread and waits in its stack as a saved one, each of its banks in a save slot (20:R438-R443). -/
def savedAway (s t : State) (st th : Nat) (i : TaskInfo) (hold : Bool) : Prop :=
  t.thread (st * 40 + th) = Thread.reset ∧ ∃ w ∈ (t.stack st).waiting, w.info = i ∧ w.hold = hold ∧ w.fresh = none ∧ ∃ z, w.saved = some z ∧
    z.hard = true ∧ z.thread.sregs = (s.thread (st * 40 + th)).sregs ∧ z.thread.queue = (s.thread (st * 40 + th)).queue ∧
    z.map.map (fun p => p.1) = (ownedBy s st th).map (fun q => q.2) ∧
    ∀ p ∈ z.map, ∃ h : p.2 < 2, ∃ y, (t.bank p.1).slots[p.2] = some y ∧ y.m = (s.bank p.1).m ∧ y.x = (s.bank p.1).x ∧ y.t = (s.bank p.1).t ∧
      y.q = (s.bank p.1).q ∧ y.lfsr = (s.bank p.1).lfsr ∧ y.flags = (s.bank p.1).flags ∧
      ∀ k : Fin 16, (t.bank p.1).w[k].state = .free

/-- A thread can take the only waiting task of its stack, a saved one (18:R406, 20:R442): the columns, the thread and its front end as for a fresh task; the
saved banks follow one another in the frond, in order, at the thread's end, and none is being moved; the host has written nothing into the record, and no saved
word is in error; the context table's entry can be read. -/
structure Restores (s : State) (st th : Nat) (w : Waiting) (z : SavedTask) (base : Nat) : Prop where
  only : (s.stack st).waiting = [w]
  task : w.saved = some z ∧ w.hold = false ∧ w.reserved = none ∧ w.info.gang = false ∧ z.thread.cond = .running
  launch : ∃ l, s.getLaunch w.info.id.stack w.info.id.launch = some l ∧ l.eligible = true ∧ l.failed = false
  column : ((s.stack st).cols[0]).state ≠ .stopped ∧ ((s.stack st).cols[1]).state ≠ .stopped ∧ (s.stack st).excluded = false
  walker : ∃ c : Fin 6, 2 ≤ c.val ∧ ((s.stack st).cols[c]).state ≠ .stopped
  works : (s.stack st).failedFe.getLsbD (th / 2) = false
  thread : th < 40 ∧ (s.stack st).park.getLsbD th = false ∧ ∀ c < 2, (s.thread (st * 40 + 2 * (th / 2) + c)).task = none
  frond : ((s.stack st).frond (th / 2)).isSome = true ∧ (s.stack st).slotOf (th / 2) < 16
  place : z.map ≠ [] ∧ ((banksOf s st (th / 2)).drop base).take z.map.length = z.map.map (fun p => p.1) ∧
    (if th % 2 = 0 then base = 0 else base + z.map.length = (banksOf s st (th / 2)).length)
  slots : ∀ p ∈ z.map, (s.bank p.1).moving = false ∧ ∃ y, (s.bank p.1).slot p.2 = some y ∧ y.bad = false
  sector : mapGet (s.stack st).sectors (homeSector z.map) = none ∧ (s.stack st).sectorBad = [] ∧ s.upsets = []
  context : let a := (s.stack st).ctxbase.toNat + 256 * w.info.ctx.toNat
    a % 8 = 0 ∧ ∀ i < 256, windowOf (a + i) = .dram ∧ Undisturbed s (a + i)

/-- What a restored task finds (20:R442, 18:R402): its registers, its progress and its banks as they were saved, BANKVA of the frond's slot from the context
table, a register that was bound bound to the same row again, any other FREE with its tag. -/
def restoredOn (s t : State) (st th : Nat) (w : Waiting) (z : SavedTask) (base : Nat) : Prop :=
  let v := t.thread (st * 40 + th)
  let slot := (s.stack st).slotOf (th / 2)
  let va := fieldOf (BitVec.ofNat 64 (bytesIn s ((s.stack st).ctxbase.toNat + 256 * w.info.ctx.toNat + 8 * (4 + slot)) 8)) 51 27
  (v.task.map (fun i => i.id)) = some w.info.id ∧ v.cond = .running ∧ v.sregs = z.thread.sregs ∧ v.shadow = z.thread.shadow ∧
  v.front.pc = z.thread.front.pc ∧ v.front.vstart = z.thread.front.vstart ∧ v.queue = z.thread.queue ∧ v.flags = z.thread.flags ∧
  v.level = z.thread.level ∧ v.bankva.toNat = va ∧ v.bpart.base = BitVec.ofNat 8 base ∧ v.bpart.count = BitVec.ofNat 8 z.map.length ∧
  v.tr = z.thread.tr ∧ (t.stack st).waiting = [] ∧
  ∀ p ∈ z.map, ∀ y, (s.bank p.1).slot p.2 = some y →
    (t.bank p.1).slot p.2 = none ∧ (t.bank p.1).m = y.m ∧ (t.bank p.1).x = y.x ∧ (t.bank p.1).t = y.t ∧ (t.bank p.1).q = y.q ∧
    (t.bank p.1).lfsr = y.lfsr ∧ (t.bank p.1).flags = y.flags ∧ (t.bank p.1).ploss = y.ploss ∧
    ∀ k : Fin 16, ((t.bank p.1).w[k]).tag = (y.regs[k]).tag ∧
      ((y.regs[k]).state = .free → ((t.bank p.1).w[k]).state = .free ∧ ((t.bank p.1).w[k]).latch = (if z.hard then (y.regs[k]).latch else 0)) ∧
      ((y.regs[k]).state ≠ .free →
        isBound (t.bank p.1).w[k] = true ∧ ((t.bank p.1).w[k]).row = (y.regs[k]).row ∧ ((t.bank p.1).w[k]).prow = (y.regs[k]).prow)

/-- Every binding that a saved task records can be made again. -/
def bindingsHold (s : State) (st th : Nat) (w : Waiting) (z : SavedTask) (base : Nat) : Prop :=
  let slot := (s.stack st).slotOf (th / 2)
  let va := fieldOf (BitVec.ofNat 64 (bytesIn s ((s.stack st).ctxbase.toNat + 256 * w.info.ctx.toNat + 8 * (4 + slot)) 8)) 51 27
  ∀ n p, z.map[n]? = some p → ∀ y, (s.bank p.1).slot p.2 = some y → ∀ k : Fin 16, (y.regs[k]).state ≠ .free → ∃ x,
    let at_ := (va + base + n) * 2 ^ 27 + k.val * 2 ^ 23 + (y.regs[k]).row.toNat * 2 ^ 11
    translate s ⟨st, .row p.1, slot⟩ w.info.root at_ = (s, .found x) ∧ x.pa at_ = rowAddr p.1 k.val (y.regs[k]).prow.toNat ∧
      x.bit 2 = true ∧ (z.thread.level = .user → x.bit 5 = true)

/-- The banks of a thread have free save slots (20:R441), nothing of it is in flight, and it owes no resumed instruction an element (16:R371). -/
def saveable (s : State) (st th : Nat) : Prop :=
  let v := s.thread (st * 40 + th)
  (∀ q ∈ ownedBy s st th, (s.bank q.2).slots[0] = none ∨ (s.bank q.2).slots[1] = none) ∧ (∀ p ∈ s.posted, p.thread ≠ st * 40 + th) ∧
  (∀ d ∈ s.stores, d.tid ≠ st * 40 + th) ∧ (v.queue ≠ [] → v.front.owed = false) ∧ ∀ p ∈ v.bts, p.2.status = .running → p.2.front.owed = false

/-- A member of a launch that waits in a stack. -/
def memberWaits (s : State) (st id m : Nat) (w : Waiting) : Prop := w ∈ (s.stack m).waiting ∧ w.info.id.stack = st ∧ w.info.id.launch = id

/-! ### The module -/

/-- The little-endian number of n bytes at an offset. -/
def numAt (o : List Byte) (off n : Nat) : Nat := bytesToNat ((o.drop off).take n)

/-- A write list that keeps the layout of 22:R477: offset, filler and value of entry i; PHDR of at most 127 steps, STEPn.OP with its reserved bits zero. -/
def listOffset (l : List Byte) (i : Nat) : Nat := numAt l (16 + 16 * i) 4
def listValue (l : List Byte) (i : Nat) : Nat := numAt l (24 + 16 * i) 8

structure GoodList (l : List Byte) : Prop where
  revision : numAt l 0 4 = 0x00010002
  count : 1 ≤ numAt l 4 4 ∧ numAt l 4 4 ≤ 4096 ∧ l.length = 16 + 16 * numAt l 4 4
  reserved : numAt l 8 8 = 0 ∧ ∀ i < numAt l 4 4, numAt l (20 + 16 * i) 4 = 0
  offsets : ∀ i < numAt l 4 4, listOffset l i % 8 = 0 ∧ listOffset l i ≤ 0x1FF8 ∧ listOffset l i ≠ 0x38
  values : ∀ i < numAt l 4 4, (listOffset l i = 0 → listValue l i ≤ 127) ∧
    (0x40 ≤ listOffset l i → listOffset l i % 64 = 0 → listValue l i % 2 ^ 56 = 0)

/-- A main side that has just started its bring-up, with the standby side's keys, fuses and alarm record and the host's memory as they were (24:R492, R495,
R497, R500). -/
def mainStarts (s t : State) : Prop :=
  t.boot.on = true ∧ t.boot.ready = false ∧ t.boot.phase = 0 ∧ t.boot.fail = 0 ∧ t.boot.stkout = 0 ∧ t.thr = Thread.reset ∧ t.threads = [] ∧ t.dram = [] ∧
  t.keys = s.keys ∧ t.fuseCount = s.fuseCount ∧ t.fuses = s.fuses ∧ t.alarms = s.alarms ∧ t.hostMem = s.hostMem

/-- A stack without defects and manufacture pairs that nothing is bound in. -/
def cleanStack (s : State) (n : Nat) : Prop :=
  (s.stack n).excluded = false ∧ (s.stack n).fronds = [] ∧ (∀ d ∈ s.fuses.defective, d / 32 ≠ n) ∧
  (∀ p ∈ s.fuses.pairs, p.1 / 32 ≠ n ∧ p.2 / 32 ≠ n) ∧ ∀ b < 256, (s.bank (n * 256 + b)).retired = false

/-! ### Steps and reset -/

/-- The word of n bytes at virtual address va of the running control thread's code (15:R338, 19:R419, 22:R476): translated with X, with U at user level,
outside the control window and bank-private pages, populated, undisturbed, not poisoned; no page of the address space has a hash to keep. -/
structure CodeAt (s : State) (va : Nat) (x : Xlat) (w : Nat) : Prop where
  range : va + 4 ≤ 2 ^ 52 ∧ va % 4 = 0
  translated : translate s s.fetchAsker s.thr.root va = (s, .found x)
  shared : x.bit 9 = false
  base : x.base % 2 ^ 16 = 0
  user : s.thr.level = .user → x.bit 5 = true
  perm : x.bit 4 = true
  window : windowOf (x.base + va % 2 ^ 16) ≠ .control
  present : ∀ i < 4, populated s (x.base + va % 2 ^ 16 + i) = true
  still : Undisturbed s (x.base + va % 2 ^ 16)
  clean : poisonIn s (x.base + va % 2 ^ 16) = false
  unhashed : ∀ k ∈ s.kernels, k.root = s.thr.root → k.hashes = []
  word : w = bytesIn s (x.base + va % 2 ^ 16) 4

/-- The instruction whose bits stand at an address: one word, or two where bits [1:0] of the first are 11 (02:R33). -/
def InstrAt (s : State) (va : Nat) (i : Instr) : Prop :=
  ∃ x w, CodeAt s va x w ∧ (w % 4 ≠ 3 → decodeTableWord 32 w = some i) ∧
    (w % 4 = 3 → ∃ y v, CodeAt s (va + 4) y v ∧ decodeTableWord 64 (w + v * 2 ^ 32) = some i)

/-- A control thread at a boundary where nothing but its next instruction is due (20:R435): no input, no event, its vector side not waited for. -/
def AtBoundary (s : State) : Prop :=
  s.inputs = [] ∧ s.cur.bank = none ∧ s.vrun = false ∧ s.thr.cond = .running ∧ boundaryEvent s = none ∧ s.thr.drain = false

/-- What a step leaves of the answer of its instruction: a stop within an instruction is due for the one that runs only (13:R295, 16:R365). -/
def afterInstr : Out → Out
  | .next t => .next { t with cut := none, farStop := none }
  | o => o

/-- The instruction enters the issue queue behind others rather than run (14:R316, 16:R363). -/
def queues (s : State) (i : Instr) : Prop := s.thr.queue ≠ [] ∧ vectorSide i = true ∧ ∀ a b, i = .cinv a b → s.thr.level = .supervisor

end Sys2Proof.Claims

section

open Sys2Proof Sys2Proof.Machine Sys2Proof.Claims

/-- What the encoder writes, the decoder reads back, with every operand at every value its field admits (02:R33-R40): from the word alone, and
so of every instruction that has a word. -/
def Obligations.DecodeOfEncode : Prop :=
  ∀ i : Instr, i.hasWord = true → i.wf = true → decodeTableWord (8 * i.wordLen) (encode i) = some i

/-- The words that the manual writes out decode to the instructions they stand for. -/
def Obligations.KnownWordsDecode : Prop := ∀ p ∈ knownWords, decodeTableWord p.1 p.2.1 = some p.2.2

/-- An integer instruction writes the value and the residue of 15:R330-R333 and R354 into rd (nothing where rd is s0 or x0) and completes;
nothing else changes but the pc and the counts of completed instructions. -/
def Obligations.IntegerResults : Prop :=
  ∀ (s : State) (i : Instr) (d : Fin 64) (n : Nat) (v : SReg), integerResult s i = some (d, n, v) →
    exec i s = .next (complete n (s.setS d v))

/-- Where every operand carries the residue of its value, an integer instruction writes the residue of the value it writes: the prediction of
15:R354 and the value agree. -/
def Obligations.PredictedResiduesAgree : Prop :=
  ∀ (s : State) (i : Instr) (d : Fin 64) (n : Nat) (v : SReg), (∀ r, (s.getS r).res = rho (s.sval r)) →
    integerResult s i = some (d, n, v) → v.res = rho v.val

/-- A floating instruction writes the code of its rounded result into rd, raises its flags and completes (15:R334, R335): every operation in FP32
and FP64, on a control thread and in a bank thread, whatever the operands (NaN, infinity, zero, subnormal). A bank thread raises in its
bank's flags (the model's reading, log 12). -/
def Obligations.FloatResults : Prop :=
  ∀ (s : State) (i : Instr) (d : Fin 64) (r : Rounded), floatResult s i = some (d, r) →
    exec i s = .next (complete 4 ((floatRaise s r).setS d (formed (BitVec.ofNat 64 r.code))))

/-- A branch whose condition fails falls through; one whose condition holds goes to pc + 4 × off, leaving the loops that 15:R347 says; a target
that is no multiple of 4 takes the misaligned-target trap. No register changes. A jump writes pc + 4 into rd and goes to its target; with rd = s0 it is
plain and may leave loops, with any other rd it links and leaves none; one whose target is no multiple of 4, as a JREG's may be, traps and writes no register
(02:R34, 15:R343, R347). -/
def Obligations.BranchAndJumpResults : Prop :=
  (∀ (s : State) (i : Instr) (c : Bool) (off : Int), branchRow s i = some (c, off) →
    exec i s =
      if c = false then .next (complete 4 s)
      else if (target s off).toNat % 4 = 0 then .next ((s.setFront (s.front.jumpTo (target s off))).retire)
      else trap 0x03 (target s off) s) ∧
  ∀ (s : State) (i : Instr) (d : Fin 64) (t : Word), jumpRow s i = some (d, t) → jumpResidueOk s i →
    exec i s = if t.toNat % 4 = 0 then .next ((if d = 0 then s.setFront (s.front.jumpTo t)
        else (s.setS d (formed (s.front.pc + 4))).setFront { s.front with pc := t }).retire)
      else trap 0x03 t s

/-- LOOP (15:R345): an offset below 2, or an end address whose bits [51:32] are not those of pc + 4, makes the word an illegal instruction. Else a count
of 0 goes to the end address as if the body had run; any other count pushes a level, and the body follows. Overflow of the stack and improper nesting trap
with 1 and 2. LOOP writes no register. -/
def Obligations.LoopPushes : Prop :=
  (∀ (s : State) (c : Fin 64) (o : BitVec 19), Trapping s → o.toInt < 2 ∨ fieldOf (target s o.toInt) 51 32 ≠ fieldOf (s.front.pc + 4) 51 32 →
    exec (.loop c o) s = .next (entered s 0x01 (wordVal (.loop c o)) s.front.pc)) ∧
  ∀ (s : State) (c : Fin 64) (o : BitVec 19), 2 ≤ o.toInt → fieldOf (target s o.toInt) 51 32 = fieldOf (s.front.pc + 4) 51 32 →
    exec (.loop c o) s =
      let f := s.front
      let n := fieldOf (s.sval c) 31 0
      let e := target s o.toInt
      if n = 0 then .next ((s.setFront (f.fallTo e)).retire)
      else if f.depth = 4 then trap 0x0E 1 s
      else if f.depth ≠ 0 ∧ (topLevel f).startAddr ≤ f.pc.toNat ∧ f.pc.toNat < (topLevel f).endAddr ∧ (topLevel f).endAddr < e.toNat then trap 0x0E 2 s
      else
        let level : LoopLevel := ⟨BitVec.ofNat 32 n, BitVec.ofNat 30 (fieldOf e 31 2), true, BitVec.ofNat 50 (fieldOf (f.pc + 4) 51 2)⟩
        .next ((s.setFront { f with pc := f.pc + 4, loops := f.loops.set (lvl4 f.depth) level }).retire)

/-- What follows an instruction that completes without a taken branch (15:R346), with q the address after its last word, or the end address of a LOOP
with count 0: the instruction at q; or the start of the innermost body while passes are left there, a count of 0 being 1; or, where the level's last pass
ends, that level is ended and the test repeats for the next. -/
def Obligations.FallThroughLoops : Prop :=
  (∀ (f : Front) (q : Word),
    (f.depth = 0 ∨ q.toNat ≠ (topLevel f).endAddr → f.fallTo q = { f with pc := q }) ∧
    (f.depth ≠ 0 → q.toNat = (topLevel f).endAddr → 1 < (topLevel f).count.toNat →
      f.fallTo q = { f with pc := BitVec.ofNat 64 (topLevel f).startAddr,
                            loops := f.loops.set (lvl4 (f.depth - 1)) { topLevel f with count := (topLevel f).count - 1 } }) ∧
    (f.depth ≠ 0 → q.toNat = (topLevel f).endAddr → (topLevel f).count.toNat ≤ 1 → f.fallTo q = (dropLevel f).fallTo q)) ∧
  (∀ (n : Nat) (s : State), s.cur.bank = none → (complete n s).thr.front =
    let f := s.thr.front.fallTo (s.thr.front.pc + BitVec.ofNat 64 n)
    { f with instret := f.instret + 1 }) ∧
  ∀ (s : State) (c : Fin 64) (o : BitVec 19), 2 ≤ o.toInt → fieldOf (target s o.toInt) 51 32 = fieldOf (s.front.pc + 4) 51 32 →
    fieldOf (s.sval c) 31 0 = 0 → exec (.loop c o) s = .next ((s.setFront (s.front.fallTo (target s o.toInt))).retire)

/-- A taken branch, or a jump with rd = s0, ends the innermost level while it lies in its body and its target does not, tests the next, and stops at the
first level that it does not leave; a linking jump ends no level (15:R347). -/
def Obligations.JumpEndsLoops : Prop :=
  (∀ (f : Front) (t : Word),
    let inside (a : Word) : Prop := (topLevel f).startAddr ≤ a.toNat ∧ a.toNat < (topLevel f).endAddr
    (f.depth ≠ 0 ∧ inside f.pc ∧ ¬ inside t → f.jumpTo t = (dropLevel f).jumpTo t) ∧
    (¬ (f.depth ≠ 0 ∧ inside f.pc ∧ ¬ inside t) → f.jumpTo t = { f with pc := t })) ∧
  ∀ (s : State) (i : Instr), s.cur.bank = none →
    (∀ off, branchRow s i = some (true, off) → (target s off).toNat % 4 = 0 →
      ∃ t : State, exec i s = .next t ∧ t.thr.front.loops = (s.thr.front.jumpTo (target s off)).loops) ∧
    (∀ d a, jumpRow s i = some (d, a) → jumpResidueOk s i → a.toNat % 4 = 0 →
      ∃ t : State, exec i s = .next t ∧ t.thr.front.loops = if d = 0 then (s.thr.front.jumpTo a).loops else s.thr.front.loops)

/-- The software trap saves the next instruction's address, an illegal word its own, with their cause and value; the handler starts at supervisor
level at TRAPVEC; registers, flags and memory stay (17:R390, 02:R35, 20:R433, R435). A synchronous trap while BUSY is 1 is a double trap: the task leaves
its thread, kept for the host with the second cause and value, and its launch has failed (20:R437); where a bank of the task has no free save slot the trap
waits (the model's choice, log 111). -/
def Obligations.TrapEntry : Prop :=
  (∀ s : State, Trapping s →
    (∀ a, dataResidueOk (s.getS a) →
      exec (.trap a) s = .next (entered (s.setFront (s.front.fallTo (s.front.pc + 4))) 0x14 (s.sval a) (s.front.fallTo (s.front.pc + 4)).pc)) ∧
    (∀ bits, exec (.illegalInstruction bits) s = .next (entered s 0x01 bits s.front.pc)) ∧
    (∀ i, s.thr.level = .user → privileged i = true → i.wf = true → exec i s = .next (entered s 0x02 (wordVal i) s.front.pc))) ∧
  ∀ (s : State) (i : TaskInfo) (bits : Word), s.cur.bank = none → s.cur.th < 40 → s.thr.queue = [] → s.thr.tr.busy = true → s.thr.task = some i →
    (s.canSave s.tid = false → exec (.illegalInstruction bits) s = .next s) ∧
    (s.canSave s.tid = true → s.posted = [] → s.stores = [] → ∃ t : State, exec (.illegalInstruction bits) s = .next t ∧ t.thr.task = none ∧
      (∃ w ∈ (t.stack s.cur.st).waiting, w.info = i ∧ w.hold = true ∧ w.double = some (0x01, bits)) ∧
      (∀ l, t.getLaunch i.id.stack i.id.launch = some l → l.status ≠ 0))

/-- A bank thread stops where it traps, with the cause and value its control thread is to take; it counts as arrived at every barrier, and nothing else of the
state changes where none of its far elements is outstanding (16:R367, 17:R379): on an illegal word, on a scalar access that is misaligned or that its page
does not permit (15:R338). A trap raised while the vector side still holds instructions waits for them: the thread drains and nothing else changes (16:R363,
R366; the model's way of waiting, log 94). -/
def Obligations.TrapsThatWait : Prop :=
  (∀ (s : State) (j : Nat), s.cur.bank = some j → (∀ q ∈ s.posted, awaited s q = false) →
    let stopped (cause : BitVec 8) (val : Word) : State :=
      barriersOpened (s.setBt j { s.bt j with status := .stopped ⟨cause, val, false, false⟩ })
    (∀ bits, exec (.illegalInstruction bits) s = .next (stopped 0x01 bits)) ∧
    ∀ (i : Instr) (a : Fin 64) (o : Word) (n : Nat) (need : Need), accessRow i = some (a, o, n, need) → addressResidueOk (s.getS a) o → dataOperandsOk s i →
      (s.sval a + o).toNat < 2 ^ 52 →
      ((s.sval a + o).toNat % n ≠ 0 → exec i s = .next (stopped 0x05 (s.sval a + o))) ∧
      ((s.sval a + o).toNat % n = 0 → ∀ x c, translate s s.asker s.thr.root (s.sval a + o).toNat = (s, .found x) →
        missingBit x s.level need (x.base + (s.sval a + o).toNat % 2 ^ 16) = some c → exec i s = .next (stopped c (s.sval a + o)))) ∧
  ∀ (s : State) (a : Fin 64), s.cur.bank = none → s.thr.queue ≠ [] → dataResidueOk (s.getS a) →
    exec (.trap a) s = .next { s with thr := { s.thr with drain := true } } ∧
    exec (.fence 0) s = .next { s with thr := { s.thr with drain := true } }

/-- ERET at supervisor level goes back to the level in PPL and the address in TRAPPC and clears BUSY, and nothing else changes but the count of
completed instructions; with a resume list held, the list re-enters the queue with the progress registers and the scalar side issues from the held pc; with BT set
and the bank thread named stopped, that thread runs again from BPC while the control thread waits at SPLIT, and BT stays set (17:R391, 20:R436); a BPC that is
no multiple of 4 traps at the ERET (02:R34). A software trap and the ERET of its handler bring
the thread back to its level, at the next instruction, with its registers, flags and the memory as they were (20:R435, R436). -/
def Obligations.EretReturns : Prop :=
  (∀ s : State, s.cur.bank = none → s.vrun = false → s.thr.level = .supervisor →
    let none_ : Prop := s.thr.tr.bt = true → ∀ b t, mapGet s.thr.bts s.thr.tr.bank.toNat = some b → b.status ≠ .stopped t
    (s.thr.resume = [] → none_ → exec .eret s = .next (returned s).retire) ∧
    (∀ e l, s.thr.resume = e :: l → none_ →
      exec .eret s = .next { returned s with thr := { (returned s).thr with
        queue := s.thr.queue ++ { e with ctx := { e.ctx with vstart := s.thr.front.vstart },
                                         prog := some ⟨s.thr.front.vpoison, s.thr.front.sprog⟩ } :: l, resume := [],
        cond := if s.thr.handlers.headD none = some s.thr.heldPc then .splitWait else .running,
        front := { s.thr.front with pc := s.thr.heldPc, owed := true } } }.retire) ∧
    (s.thr.resume = [] → s.thr.tr.bt = true → ∀ b r, mapGet s.thr.bts s.thr.tr.bank.toNat = some b → b.status = .stopped r →
      (s.thr.tr.bpc.toNat % 4 = 0 → ∃ t : State, exec .eret s = .next t ∧ t.thr.cond = .splitWait ∧ t.thr.level = s.thr.tr.ppl ∧
        t.thr.tr = { s.thr.tr with busy := false } ∧
        (t.bt s.thr.tr.bank.toNat).status = .running ∧ (t.bt s.thr.tr.bank.toNat).front.pc.toNat = s.thr.tr.bpc.toNat) ∧
      (s.thr.tr.bpc.toNat % 4 ≠ 0 → exec .eret s = trap 0x03 (BitVec.ofNat 64 s.thr.tr.bpc.toNat) s))) ∧
  ∀ (s : State) (a : Fin 64), Trapping s → dataResidueOk (s.getS a) → s.thr.resume = [] → s.front.depth = 0 → s.front.pc.toNat + 4 < 2 ^ 52 →
    s.front.pc.toNat % 4 = 0 →
    ∃ t u, exec (.trap a) s = .next t ∧ exec .eret t = .next u ∧ u.thr.front.pc = s.thr.front.pc + 4 ∧ u.thr.level = s.thr.level ∧
      u.thr.sregs = s.thr.sregs ∧ u.thr.flags = s.thr.flags ∧ u.thr.handlers = s.thr.handlers ∧ u.banks = s.banks ∧ u.dram = s.dram ∧ u.thr.front.loops = s.thr.front.loops

/-- CRR writes the register's value, laid out as its map says, into rd and changes nothing else; CRW does so too and then writes the register
(15:R349, R350): each register of the map. CYCLE and the stall counters have grown by a free amount when they are read (15:R352, 16:R373; log 6). INSTRET reads
without the instruction that reads it, which then counts itself, after a CRW too (log 51). -/
def Obligations.ControlRegisterReads : Prop :=
  (∀ (s : State) (d a : Fin 64) (r : BitVec 12) (v : Word), plainCreg s r.toNat = some v →
    (cregOpen s r.toNat false → exec (.crr d r) s = .next (complete 4 (s.setS d (formed v)))) ∧
    (∀ t, cregOpen s r.toNat true → dataResidueOk (s.getS a) → writtenCreg s r.toNat (s.sval a) = some t →
      exec (.crw d a r) s = .next (complete 4 (t.setS d (formed v))))) ∧
  ∀ (s : State) (d a : Fin 64) (r : BitVec 12) (v : Word) (put : State → Word → State), timeCounter s r.toNat = some (v, put) →
    let now := v + Config.elapsed s.tick
    let u : State := { s with tick := s.tick + 1 }
    ((0x100 ≤ r.toNat → s.mustDrain = false) → exec (.crr d r) s = .next (complete 4 ((put u now).setS d (formed now)))) ∧
    (s.level = .supervisor → (0x100 ≤ r.toNat → s.mustDrain = false) → dataResidueOk (s.getS a) →
      exec (.crw d a r) s = .next (complete 4 ((put u (s.sval a)).setS d (formed now))))

/-- A load writes the bytes at its address into rd, sign- or zero-extended (15:R337, R339, R340), from wherever they are held: latch, crown line,
cells, scratch, host. Every byte of memory and every register beside rd stay. Holds for each load of 1, 2, 4 and 8 bytes and for ACQLD. At supervisor level
a load from the control window takes bytes of a register, and nothing else changes (03:R80, 18:R397). -/
def Obligations.LoadResults : Prop :=
  (∀ (s u : State) (i : Instr) (d a : Fin 64) (o : Word) (n : Nat) (sg : Bool) (x : Xlat) (pa : Nat), loadRow i = some (d, a, o, n, sg) →
    addressResidueOk (s.getS a) o → Reaches s s.asker (s.sval a + o) n ⟨true, false, false⟩ u x pa → poisonIn u pa = false →
    ∃ t : State, exec i s = .next (complete 4 (t.setS d (formed
        (if sg then BitVec.ofInt 64 (BitVec.ofNat (8 * n) (bytesIn u pa n)).toInt else BitVec.ofNat 64 (bytesIn u pa n))))) ∧
      AccessFrame u t ∧ ∀ b, byteIn t b = byteIn u b) ∧
  ∀ (s u : State) (i : Instr) (d a : Fin 64) (o : Word) (n : Nat) (sg : Bool) (x : Xlat) (st off sub : Nat) (v : Word), loadRow i = some (d, a, o, n, sg) →
    addressResidueOk (s.getS a) o → ReachesBlock s (s.sval a + o) n ⟨true, false, false⟩ u x st off sub → plainStackReg u st off = some v →
    exec i s = .next (complete 4 (u.setS d (formed
      (if sg then BitVec.ofInt 64 (v.extractLsb' (8 * sub) (8 * n)).toInt else BitVec.ofNat 64 (v.extractLsb' (8 * sub) (8 * n)).toNat))))

/-- A store writes the low bytes of its register at its address, little-endian, and no other byte but the dirty bit of the leaf entry that a first
write sets (15:R337, R339, R340, 19:R428). Holds for each store of 1, 2, 4 and 8 bytes and for RELST. A plain store of a control thread may instead be
delayed: nothing but its thread's progress and the list of delayed stores changes then (14:R314, R315; DESIGN CHOICE, log 114). At supervisor level a store
into the control window writes a register, a narrow one with the register's other bytes as they were (03:R80, 18:R397). -/
def Obligations.StoreResults : Prop :=
  (∀ (s u : State) (i : Instr) (r a : Fin 64) (o : Word) (n : Nat) (rel : Bool) (x : Xlat) (pa : Nat), storeRow i = some (r, a, o, n, rel) →
    addressResidueOk (s.getS a) o → dataResidueOk (s.getS r) → Reaches s s.asker (s.sval a + o) n ⟨false, true, false⟩ u x pa →
    let late := rel = false ∧ u.delay = true ∧ s.cur.bank = none
    (¬ late → memoriesWf u → (rel = true → releasable u) → leafApart u (leafToMark u x pa) pa n →
      ∃ t : State, exec i s = .next (complete 4 t) ∧ AccessFrame u t ∧ stored u t pa n (s.sval r).toNat (leafToMark u x pa) ∧
        ∀ l, leafToMark u x pa = some l → bytesIn t l 8 = bytesIn u l 8 ||| 2 ^ (48 + pa / 4096 % 16)) ∧
    (late → exec i s = .next (complete 4 { u with
      delay := false, stores := [⟨s.tid, pa, n, (s.sval r).toNat % 2 ^ (8 * n), x.bit 7, ⟨some x.leafAddr, !x.bit (48 + pa / 4096 % 16)⟩⟩] }))) ∧
  ∀ (s u t : State) (i : Instr) (r a : Fin 64) (o : Word) (n : Nat) (rel : Bool) (x : Xlat) (st off sub : Nat) (v : Word),
    storeRow i = some (r, a, o, n, rel) → addressResidueOk (s.getS a) o → dataResidueOk (s.getS r) →
    ReachesBlock s (s.sval a + o) n ⟨false, true, false⟩ u x st off sub → (rel = true → releasable u) → plainStackReg u st off = some v →
    writtenStackReg u st off (mergedWord v sub n (s.sval r)) = some t → exec i s = .next (complete 4 t)

/-- An atomic writes the old word into rd and the new one at its address, as one access (15:R341), with the dirty bit that a first write to its 4 KiB unit
sets (19:R428); CAS writes only where the old word is rd's value on entry. At supervisor level an atomic on the control window does so to a register
(03:R80, 18:R397). -/
def Obligations.AtomicResults : Prop :=
  (∀ (s u : State) (i : Instr) (d a b : Fin 64) (f : Word → Word → Word → Option Word) (x : Xlat) (pa : Nat), atomicRow i = some (d, a, b, f) →
    addressResidueOk (s.getS a) 0 → dataOperandsOk s i → Reaches s s.asker (s.sval a) 8 ⟨true, true, true⟩ u x pa → poisonIn u pa = false →
    let old := BitVec.ofNat 64 (bytesIn u pa 8)
    let new := f old (s.sval b) (s.sval d)
    let leaf := if new.isSome then leafToMark u x pa else none
    memoriesWf u → releasable u → leafApart u leaf pa 8 →
    ∃ t : State, exec i s = .next (complete 4 (t.setS d (formed old))) ∧ AccessFrame u t ∧ stored u t pa 8 (new.getD old).toNat leaf ∧
      ∀ l, leaf = some l → bytesIn t l 8 = bytesIn u l 8 ||| 2 ^ (48 + pa / 4096 % 16)) ∧
  ∀ (s u t : State) (i : Instr) (d a b : Fin 64) (f : Word → Word → Word → Option Word) (x : Xlat) (st off : Nat) (v : Word),
    atomicRow i = some (d, a, b, f) → addressResidueOk (s.getS a) 0 → dataOperandsOk s i →
    ReachesBlock s (s.sval a) 8 ⟨true, true, true⟩ u x st off 0 → releasable u → plainStackReg u st off = some v →
    (match f v (s.sval b) (s.sval d) with | some w => writtenStackReg u st off w | none => some u) = some t →
    exec i s = .next (complete 4 (t.setS d (formed v)))

/-- Where the checks of 15:R338 fail, the first one gives the trap, with the virtual address in TRAPVAL, and no byte changes: an address past 2^52
(page fault), a misaligned one, a missing entry bit. A poisoned word traps a load that VPOISON does not exempt; an exempt one takes the bits as they are,
logged as UNMARKED, and clears VPOISON.V (21:R450, R452, R453; TRAPVAL as log 60 reads it, the element of a load as log 45 does). -/
def Obligations.AccessTraps : Prop :=
  ∀ (s : State) (i : Instr) (a : Fin 64) (o : Word) (n : Nat) (need : Need), accessRow i = some (a, o, n, need) → Trapping s →
    addressResidueOk (s.getS a) o → dataOperandsOk s i →
    let va := s.sval a + o
    (2 ^ 52 ≤ va.toNat → exec i s = .next (entered s 0x06 va s.front.pc)) ∧
    (va.toNat < 2 ^ 52 → va.toNat % n ≠ 0 → exec i s = .next (entered s 0x05 va s.front.pc)) ∧
    (va.toNat < 2 ^ 52 → va.toNat % n = 0 → ∀ x c, translate s s.asker s.thr.root va.toNat = (s, .found x) →
      missingBit x s.level need (x.base + va.toNat % 2 ^ 16) = some c → exec i s = .next (entered s c va s.front.pc)) ∧
    (∀ u x pa, loadRow i ≠ none → Reaches s s.asker va n need u x pa → Trapping u → poisonIn u pa = true →
      (u.thr.front.vpoison.v = false ∨ u.thr.front.vpoison.elem ≠ 0 →
        ∃ t : State, exec i s = .next (entered t 0x10 va s.front.pc) ∧ AccessFrame u t ∧ ∀ b, byteIn t b = byteIn u b) ∧
      (u.thr.front.vpoison.v = true → u.thr.front.vpoison.elem = 0 → ∀ d m k sg, loadRow i = some (d, a, m, k, sg) →
        ∃ t : State, exec i s = .next (complete 4 ((withFront t (fun f => { f with vpoison := { f.vpoison with v := false } })).setS d (formed
            (if sg then BitVec.ofInt 64 (BitVec.ofNat (8 * n) (bytesIn u pa n)).toInt else BitVec.ofNat 64 (bytesIn u pa n))))) ∧
          AccessFrame u t ∧ ∀ b, byteIn t b = byteIn u b))

/-- A write of a control register changes its writable fields and nothing else (15:R349; 07:R149, R155, R158, R160, 12:R283, 16:R361, 20:R433, R434,
R436, 21:R455): each register of 15:R350, by REGISTER_WRITE, by the step of its own where it has one; a write of TRAPSTAT leaves BPC as it is (log 44);
FLAGS_READ reads the flags of the thread and of every owned bank. The registers of a stack's block (18:R397, R400, R401, 21:R465, 24:R502): SCHCTL, CTXBASE,
ERRCFG, and PARK, PWRCTL, TAIL by steps of their own, of a stack that is not excluded (24:R493). -/
def Obligations.RegisterWrites : Prop :=
  (∀ (s t : State) (i : Instr) (n : Nat) (v : Word), writeStep i = some (n, v) → s.mustDrain = false → writtenCreg s n v = some t →
    exec i s = .next t) ∧
  (∀ (s : State) (d : Fin 64), s.mustDrain = false →
    exec (.flagsRead d) s = .next (s.setS d (formed ((s.ownedAll.foldl (fun a q => a ||| (s.bank q.2).flags) s.thr.flags).zeroExtend 64)))) ∧
  (∀ (s t : State) (i : Instr) (st off : Nat) (v : Word), stackWriteStep i = some (st, off, v) → (s.stack st).excluded = false →
    writtenStackReg s st off v = some t → exec i s = .next t) ∧
  ∀ (s : State) (st : Fin 32) (q : Fin 16) (v : Word),
    exec (.tailWrite st q v) s = .next (if (s.stack st.val).excluded then s
      else withStack s st.val (fun k => { k with hostq := k.hostq.set q { k.hostq[q] with tail := v } }))

/-- A fence completes once no far element that it waits for is posted and no delayed store of its thread is left, a bank synchronisation once no far
element of the banks that its thread owns is posted, whatever BMASK holds; with nothing to wait for each changes nothing but its thread's progress (14:R313,
R315, R320, 17:R376-R378). Each reaches what it waits for within its own step (log 43); delayed stores are the model's (log 114). FENCE.SV and FENCE.VS order
nothing in a bank thread. Hints only move on: nothing but the pc, the loop stack at a loop's end, and the counts of completed instructions changes (02:R48,
17:R395). -/
def Obligations.FencesAndHints : Prop :=
  (∀ s : State,
    (s.mustDrain = false → ∀ p, ∃ t : State, exec (.fence p) s = .next t ∧ (∀ q ∈ t.posted, awaited s q = false) ∧
      (s.cur.bank = none → ∀ d ∈ t.stores, d.tid ≠ s.tid) ∧
      ((∀ q ∈ s.posted, awaited s q = false) → (∀ d ∈ s.stores, d.tid ≠ s.tid) → t = complete 4 s)) ∧
    (s.cur.bank = none → ∃ t : State, exec .fenceSv s = .next t ∧ (∀ d ∈ t.stores, d.tid ≠ s.tid) ∧
      ((∀ d ∈ s.stores, d.tid ≠ s.tid) → t = complete 4 s)) ∧
    (s.cur.bank ≠ none → exec .fenceSv s = .next (complete 4 s)) ∧
    (s.mustDrain = false → s.cur.bank = none → ∃ t : State, exec .fenceVs s = .next t ∧ (∀ q ∈ t.posted, awaited s q = false) ∧
      ((∀ q ∈ s.posted, awaited s q = false) → t = complete 4 s)) ∧
    (s.cur.bank ≠ none → exec .fenceVs s = .next (complete 4 s)) ∧
    (atTurn s →
      let c := (s.venv .bsync 4 0 0).ctx
      let waits (q : Posted) : Prop := q.thread = s.tid ∧ (match s.cur.bank with
        | some j => q.bank = s.ownBank j
        | none => ∃ n < c.count.toNat, s.bankList[c.base.toNat + n]? = some q.bank)
      ∃ t : State, exec .bsync s = .next t ∧ (∀ q ∈ t.posted, ¬ waits q) ∧
        ((∀ q ∈ s.posted, ¬ waits q) → t = vectorDone s 4 (overBanks s (s.venv .bsync 4 0 0).banks (fun _ x => counted x))))) ∧
  ∀ (s : State) (i : Instr) (n : Nat), plainRow i = some n → exec i s = .next (complete n s)

/-- WAIT writes a word that is not zero into rd, else its thread waits; each later read does the same, and the limit writes 0 (17:R387). PAUSE halts
its thread until it ends (17:R388). -/
def Obligations.WaitAndPause : Prop :=
  (∀ (s u : State) (d a b : Fin 64) (x : Xlat) (pa : Nat), addressResidueOk (s.getS a) 0 → Reaches s s.asker (s.sval a) 8 ⟨true, false, false⟩ u x pa →
    poisonIn u pa = false → ∃ t : State, AccessFrame u t ∧ (∀ c, byteIn t c = byteIn u c) ∧
      exec (.wait d a b) s = .next (if bytesIn u pa 8 = 0 then
          { t with thr := { t.thr with cond := .waitWord d (s.sval a) (BitVec.ofNat 32 (fieldOf (s.sval b) 31 0)) } }
        else complete 4 ({ t with thr := { t.thr with cond := .running } }.setS d (formed (BitVec.ofNat 64 (bytesIn u pa 8)))))) ∧
  (∀ (s v u : State) (st : Fin 32) (th : Fin 40) (d : Fin 64) (va : Word) (limit : BitVec 32), v = s.switchTo st.val th.val none →
    v.thr.cond = .waitWord d va limit →
    (limit ≠ 0 → exec (.waitLimitExpiry st th) s =
      .next ((complete 4 ({ v with thr := { v.thr with cond := .running } }.setS d (formed 0))).switchTo s.cur.st s.cur.th s.cur.bank)) ∧
    (∀ x pa, Reaches v v.asker va 8 ⟨true, false, false⟩ u x pa → poisonIn u pa = false → ∃ t : State, AccessFrame u t ∧ (∀ c, byteIn t c = byteIn u c) ∧
      exec (.waitReread st th) s = .next ((if bytesIn u pa 8 = 0 then t
        else complete 4 ({ t with thr := { t.thr with cond := .running } }.setS d (formed (BitVec.ofNat 64 (bytesIn u pa 8))))).switchTo
          s.cur.st s.cur.th s.cur.bank))) ∧
  (∀ (s : State) (a : Fin 64), exec (.pause a) s = .next { s with thr := { s.thr with cond := .paused } }) ∧
  ∀ (s v : State) (st : Fin 32) (th : Fin 40), v = s.switchTo st.val th.val none → v.thr.cond = .paused →
    exec (.pauseExpiry st th) s =
      .next ((complete 4 { v with thr := { v.thr with cond := .running } }).switchTo s.cur.st s.cur.th s.cur.bank)

/-- SPLIT starts a bank thread in every executing bank, with the offset as pc, the thread's configuration and zero elsewhere; its thread waits
(16:R367, 17:R383). BARB counts its barrier and goes on, with those that wait there, once every other bank thread has arrived; JOIN ends its bank thread, which
counts as arrived at every barrier (17:R379, R384). The control thread takes the
trap of its lowest stopped bank thread, with BT, BANK and BPC (16:R367, 20:R435). A bank thread runs at the level its control thread had at SPLIT (log 36); VEC
tells a trap of the bank thread's vector side, and no instruction is held (log 38). -/
def Obligations.BankThreads : Prop :=
  (∀ (s : State) (a : Fin 64), s.cur.bank = none → s.thr.queue = [] → (s.sval a).toNat < 2 ^ 13 → (s.sval a).toNat % 4 = 0 →
    exec (.split a) s = .next (if executing s = [] then complete 4 s
      else { s with thr := { s.thr with cond := .splitWait, bts := (executing s).map (fun q => (q.1, startedBank s (s.sval a))) } })) ∧
  (∀ (s : State) (j : Nat) (b : BankThread), s.cur.bank = some j → mapGet s.thr.bts j = some b → keysAbove none s.thr.bts = true →
    (∀ q ∈ s.posted, awaited s q = false) → b.status = .running →
    exec .join s = .next (barriersOpened ((s.setBt j { b with status := .joined }).retire)) ∧
    exec .barb s = .next (barriersOpened (s.setBt j { b with barb := b.barb + 1, status := .atBarrier }))) ∧
  ∀ (s v : State) (st : Fin 32) (th : Fin 40) (j : Nat) (b : BankThread) (t : TrapInfo), v = s.switchTo st.val th.val none →
    v.thr.cond = .splitWait → v.thr.tr.busy = false → mapGet v.thr.bts j = some b → b.status = .stopped t → keysAbove none v.thr.bts = true →
    (∀ p ∈ v.thr.bts, p.1 < j → ∀ r, p.2.status ≠ .stopped r) →
    exec (.bankThreadTrap st th) s = .next ((withTr (entered v t.cause t.val v.thr.front.pc) (fun r =>
      { r with vec := t.vec, bt := true, bank := BitVec.ofNat 8 j, bpc := BitVec.ofNat 15 b.front.pc.toNat })).switchTo
        s.cur.st s.cur.th s.cur.bank)

/-- VFETCH copies n blocks of 64 bytes of code into the buffer windows and marks them valid (16:R368, 17:R385): every window of the frond on a
control thread, the own half-slab's in a bank thread. -/
def Obligations.CodeFetchFillsBuffers : Prop :=
  ∀ (s : State) (a b : Fin 64) (tr : Nat → Xlat), addressResidueOk (s.getS a) 0 →
    let va := (s.sval a).toNat
    let off := fieldOf (s.sval b) 15 0
    let n := fieldOf (s.sval b) 24 16
    let at_ (i : Nat) : Nat := (tr (i / 64)).base + (va + i) % 2 ^ 16
    va % 64 = 0 → va + 64 * n ≤ 2 ^ 52 → fieldOf (s.sval b) 63 25 = 0 → n ≤ 128 → off % 64 = 0 → off + 64 * n ≤ 0x2000 →
    (∀ i < n, translate s s.fetchAsker s.thr.root (va + 64 * i) = (s, .found (tr i)) ∧ (tr i).bit 9 = false ∧ (tr i).bit 4 = true ∧ (s.level = .user → (tr i).bit 5 = true) ∧
      windowOf ((tr i).pa (va + 64 * i)) ≠ .control ∧ populated s ((tr i).pa (va + 64 * i)) = true ∧ (tr i).base % 2 ^ 16 = 0 ∧
      pageHash s s.thr.root ((va + 64 * i) / 2 ^ 16) = none) →
    (∀ i < 64 * n, poisonIn s (at_ i) = false ∧ Undisturbed s (at_ i) ∧ populated s (at_ i) = true) →
    (∀ p ∈ (s.stack s.cur.st).bib, p.2.bytes.wf = true) →
    ∃ t : State, exec (.vfetch a b) s = .next (complete 4 t) ∧ t.thr = s.thr ∧ (∀ c, byteIn t c = byteIn s c) ∧
      ∀ key ∈ fetchWins s, ∃ w : BibWin, mapGet (t.stack s.cur.st).bib key = some w ∧
        (∀ i < 64 * n, memRead w.bytes (off + i) = byteIn s (at_ i)) ∧ (∀ i < n, w.valid.getLsbD (off / 64 + i) = true) ∧
          ∀ i < 2 * n, off / 32 + i ∉ w.poison

/-- END frees its thread and its banks: latches, tiles, checksum rows and flags are zero and registers FREE; the launch counts the task, as TRAPPED
where END ran at supervisor level. Once all have ended, a launch unit that runs writes the completion word, and the launch is over: the 8 bytes at CWORD hold
STATUS, FAILTASK, ENDED, PLOSS and FLAGS as 16:R370 lays them out (16:R369, R370, 17:R386, 04:R87, 18:R411). HALT frees its thread and parks it, and ends the
launch as CANCELLED unless a failure stands: its other tasks end where they are, and its word is written likewise (16:R370, 17:R389). -/
def Obligations.TasksEnd : Prop :=
  ∀ (s : State) (i : TaskInfo), s.cur.bank = none → s.thr.queue = [] → s.cur.th < 40 → s.thr.task = some i → i.id.stack < 32 →
    (∀ p ∈ s.posted, p.thread ≠ s.tid ∧ ∀ q ∈ s.ownedAll, p.bank ≠ q.2) → (∀ d ∈ s.stores, d.tid ≠ s.tid) →
    (∀ st n, pushedBy (engineOf s st n) i.id = []) →
    let stopped := decide (((s.stack i.id.stack).cols[0]).state = .stopped)
    let freed (t : State) : Prop := t.thr = Thread.reset ∧
      ∀ q ∈ s.ownedAll, (∀ k : Fin 16, ((t.bank q.2).w[k]).state = .free ∧ ((t.bank q.2).w[k]).latch = 0 ∧ ((t.bank q.2).w[k]).poison = 0) ∧
        (t.bank q.2).t = Vector.replicate 4 0 ∧ (t.bank q.2).q = Vector.replicate 4 0 ∧ (t.bank q.2).flags = 0 ∧ (t.bank q.2).ploss = false
    let counted (l : Launch) (ran : Nat) (fails : Option (BitVec 8)) : Launch := { l with
      ended := l.ended + ran, finished := l.finished + 1,
      flags := l.flags ||| s.ownedAll.foldl (fun f q => f ||| (s.bank q.2).flags) s.thr.flags,
      ploss := l.ploss || s.ownedAll.foldl (fun f q => f || (s.bank q.2).ploss) s.thr.ploss,
      status := if l.status = 0 then fails.getD 0 else l.status, failTask := if l.status = 0 ∧ fails.isSome then i.id.num else l.failTask }
    let told (t : State) (l : Launch) : Prop := stopped = false → memoriesWf s → l.rcd.cword.toNat % 8 = 0 → ∀ y : Nat → Xlat,
      UnitRange s i.id.stack ⟨⟨0, 0, 0⟩, l.rcd.root, .supervisor⟩ l.rcd.cword.toNat 8 true y →
      ∀ n < 8, byteIn t (unitPa y l.rcd.cword.toNat n) = byteAt (completionWord l).toNat n
    (s.thr.ui.active = false → ∃ t : State, exec .endTask s = .next t ∧ freed t ∧
      ∀ l, s.getLaunch i.id.stack i.id.launch = some l → l.wordDue = false →
        let l' := counted l 1 (if s.level = .supervisor then some 2 else none)
        t.getLaunch i.id.stack i.id.launch = (if l'.finished < l.ns * l.nf ∨ stopped = true then some l' else none) ∧
        (l.ns * l.nf ≤ l'.finished → told t l')) ∧
    (s.thr.level = .supervisor → ∃ t : State, exec .halt s = .next t ∧ freed t ∧ (t.stack s.cur.st).park.getLsbD s.cur.th = true ∧
      (∀ l, s.getLaunch i.id.stack i.id.launch = some l → (∀ v ∈ s.launchThreads i.id.stack i.id.launch, (t.thread v).task = none) ∧
        ∀ n < 32, ∀ w ∈ (t.stack n).waiting, ¬ (w.info.id.stack = i.id.stack ∧ w.info.id.launch = i.id.launch)) ∧
      ∀ l, s.getLaunch i.id.stack i.id.launch = some l → l.wordDue = false → l.ns * l.nf ≤ l.finished + 1 →
        s.launchThreads i.id.stack i.id.launch = [s.tid] →
        (∀ n < 32, ∀ w ∈ (s.stack n).waiting, ¬ (w.info.id.stack = i.id.stack ∧ w.info.id.launch = i.id.launch)) →
        let l' := counted l 0 (some 7)
        t.getLaunch i.id.stack i.id.launch = (if stopped = true then some l' else none) ∧ told t l')

/-- LAUNCH copies its record once and answers in rd (17:R381): 3 for a record that fails its check, with nothing queued, and for one whose CWORD does not
translate with W in the launch's address space; 2 where the unit takes none; else 1, with the record last in the device launch queue, which holds at most
64. That the page of CWORD needs no U, for the launch of a user task either, is the model's reading, log 28. -/
def Obligations.LaunchAnswers : Prop :=
  ∀ (s u : State) (d a : Fin 64) (x y : Xlat) (pa : Nat) (i : TaskInfo), addressResidueOk (s.getS a) 0 →
    Reaches s s.asker (s.sval a) 256 ⟨true, false, false⟩ u x pa → releasable u → s.thr.task = some i → (∀ j < 160, poisonIn u (pa + j) = false) →
    (u.bank (pa / 2 ^ 27)).lines.length + 2 ≤ 256 * (u.bank (pa / 2 ^ 27)).cacheWays →
    let w := recordAt u pa
    let k := s.stack s.cur.st
    let cword := (wordAt w 1).toNat
    let good := ¬ badRecord w ∧ ∃ q ∈ s.kernels, q.root = s.thr.root ∧ q.handle = wordAt w 0
    ∃ (t : State) (v : Word), exec (.launch d a) s = .next (complete 4 (t.setS d (formed v))) ∧ t.thr = s.thr ∧
      (¬ good ∨ 2 ^ 52 ≤ cword → v = 3 ∧ (t.stack s.cur.st).devq = k.devq ∧ ∀ c, byteIn t c = byteIn u c) ∧
      (good → cword < 2 ^ 52 →
        (∃ c, ∀ u' : State, AccessFrame u u' → (∀ a, byteIn u' a = byteIn u a) → (translate u' (unitAsker u.cur.st) s.thr.root cword).2 = .fault c) →
        v = 3 ∧ (t.stack s.cur.st).devq = k.devq) ∧
      (good → cword < 2 ^ 52 → translate u (unitAsker u.cur.st) s.thr.root cword = (u, .found y) → (∀ c, byteIn t c = byteIn u c) ∧
        ((y.bit 3 = false ∨ y.bit 9 = true ∨ windowOf (y.pa cword) = .control ∨ populated u (y.pa cword) = false) →
          v = 3 ∧ (t.stack s.cur.st).devq = k.devq) ∧
        (y.bit 3 = true → y.bit 9 = false → windowOf (y.pa cword) ≠ .control → (∀ j < 8, populated u (y.pa cword + j) = true) →
          (if k.cols[0].state = .stopped ∨ k.cols[1].state = .stopped ∨ 64 ≤ k.devq.length then v = 2 ∧ (t.stack s.cur.st).devq = k.devq
           else v = 1 ∧ (t.stack s.cur.st).devq = k.devq ++ [recordOf s w i])))

/-- QPUSH appends its word to the command FIFO with the task, address space and level it ran under (12:R278, 13:R305); QPOP and QPOP.NB take the oldest
result, an empty FIFO making QPOP wait and QPOP.NB write 0 (13:R306); QSTAT reads the counts (13:R307). A full command FIFO makes QPUSH wait. -/
def Obligations.QueueInstructions : Prop :=
  ∀ (s : State) (q : Bool),
    let n := ownEngine s q
    let e := engineOf s s.cur.st n
    (∀ a i, s.thr.task = some i → dataResidueOk (s.getS a) → releasable s →
      let e' : EngQ := { e with fifo := e.fifo ++ [(s.sval a, ⟨i.id, i.root, s.level⟩)] }
      exec (.qpush a q) s = .next (if 32 ≤ e.fifo.length then s
        else complete 4 (withStack s s.cur.st (fun k => { k with engines := k.engines.set n e' })))) ∧
    (∀ d, e.held = none → exec (.qpop d q) s = .next (match resultsOf s q with
      | [] => s
      | w :: r => complete 4 ((withResults s q r).setS d (formed w)))) ∧
    (∀ d, e.held = none → exec (.qpopNB d q) s = .next (match resultsOf s q with
      | [] => complete 4 (s.setS d (formed 0))
      | w :: r => complete 4 ((withResults s q r).setS d (formed w)))) ∧
    ∀ d, exec (.qstat d q) s = .next (complete 4 (s.setS d (formed (BitVec.ofNat 64 (b2n e.held.isSome + (resultsOf s q).length * 2 ^ 8 +
      (32 - e.fifo.length) * 2 ^ 16 + b2n e.run.isSome * 2 ^ 32)))))

/-- TLBI removes the translations and the pointer entries it names and nothing else, where every posted element has been applied and no store is delayed
(17:R393, 19:R421, R427). WAYSET writes the old
partition into rd and sets the new one: a way that changes sides loses its scratch bytes, and where the cache gives up a way its dirty lines are written back,
so that no byte of DRAM changes; a value that is not valid changes nothing and gives all ones (12:R270, 17:R394). That TLBI.VA makes no check of rb and that
a slice that gives up a way keeps no line are the model's readings, logs 52 and 7. -/
def Obligations.PrivilegedCompletes : Prop :=
  ∀ s : State, s.level = .supervisor →
    (∀ i sel, purged s i = some sel → (∀ a b, i = .tlbiVA a b → addressResidueOk (s.getS a) 0) → (∀ p ∈ s.posted, p.applied = true) → s.stores = [] →
      exec i s = .next (complete 4 { s with xlat := s.xlat.filter (fun x => !sel.1 x), ptrs := s.ptrs.filter (fun p => !sel.2 p) })) ∧
    (∀ d a, dataResidueOk (s.getS a) →
      let v := s.sval a
      let mode := fieldOf v 5 4
      let cnt := fieldOf v 3 0
      (fieldOf v 63 6 ≠ 0 ∨ mode = 3 ∨ (mode = 2 ∧ (cnt = 0 ∨ 8 < cnt)) →
        exec (.wayset d a) s = .next (complete 4 (s.setS d (formed (BitVec.allOnes 64))))) ∧
      (fieldOf v 63 6 = 0 → mode ≠ 3 → (mode = 2 → 1 ≤ cnt ∧ cnt ≤ 8) → s.mustDrain = false →
        ∀ f, (s.stack s.cur.st).frond (s.cur.th / 2) = some f → (∀ b, keysAbove none (s.bank b).lines = true) →
        ∃ t : State, exec (.wayset d a) s = .next (complete 4 (t.setS d (formed (BitVec.ofNat 64
            (f.mode.toNat * 16 + (if f.mode = 1 then 8 else if f.mode = 2 then f.ways.toNat else 0)))))) ∧
          ∃ g : Frond, (t.stack s.cur.st).frond (s.cur.th / 2) = some g ∧ g.mode.toNat = mode ∧ (mode = 2 → g.ways.toNat = cnt) ∧
            g.halves = f.halves ∧ g.nbanks = f.nbanks ∧
            ∀ b ∈ s.bankList, (t.bank b).mode = g.mode ∧ (t.bank b).ways = g.ways ∧
              (∀ way < 16, (t.bank b).isScratch way ≠ (s.bank b).isScratch way →
                ((t.bank b).isScratch way = true → (t.bank b).lines = []) ∧ ∀ o < 2 ^ 15, memRead (t.bank b).scratch (way * 2 ^ 15 + o) = 0) ∧
              ((∀ c ∈ s.bankList, LinesSettled s c) → s.dram.wf = true → s.upsets = [] → ∀ c, windowOf c = .dram → byteIn t c = byteIn s c)))

/-- UIRET goes back to EPC with ACTIVE clear, the completion interrupt enters at UIVEC with ACTIVE set and the pc in EPC, and both exchange s48-s63 with
their shadow copies; stated for a boundary at which no pre-emption and no other trap goes first (12:R282, R283, 17:R392, 20:R435). -/
def Obligations.CompletionInterrupts : Prop :=
  (∀ s : State, s.level = .user → s.cur.bank = none → s.thr.ui.active = true →
    let t : Thread := exchanged s.thr
    let f : Front := { s.thr.front with pc := BitVec.ofNat 64 (s.thr.ui.epc.toNat * 4) }
    exec .uiret s = .next ({ s with thr := { t with ui := { s.thr.ui with active := false }, front := f } } : State).retire) ∧
  ∀ (s v : State) (st : Fin 32) (th : Fin 40), v = s.switchTo st.val th.val none → v.thr.ui.en = true → v.thr.ui.active = false →
    (v.thr.ui.pend0 = true ∨ v.thr.ui.pend1 = true) → v.thr.level = .user → v.thr.task ≠ none → v.thr.cond ≠ .splitWait →
    (∀ b, v.thr.cond ≠ .ready b) → v.thr.hardReq = false ∨ v.thr.handlers ≠ [] →
    v.thr.tr.busy = true ∨ (v.thr.ueReq = none ∧ ∀ q ∈ v.ownedAll, (v.bank q.2).deadline = 0) →
    let w := if v.thr.cond = .paused then complete 4 { v with thr := { v.thr with cond := .running } } else v
    let t : Thread := exchanged w.thr
    let f : Front := { w.thr.front with pc := BitVec.ofNat 64 (w.thr.ui.handler.toNat * 4) }
    let u : UiRegs := { w.thr.ui with epc := BitVec.ofNat 50 (fieldOf w.thr.front.pc 51 2), active := true }
    exec (.completionInterrupt st th) s =
      .next (({ w with thr := { t with ui := u, cond := .running, front := f } } : State).switchTo s.cur.st s.cur.th s.cur.bank)

/-- SETVL grants a length in whole blocks, at most the row's capacity, sets FMT and BLK and clears VSTART, and writes LIVE into rd (07:R150, 08:R174);
blocks that no row holds trap with VL range; a smaller REQ takes effect, and a larger one takes the free banks next to the thread's own, nearest first, each as a
task's first instruction finds it, those it does not find staying requested (16:R362). Where a soft request is pending and no handler runs, the pre-emption request
is taken instead: its cause, value and address are in the saved record, and the task waits (20:R432, R440). What the record holds of the trap is the model's
reading, log 46, and so is VL range going before the partition, log 47. -/
def Obligations.VectorLengths : Prop :=
  (∀ (s : State) (d a : Fin 64) (k : Fin 32) (f : Fin 16) (i : TaskInfo), s.thr.softReq = true → s.thr.handlers = [] → s.canSave s.tid = true →
    s.cur.bank = none → s.thr.queue = [] → s.cur.th < 40 → s.thr.task = some i → s.stores = [] → (∀ p ∈ s.posted, p.thread ≠ s.tid) →
    (∀ l, s.getLaunch i.id.stack i.id.launch = some l → l.failed = false) →
    ∃ t : State, exec (.setvl d k f a) s = .next t ∧ t.thr = Thread.reset ∧ ∃ w ∈ (t.stack s.cur.st).waiting, w.info = i ∧ w.hold = false ∧
      ∃ z, w.saved = some z ∧ z.hard = false ∧ z.thread.tr.cause = 0x15 ∧ z.thread.tr.val = 0 ∧
        z.thread.tr.pc = BitVec.ofNat 50 (fieldOf s.thr.front.pc 51 2) ∧ z.thread.front.pc = s.thr.front.pc ∧ z.thread.sregs = s.thr.sregs) ∧
  ∀ (s : State) (d a : Fin 64) (k : Fin 32) (f : Fin 16), (s.thr.softReq = false ∨ s.thr.handlers ≠ []) →
    let cap := 16384 / (if f.val = 0 then 8 else tagWidth (BitVec.ofNat 4 f.val))
    let avl := (s.sval a).toNat
    let vl := if cap ≤ avl then cap else 2 ^ k.val * ((avl + 2 ^ k.val - 1) / 2 ^ k.val)
    let live := if cap ≤ avl then cap else avl
    let cfg : VlCfg := ⟨BitVec.ofNat 15 live, BitVec.ofNat 15 vl, BitVec.ofNat 5 k.val, BitVec.ofNat 4 f.val⟩
    (2 ^ k.val ≤ cap → s.thr.bpart.req = s.thr.bpart.count →
      exec (.setvl d k f a) s = .next (complete 4 ((withFront s (fun g => { g with vstart := 0, vlcfg := cfg })).setS d
        (formed (BitVec.ofNat 64 live))))) ∧
    (cap < 2 ^ k.val → Trapping s → exec (.setvl d k f a) s = .next (entered s 0x0D (s.sval a) s.front.pc)) ∧
    (2 ^ k.val ≤ cap → s.mustDrain = false → s.cur.bank = none → s.thr.bpart.req.toNat < s.thr.bpart.count.toNat →
      ∃ t : State, exec (.setvl d k f a) s = .next (complete 4 (t.setS d (formed (BitVec.ofNat 64 live)))) ∧ t.thr.front.vlcfg = cfg ∧
        t.thr.bpart.count = s.thr.bpart.req ∧ t.thr.bpart.req = s.thr.bpart.req ∧ (s.cur.th % 2 = 0 → t.thr.bpart.base = s.thr.bpart.base)) ∧
    (2 ^ k.val ≤ cap → s.mustDrain = false → s.cur.bank = none → s.thr.bpart.count.toNat < s.thr.bpart.req.toNat →
      s.thr.bpart.base.toNat + s.thr.bpart.count.toNat ≤ s.bankList.length →
      let base := s.thr.bpart.base.toNat
      let count := s.thr.bpart.count.toNat
      let o := s.thread (tidOf s.cur.st (otherTh s.cur.th))
      let near (m : Nat) : Nat := if s.cur.th % 2 = 0 then base + count + m else base - 1 - m
      let free (m : Nat) : Prop := (if s.cur.th % 2 = 0 then base + count + m < s.bankList.length else m < base) ∧
        (o.task = none ∨ near m < o.bpart.base.toNat ∨ o.bpart.base.toNat + o.bpart.count.toNat ≤ near m)
      ∀ n, count + n ≤ s.thr.bpart.req.toNat → (∀ m < n, free m) → (count + n = s.thr.bpart.req.toNat ∨ ¬ free n) →
        let low := if s.cur.th % 2 = 0 then base else base - n
        ∃ t : State, exec (.setvl d k f a) s = .next (complete 4 (t.setS d (formed (BitVec.ofNat 64 live)))) ∧ t.thr.front.vlcfg = cfg ∧
          t.thr.bpart.count.toNat = count + n ∧ t.thr.bpart.req = s.thr.bpart.req ∧ t.thr.bpart.base.toNat = low ∧
          (∀ m < n, ∀ b, s.bankList[near m]? = some b → (t.bank b).w = Vector.replicate 16 WReg.reset ∧ (t.bank b).m = Vector.replicate 16 0 ∧
            (t.bank b).t = Vector.replicate 4 0 ∧ (t.bank b).q = Vector.replicate 4 0 ∧ (t.bank b).flags = 0 ∧ (t.bank b).ploss = false ∧
            (t.bank b).lfsr = seedLfsr s.thr.srseed (near m) ∧
            (t.bank b).x = (Vector.replicate 32 SReg.zero).set 1 (formed (BitVec.ofNat 64 (near m - low)))) ∧
          (s.cur.th % 2 = 1 → 0 < n → ∀ q ∈ t.ownedAll, (t.bank q.2).x[1] = formed (BitVec.ofNat 64 (q.1 - low))))

/-- ACT binds the named row of every executing bank: the register is open with the tag of the word, the row number, the page's write permission and the
row's bytes, crown lines merged (04:R96, 05:R113). Stated from FREE registers, without rows of the cross-group table and without errors outside the cells; a
register that was bound to a row is closed first, its dirty latch written into its row. -/
def Obligations.ActBinds : Prop :=
  ∀ (s : State) (i : Instr) (k t : Fin 16) (ind : Bool) (f : BitVec 12) (tr : Nat → Xlat) (row : Nat → Nat), actRow i = some (k, t, ind, f) →
    atTurn s → s.upsets = [] →
    let banks := (s.venv i 4 0 0).banks
    (∀ q ∈ banks, (s.bank q.2).xgroup = [] ∧ rowResidueOk (s.bank q.2) ind f ∧
      RowResolves s q.1 q.2 k (rowNumber (s.bank q.2) ind f) false (tr q.1) (row q.1)) →
    ((∀ q ∈ banks, ((s.bank q.2).w[k]).state = .free ∧ (∀ p ∈ (s.bank q.2).pend, p.grp ≠ k.val)) →
      ∃ u : State, exec i s = .next u ∧ u.front.vstart = 0 ∧ ∀ q ∈ banks,
        let r := (u.bank q.2).w[k]
        r.state = (if merges s q.2 k (row q.1) then .openDirty else .openClean) ∧ r.tag = BitVec.ofNat 4 t.val ∧
        r.row = BitVec.ofNat 12 (rowNumber (s.bank q.2) ind f) ∧ r.prow = BitVec.ofNat 12 (row q.1) ∧ r.writable = (tr q.1).bit 3 ∧ r.valid = false ∧
        (keysAbove none (s.bank q.2).lines = true → ∀ n < 2048, r.latch.extractLsb' (8 * n) 8 = mergedByte s q.2 k (row q.1) n) ∧
        ∀ o : Fin 16, o ≠ k → ((u.bank q.2).w[o]).latch = ((s.bank q.2).w[o]).latch ∧ ((u.bank q.2).w[o]).tag = ((s.bank q.2).w[o]).tag ∧
          ((u.bank q.2).w[o]).row = ((s.bank q.2).w[o]).row ∧ isBound (u.bank q.2).w[o] = isBound (s.bank q.2).w[o]) ∧
    (s.dram.wf = true → (∀ q ∈ banks, (∀ p ∈ (s.bank q.2).pend, p.grp ≠ k.val) ∧ (isDirty (s.bank q.2).w[k] = true →
        leafReady s ((s.bank q.2).w[k]).leaf (q.2, k.val) (banks.map (fun o => (o.2, k.val))) ∧
        leafOutside ((s.bank q.2).w[k]).leaf [rowAddr q.2 k.val ((s.bank q.2).w[k]).prow.toNat])) →
      ∃ u : State, exec i s = .next u ∧ ∀ q ∈ banks, ((u.bank q.2).w[k]).prow = BitVec.ofNat 12 (row q.1) ∧
        (isDirty (s.bank q.2).w[k] = true → ∀ n < 2048,
          memRead u.dram (rowAddr q.2 k.val ((s.bank q.2).w[k]).prow.toNat + n) = ((s.bank q.2).w[k]).latch.extractLsb' (8 * n) 8))

/-- WBK, PRE, PRE.D, PREA, REF, REF.Q and RSTAT in every executing bank, whatever the state of the register (04:R84-R88, R97, R100, 05:R116-R121), those that
act on write-backs where none is under way; WBK of a register bound nowhere traps with row unbound in the lowest such bank; REF of a dirty row that is open
writes it back and holds it first. -/
def Obligations.RowStates : Prop :=
  (∀ (s : State) (i : Instr), atTurn s →
    let banks := (s.venv i 4 0 0).banks
    (∀ q ∈ banks, (rowEffect (latchErrors s q.2) (s.bank q.2) i).isSome = true) → (rowEffect (fun _ => []) Bank.reset i).isSome = true ∨ (∃ k, i = .wbk k) →
    (∃ d k, i = .refQ d k ∨ i = .rstat d k) ∨ (∀ q ∈ banks, (s.bank q.2).pend = []) →
    exec i s = .next (vectorDone s 4 (overBanks s banks (fun q x => counted ((rowEffect (latchErrors s q.2) x i).getD x))))) ∧
  (∀ (s : State) (k : Fin 16), atTurn s → s.dram.wf = true →
    let banks := (s.venv (.ref k) 4 0 0).banks
    (∀ q ∈ banks, (s.bank q.2).pend = [] ∧ (s.bank q.2).xgroup = [] ∧ (isDirty (s.bank q.2).w[k] = true →
      leafReady s ((s.bank q.2).w[k]).leaf (q.2, k.val) (banks.map (fun o => (o.2, k.val))) ∧
      leafOutside ((s.bank q.2).w[k]).leaf [rowAddr q.2 k.val ((s.bank q.2).w[k]).prow.toNat])) →
    ∃ t : State, exec (.ref k) s = .next t ∧ ∀ q ∈ banks, (t.bank q.2).pend = [] ∧ ((t.bank q.2).debt[k]).toNat = ((s.bank q.2).debt[k]).toNat - 1 ∧
      (t.bank q.2).ptr[k] = (s.bank q.2).ptr[k] + 1 ∧
      (((s.bank q.2).w[k]).state = .openDirty → ((t.bank q.2).w[k]).state = .heldClean ∧ ((t.bank q.2).w[k]).latch = ((s.bank q.2).w[k]).latch ∧
        ∀ n < 2048, memRead t.dram (rowAddr q.2 k.val ((s.bank q.2).w[k]).prow.toNat + n) = ((s.bank q.2).w[k]).latch.extractLsb' (8 * n) 8)) ∧
  ∀ (s : State) (k : Fin 16) (j b : Nat) (pre post : List (Nat × Nat)), Trapping s → executing s = pre ++ (j, b) :: post →
    (∀ q ∈ pre, isBound (s.bank q.2).w[k] = true ∧ (s.bank q.2).pend = []) → isBound (s.bank b).w[k] = false → (s.bank b).pend = [] →
    ∃ t : State, exec (.wbk k) s = .next t ∧ t.thr.tr.cause = 0x0B ∧ t.thr.tr.val = BitVec.ofNat 64 (j % 256 + k.val * 2 ^ 8) ∧ t.thr.tr.vec = true ∧
      t.banks = s.banks ∧ t.dram = s.dram ∧ t.thr.resume.length = 1

/-- FENCE.ARRAY ends with every write-back that had started in the cells; FENCE.ARRAY.W with the latch of every dirty register in its row, and the register
clean (04:R104, 05:R125). Stated where no leaf entry lies in a row that is written, each entry's bit can be set at once, and no row is of the cross-group
table. -/
def Obligations.ArrayFences : Prop :=
  ∀ s : State, atTurn s → s.dram.wf = true → (∀ b, (s.bank b).xgroup = []) →
    (let banks := (s.venv .fenceArray 4 0 0).banks
     (∀ q ∈ banks, ∀ p ∈ (s.bank q.2).pend, (∀ l, p.leaf = some l → leafFree s l) ∧
       ∀ o ∈ banks, leafOutside p.leaf ((s.bank o.2).pend.map (fun r => rowAddr o.2 r.grp r.prow))) →
     (∀ q ∈ banks, (s.bank q.2).pend.Pairwise (fun p r => (p.grp, p.prow) ≠ (r.grp, r.prow)) ∧
       ∀ p ∈ (s.bank q.2).pend, p.grp < 16 ∧ p.prow < 4096) →
     ∃ t : State, exec .fenceArray s = .next t ∧ ∀ q ∈ banks, (t.bank q.2).pend = [] ∧ ∀ p ∈ (s.bank q.2).pend, ∀ n < 2048,
       memRead t.dram (rowAddr q.2 p.grp p.prow + n) = p.data.extractLsb' (8 * n) 8) ∧
    (let banks := (s.venv .fenceArrayW 4 0 0).banks
     let dirtyGroups := banks.flatMap (fun o => ((List.finRange 16).filter (fun l => isDirty (s.bank o.2).w[l])).map (fun l => (o.2, l.val)))
     (∀ q ∈ banks, (s.bank q.2).pend = [] ∧ ∀ (k : Fin 16) (l : Nat), isBound (s.bank q.2).w[k] = true → ((s.bank q.2).w[k]).leaf = some l →
       leafFree s l ∧ (l / 2 ^ 27, l / 2 ^ 23 % 16) ∉ dirtyGroups) →
     ∃ t : State, exec .fenceArrayW s = .next t ∧ ∀ q ∈ banks, (t.bank q.2).pend = [] ∧ ∀ k : Fin 16, isDirty (s.bank q.2).w[k] = true →
       isDirty (t.bank q.2).w[k] = false ∧
       ∀ n < 2048, memRead t.dram (rowAddr q.2 k.val ((s.bank q.2).w[k]).prow.toNat + n) = ((s.bank q.2).w[k]).latch.extractLsb' (8 * n) 8)

/-- RCLONE copies a row to another of its group, RZERO clears one, in every executing bank, as every byte of memory is then seen; the bytes of every other
row stay (05:R122; that dirty crown lines of the source count and lines of the destination go is the model's reading, log 61). Stated for register wk FREE,
destinations whose dirty bits the cached entries hold, and no row of the cross-group table. -/
def Obligations.RowCopies : Prop :=
  ∀ (s : State) (i : Instr) (k : Fin 16) (xd : Bool) (fd : BitVec 12) (src : Option (Bool × BitVec 12)) (td ts : Nat → Xlat) (rd rs : Nat → Nat),
    cloneOp i = some (k, xd, fd, src) → atTurn s → s.dram.wf = true → s.upsets = [] → (∀ p ∈ s.posted, awaited s p = true → p.applied = true) →
    let banks := (s.venv i 8 0 0).banks
    (∀ q ∈ banks, ((s.bank q.2).w[k]).state = .free ∧ (∀ p ∈ (s.bank q.2).pend, p.grp ≠ k.val) ∧ (s.bank q.2).xgroup = [] ∧
      keysAbove none (s.bank q.2).lines = true ∧
      rowResidueOk (s.bank q.2) xd fd ∧ RowResolves s q.1 q.2 k (rowNumber (s.bank q.2) xd fd) true (td q.1) (rd q.1) ∧
      (td q.1).bit (48 + rowAddr q.2 k.val (rd q.1) / 4096 % 16) = true ∧
      ∀ o, src = some o → rowResidueOk (s.bank q.2) o.1 o.2 ∧
        RowResolves s q.1 q.2 k (rowNumber (s.bank q.2) o.1 o.2) false (ts q.1) (rs q.1) ∧
        ∀ l ∈ (s.bank q.2).lines, l.1 / 2 ^ 4 = k.val * 2 ^ 12 + rs q.1 → l.2.dirty = false → ∀ n < 2 ^ 7,
          memRead s.dram (q.2 * 2 ^ 27 + l.1 * 2 ^ 7 + n) = l.2.data.extractLsb' (8 * n) 8) →
    ∃ t : State, exec i s = .next t ∧
      (∀ q ∈ banks, ∀ n < 2048, byteIn t (rowAddr q.2 k.val (rd q.1) + n) =
        if src = none then 0 else byteIn s (rowAddr q.2 k.val (rs q.1) + n)) ∧
      ∀ a, (∀ q ∈ banks, a / 2 ^ 11 ≠ rowAddr q.2 k.val (rd q.1) / 2 ^ 11) → byteIn t a = byteIn s a

/-- CLD moves the active elements, from VSTART up to LIVE, of a 2 KiB block into wd, CST those of a register into the block, in every executing bank; the
other elements stay, and so does every byte outside the blocks that CST writes and the rows to which CLD's wd is bound (05:R123, R124, 07:R151; that padding
elements do not move is the model's reading, log 58). -/
def Obligations.CrownMoves : Prop :=
  ∀ (s : State) (i : Instr) (r : Fin 16) (b : Fin 32) (m : Fin 16) (store : Bool) (tr : Nat → Xlat) (pa : Nat → Nat),
    i = (if store then .cst r b m else .cld r b m) → atTurn s → memoriesWf s → s.cut = none →
    (∀ p ∈ s.posted, awaited s p = true → p.applied = true) →
    let e := s.venv i 4 0 0
    let w := cfgWidth e.ctx.vlcfg
    let on (q : Nat × Nat) (n : Nat) : Bool := decide (e.vstart ≤ n ∧ n < e.live) && maskOn (s.bank q.2) m w n
    e.vstart < e.live → e.live ≤ e.vl → e.vl ≤ 16384 / w →
    (∀ q ∈ e.banks, addressResidueOk ((s.bank q.2).getX b) 0 ∧ CrownBlock s q.2 ((s.bank q.2).getX b).val store (tr q.1) (pa q.1) ∧
      ((s.bank q.2).w[r]).valid = true ∧ ((s.bank q.2).w[r]).poison = 0 ∧ (∀ p ∈ (s.bank q.2).pend, p.act ≠ 2) ∧
      (store = false → ((s.bank q.2).w[r]).writable = true ∨ ((s.bank q.2).w[r]).state = .free)) →
    ∃ t : State, exec i s = .next t ∧ t.front.vstart = 0 ∧
      (store = false → (∀ q ∈ e.banks, ∀ n < 16384 / w,
          getEl ((t.bank q.2).w[r]).latch w n = if on q n then memElem s (pa q.1) w n else getEl ((s.bank q.2).w[r]).latch w n) ∧
        ∀ a, ¬ inRowOf s e (some r) a → byteIn t a = byteIn s a) ∧
      (store = true → (∀ q ∈ e.banks, ∀ n < 16384 / w,
          memElem t (pa q.1) w n = if on q n then getEl ((s.bank q.2).w[r]).latch w n else memElem s (pa q.1) w n) ∧
        ∀ a, populated s a = true → (∀ q ∈ e.banks, a / 2 ^ 11 ≠ pa q.1 / 2 ^ 11) → byteIn t a = byteIn s a)

/-- Cache maintenance (13:R301-R303): CWB and CWBALL leave every line they cover clean, CWBI and CWBIALL invalid, with no byte of memory changed; CINV drops
the lines it covers without writing them back. Lines outside the range stay. That a bank-private page is passed over and that no permission is checked
are the model's readings, logs 32 and 70. -/
def Obligations.CacheMaintenance : Prop :=
  (∀ (s : State) (i : Instr) (a b : Fin 64) (wb inv : Bool) (tr : Nat → Xlat), rangeRow i = some (a, b, wb, inv) → atTurn s → s.vrun = false →
    s.cut = none → s.upsets = [] → (inv = true → wb = false → s.level = .supervisor) → s.dram.wf = true → (∀ b, LinesSettled s b ∨ 2 ^ 13 ≤ b) →
    let lo := (s.sval a).toNat
    let n := min (s.sval b).toNat (2 ^ 40)
    (∀ p < 2 ^ 36, lo ≤ p * 2 ^ 16 + 2 ^ 16 - 1 → p * 2 ^ 16 < lo + n → translate s s.asker s.thr.root (p * 2 ^ 16) = (s, .found (tr p)) ∧
      (tr p).base % 2 ^ 16 = 0 ∧ (tr p).base < 2 ^ 42) →
    ∃ t : State, exec i s = .next t ∧
      (∀ bk line, bk < 2 ^ 13 → coversLine tr lo n bk line → (inv = true → mapGet (t.bank bk).lines line = none) ∧
        (inv = false → mapGet (t.bank bk).lines line = (mapGet (s.bank bk).lines line).map (fun l => { l with dirty := false }))) ∧
      (∀ bk line, bk < 2 ^ 13 → ¬ coversLine tr lo n bk line → mapGet (t.bank bk).lines line = mapGet (s.bank bk).lines line) ∧
      (wb = true → ∀ c, byteIn t c = byteIn s c) ∧ (wb = false → t.dram = s.dram)) ∧
  ∀ (s : State) (inv : Bool), atTurn s → s.vrun = false → s.cut = none → s.upsets = [] → s.dram.wf = true → (∀ b, LinesSettled s b ∨ 2 ^ 13 ≤ b) → s.cur.bank = none → s.cur.st < 32 →
    s.cur.th < 40 →
    ∃ t : State, exec (if inv then .cwbiall else .cwball) s = .next t ∧ (∀ c, byteIn t c = byteIn s c) ∧
      ∀ q ∈ s.ownedAll, q.2 < 2 ^ 13 → (inv = true → (t.bank q.2).lines = []) ∧ (inv = false → ∀ e ∈ (t.bank q.2).lines, e.2.dirty = false)

/-- The arithmetic and the fused vector instructions (08:R178-R188): in every executing bank every active element of wd takes the result in the operation
format, rounded once, in ascending order with the LFSR chained; flags are raised; no other element, register, mask or bank changes. -/
def Obligations.ArithmeticElements : Prop := elementsCommit (fun s e x i => (arithForm s e x i).orElse (fun _ => fusedForm s e x i))

/-- The vector comparisons (08:R189, R190): the bits of md at the active elements take the truth of the condition, every other bit stays; a NaN raises NV
where the condition orders, else only a signalling one. Bitwise instructions, shifts, VSEL, VSPLAT and VIOTA (08:R176, R177, R191-R194). VCVT, VCVT.MX,
VQNT.MX and VLUT (08:R195-R198, 09:R207), part by part; a conversion between equal formats as log 33 reads it. -/
def Obligations.CompareBitConvertElements : Prop :=
  elementsCommit compareForm ∧ elementsCommit (fun _ e x i => bitsForm e x i) ∧ elementsCommit convertForm

/-- A complement pair (02:R41-R43): I at the loop indices where its mask holds 1, J at the others, as one instruction (the mask read at I's
granule, the model's reading, log 14); the first alone, with cp set, is an illegal instruction. -/
def Obligations.ComplementPairs : Prop :=
  (∀ (s : State) (i j : Instr) (p q : Nat → VForm), pairOk i j = true →
    let e := s.venv (.complementPair i j) (i.len + j.len) 0 0
    AtRest s e.banks →
    (∀ o ∈ e.banks, pairForm s e (s.bank o.2) i = some (p o.2) ∧ (p o.2).ok = true ∧ pairForm s e (s.bank o.2) j = some (q o.2) ∧ (q o.2).ok = true) →
    let u := unmarkedIn s e.banks (fun o => pairWrites (s.bank o.2) e (p o.2) (q o.2))
    exec (.complementPair i j) s = .next (vectorDone s (i.len + j.len) (poisonCleared (ranAll e) (overBanks u e.banks (fun o x =>
      counted (pairCommitted x e (p o.2) (q o.2))))))) ∧
  ∀ (s : State) (i : Instr) (m : Fin 16), Trapping s → i.cpFields = some (true, m) → exec i s = .next (entered s 0x01 (wordVal i) s.front.pc)

/-- The permutes (09:R201-R206): in every executing bank an active element of wd takes the element of wa, or the value, that the rule names; every other
element stays. -/
def Obligations.PermuteResults : Prop := wholesCommit (fun _ e x i => permuteForm e x i)

/-- The reductions and the butterfly (07:R161-R163, 09:R208-R212): element 0 of wd takes the combination of the active elements with what it held, of
integers whatever the order, of floats in the order of 07:R161 or, for VTOTAL.SEQ, in ascending order; VHAD gives the sums and differences, narrowed
as the model reads it (log 90). -/
def Obligations.ReductionResults : Prop :=
  wholesCommit (fun s e x i => match totalForm s e x i with | some f => some f | none => hadamardForm s e x i)

/-- The mask instructions, the moves between masks and s registers, and the settings of tags and plane widths (09:R214-R218, 08:R175).
VMOVSM writes in the executing banks (the model's reading, log 23). VMOVMS waits for the earlier writers of its mask in the queue and for no other instruction
there (09:R216). -/
def Obligations.MaskResults : Prop :=
  (∀ (s : State) (i : Instr) (d a b : Fin 16) (f : (Nat → Bool) → (Nat → Bool) → Nat → Bool),
    let e := s.venv i 4 0 0
    maskRow (liveOf e.ctx.vlcfg) i = some (d, a, b, f) → s.cut = none → s.front.verify = false ∨ s.laneFault = none →
    exec i s = .next (vectorDone s 4 (overBanks s e.banks (fun _ x => counted (withMask x d (maskFrom (f (maskOn x a 8) (maskOn x b 8)))))))) ∧
  (∀ (s : State) (d : Fin 64) (o : BitVec 5) (m : Fin 16), o.toNat ≤ 4 → maskPending s m = false → s.front.verify = false ∨ s.laneFault = none →
    (o.toNat = 4 → executing s ≠ []) →
    exec (.vmovms d o m) s = .next (complete 4 (s.setS d (formed (maskSummary s (executing s) o.toNat m))))) ∧
  (∀ (s : State) (a : Fin 64) (m : Fin 16),
    let e := s.venv (.vmovsm a m) 4 a 0
    s.cut = none → s.front.verify = false ∨ s.laneFault = none →
    exec (.vmovsm a m) s = .next (vectorDone s 4 (overBanks s e.banks (fun _ x => counted (withMask x m (e.ctx.sa.setWidth 2048)))))) ∧
  (∀ (s : State) (d t : Fin 16),
    let e := s.venv (.vcfg d t) 4 0 0
    s.cut = none → s.front.verify = false ∨ s.laneFault = none →
    exec (.vcfg d t) s = .next (vectorDone s 4 (overBanks s e.banks (fun _ x =>
      let r : WReg := { x.w[d] with tag := BitVec.ofNat 4 t.val }
      counted { x with w := x.w.set d r })))) ∧
  ∀ (s : State) (d a b : Fin 16) (sgn : Bool),
    exec (.vpcfg d a b sgn) s = .next (complete 4 (withFront s (fun f =>
      { f with pcfg := ⟨sgn, BitVec.ofNat 4 d.val, BitVec.ofNat 4 a.val, BitVec.ofNat 4 b.val⟩ })))

/-- The plane instructions, VTRP and VTRW (07:R164, R165, 09:R217-R222): the active elements of the destination's planes, or of wd, take the result modulo
the destination's width; every other bit stays. -/
def Obligations.PlaneResults : Prop := wholesCommit (fun _ e x i => planeForm e x i)

/-- MZERO, MLD, MLD.P, MST, MST.P, MSCALE and PFOLD (11:R250, R252, R255-R257, R262), and MCHK where every checksum row agrees (11:R258), in every executing
bank, VSTART unchanged; a mismatch that MCHK finds clears the tile in every executing bank and traps, with SPROG naming the tile. -/
def Obligations.TileInstructions : Prop :=
  (∀ (s : State) (i : Instr) (regs : List (Fin 16)) (need : Bool) (g : Nat → Bank → Bank),
    let e := s.venv i i.len 0 0
    (∃ x r, indivisible s x i = some r) → AtRest s e.banks →
    (∀ q ∈ e.banks, indivisible s (s.bank q.2) i = some (true, regs, need, g q.2)) →
    let v := if storesRow i then unmarkedIn s e.banks (fun _ => regs) else s
    let u := overBanks v e.banks (fun q x => counted (g q.2 (arrived x regs)))
    ∃ done, exec i s = .next (vectorKept s e i.len (if need = true ∧ e.banks ≠ [] then poisonCleared done u else u))) ∧
  (∀ (s : State) (t : Fin 4),
    let e := s.venv (.mchk t) 4 0 0
    (∀ q ∈ e.banks, ∀ r < 64, rowTotal (s.bank q.2) t r = getEl (s.bank q.2).q[t] 32 r) →
    exec (.mchk t) s = .next (vectorKept s e 4 (overBanks s e.banks (fun _ x => counted x)))) ∧
  ∀ (s : State) (t : Fin 4) (j b r : Nat) (pre post : List (Nat × Nat)), Trapping s → executing s = pre ++ (j, b) :: post → r < 64 →
    (∀ q ∈ pre, ∀ o < 64, rowTotal (s.bank q.2) t o = getEl (s.bank q.2).q[t] 32 o) → rowTotal (s.bank b) t r ≠ getEl (s.bank b).q[t] 32 r → (∀ o < r, rowTotal (s.bank b) t o = getEl (s.bank b).q[t] 32 o) →
    ∃ u : State, exec (.mchk t) s = .next u ∧ u.thr.tr.cause = 0x11 ∧ u.thr.tr.val = BitVec.ofNat 64 (j % 256 + t.val * 2 ^ 8 + r * 2 ^ 10) ∧
      u.thr.tr.vec = true ∧ u.thr.front.sprog = ⟨true, 0, false, false, false, BitVec.ofNat 2 t.val, 0, 0, 0⟩ ∧ u.dram = s.dram ∧
      ∀ q ∈ executing s, (u.bank q.2).t[t] = 0 ∧ (u.bank q.2).q[t] = 0 ∧
        ∀ o : Fin 4, o ≠ t → (u.bank q.2).t[o] = (s.bank q.2).t[o] ∧ (u.bank q.2).q[o] = (s.bank q.2).q[o]

/-- MOPA, MOPS and their MX forms (10:R225-R231, R244, 11:R253, R254): VL ÷ 64 rank-1 updates from VSTART ÷ 64 on, in every executing bank; the flags of
their roundings are raised; VSTART is 0. -/
def Obligations.MatrixSteps : Prop :=
  ∀ (s : State) (i : Instr) (p : Nat → Update),
    let e := s.venv i 4 0 0
    (∃ x, (stepForm e x i).isSome = true) → AtRest s e.banks → (∀ q ∈ e.banks, stepForm e (s.bank q.2) i = some (true, p q.2)) →
    let ran (n : Nat) : Bool := decide (64 * (e.vstart / 64) ≤ n ∧ n < 64 * (e.vl / 64))
    exec i s = .next (vectorDone s 4 (poisonCleared ran (overBanks s e.banks (fun q x =>
      let u := p q.2
      counted (u.run (matrixCtl s) (e.vstart / 64) (e.vl / 64) (arrived x ([u.a, u.b] ++ (u.scales.map (fun m => m.1)).toList)))))))

/-- PEXP gathers exponents, PSPLIT writes slices, PMMA multiplies slices weight by weight and folds each weight into the FP64 pair, from the start or from
SPROG, leaving the integer tile, its checksum row and SPROG zero (10:R233-R245, 11:R259-R261); resumed with VSTART at or above LIVE it commits nothing
(20:R434). -/
def Obligations.PinnateResults : Prop :=
  wholesCommit (fun _ e x i => pinnateForm e x i) ∧
  ∀ (s : State) (tp : Bool) (ti : Fin 4) (a b c w : Fin 16) (S : Fin 8) (full ck : Bool) (m : Fin 16), ti ≠ evenTile tp → ti ≠ oddTile tp →
    let e := s.venv (.pmma tp ti a b c w S full ck m) 8 0 0
    let p : Pinnate := ⟨tp, ti, a, b, c, w, S.val, full, ck, m, e.vl / 64, ranAll e⟩
    let sp := s.front.sprog
    AtRest s e.banks → e.vl % 64 = 0 → e.vl ≤ 2048 → p.resumable sp → (∀ q ∈ e.banks, p.operandsOk (s.bank q.2)) →
    let regs := planesOf a S.val ++ planesOf b S.val ++ [c, w]
    let none? := decide (e.vl = 0 ∨ S.val = 0) || spent e
    (none? = false → ∀ q ∈ e.banks, (p.whole sp (s.bank q.2)).2 = true) →
    let cleared (u : State) : State := withFront u (fun f => { f with sprog := SProg.reset })
    ∃ done, exec (.pmma tp ti a b c w S full ck m) s = .next (vectorDone s 8 (cleared (
      if none? then overBanks s e.banks (fun _ x => counted (arrived x regs))
      else poisonCleared done (overBanks s e.banks (fun _ x => counted (p.whole sp (arrived x regs)).1)))))

/-- The gallery moves and reduces (12:R264-R266, 13:R287-R290): rotation, broadcast, permutation by table, exchange with a partner; the combination of the
executing banks' elements, which the bank at position 0 takes. No other register, bank or memory byte changes. -/
def Obligations.GalleryResults : Prop :=
  (∀ (s : State) (i : Instr) (d a m : Fin 16) (src : Nat → Option (Option Nat)),
    let e := s.venv i 4 0 0
    moveRow s e i = some (d, a, m, src) → AtRest s e.banks → e.ctx.vlcfg.fmt ≠ 15 →
    (∀ q ∈ e.banks, galleryOk e (s.bank q.2) d a = true ∧ ((src (positionOf e q)).isSome = true → mayWrite e (s.bank q.2) d = true)) →
    let u := unmarkedIn s e.banks (fun q => if (src (positionOf e q)).isSome && anyActive e (s.bank q.2) m then [d] else [])
    ∃ done, exec i s = .next (vectorDone s 4 (poisonCleared done (overBanks u e.banks (fun q x => counted (moved s e x d a m (src (positionOf e q)))))))) ∧
  ∀ (s : State) (i : Instr) (g : Gather),
    let e := s.venv i 4 0 0
    gatherRow i = some g → AtRest s e.banks → (e.banks ≠ [] → gatherOk g e.ctx.vlcfg.fmt = true) →
    (∀ q ∈ e.banks, galleryOk e (s.bank q.2) g.d g.a = true ∧ (positionOf e q = 0 → mayWrite e (s.bank q.2) g.d = true)) →
    let v := unmarkedIn s e.banks (fun q => if positionOf e q = 0 && anyActive e (s.bank q.2) g.m then [g.d] else [])
    let u := overBanks v e.banks (fun q x => counted (if positionOf e q = 0 then gathered s e g x else arrived x [g.a, g.d]))
    ∃ done, exec i s = .next (vectorDone s 4 (if e.banks = [] then u else poisonCleared done u))

/-- The far operations (12:R274-R276, 13:R291-R300): loads bring the bytes at their elements' addresses into wd; stores, scatters, scatter-adds and atomics
are applied element by element, the old values returning where asked and the flags of sums being raised; without return the elements are posted. The order
among banks is the model's (log 67). Stated for elements outside the rows of the instruction's own registers, with no posted element of the thread
outstanding, no invalidation that stops it within (13:R295), and, where it resumes, none lost to poison before. -/
def Obligations.FarResults : Prop :=
  ∀ (s : State) (i : Instr) (r : FarRow) (x : Nat → Nat → Xlat) (pa : Nat → Nat → Nat),
    let e := s.venv i 8 0 0
    let w := 8 * r.bytes
    let on (q : Nat × Nat) (n : Nat) : Bool := activeAt e (s.bank q.2) r.m w n
    farRow i = some r → i.wf = true → AtRest s e.banks → memoriesWf s → (∀ p ∈ s.posted, p.thread ≠ s.tid) →
    (∀ q ∈ e.banks, r.ok e (s.bank q.2) = true) → FarReaches s e r x pa → e.vstart = 0 ∨ s.front.lost = none → s.farStop = none →
    let sent (u : State) : State := withFront { u with tick := s.tick + 1 } (fun f => { f with lost := none })
    (r.load = true → ∃ u : State, AccessFrame s u ∧
      exec i s = .next (vectorDone s 8 (poisonCleared (ranAll e) (overBanks (sent u) e.banks (fun _ y => counted (arrived y r.regs))))) ∧
      (∀ d, r.d = some d → ∀ q ∈ e.banks, ∀ n < 16384 / w,
        rowEl (u.bank q.2) d w n = if on q n then bytesIn s (pa q.2 n) r.bytes else rowEl (s.bank q.2) d w n) ∧
      ∀ a, ¬ inRowOf s e r.d a → byteIn u a = byteIn s a) ∧
    (r.load = false → r.nr = false →
      let z := (r.elements s e pa).foldl r.apply ⟨byteIn s, []⟩
      let raised (q : Nat × Nat) : BitVec 5 := z.olds.foldl (fun (f : BitVec 5) o => if o.1.bank = q.2 then f ||| o.2.2 else f) 0
      ∃ u : State, AccessFrame s u ∧
        exec i s = .next (vectorDone s 8 (poisonCleared (ranAll e) (overBanks (sent u) e.banks (fun q y =>
          counted { arrived y r.regs with flags := y.flags ||| raised q })))) ∧
        (∀ a, ¬ (r.ret = true ∧ inRowOf s e r.d a) → byteIn u a = z.mem a) ∧
        ∀ d, r.ret = true → r.d = some d → (∀ o ∈ z.olds, rowEl (u.bank o.1.bank) d w o.1.n = o.2.1) ∧
          ∀ q ∈ e.banks, ∀ n < 16384 / w, on q n = false → rowEl (u.bank q.2) d w n = rowEl (s.bank q.2) d w n) ∧
    (r.nr = true →
      let posts := (r.elements s e pa).map (fun el => farPosted s r x el)
      exec i s = .next (vectorDone s 8 (poisonCleared (ranAll e) (overBanks (sent { s with posted := s.posted ++ posts }) e.banks (fun _ y =>
        counted (arrived y r.regs))))))

/-- A page walk takes the four levels from the root and caches the leaf's translation, with ACCESSED set in the entry and no other byte changed (19:R414-R416,
R421, R425): in the stack TLB, that of a bank-private page in the row cache of the bank that holds it alone, where one does (19:R420). An access whose walk
meets a table that cannot be read gets an access fault, one whose walk meets an entry that is not valid a page fault (19:R418). Stated for leaves without BIG.
-/
def Obligations.PageWalks : Prop :=
  (∀ (s : State) (st : Fin 32) (th : Fin 40) (va : Word) (i : TaskInfo) (t : Nat → Nat),
    (s.thread (st.val * 40 + th.val)).task = some i → va.toNat < 2 ^ 52 → memoriesWf s →
    let page := va.toNat / 2 ^ 16
    let la := t 0 + 8 * (page % 512)
    let e := walkEntry s page t 0
    let base := e / 2 ^ 16 % 2 ^ 26 * 2 ^ 16
    let kept : Option Cache := if e / 2 ^ 9 % 2 = 0 then some (.tlb st.val) else match windowOf base with
      | .dram => some (.row (base / 2 ^ 27))
      | .scratch => some (.row (scratchBank base))
      | _ => none
    (∀ c, kept = some c → (s.xlat.filter (fun x => decide (x.cache = c))).length < (if e / 2 ^ 9 % 2 = 1 then 64 else 4096)) →
    (∀ x ∈ s.xlat, ¬ (x.root = i.root ∧ x.page / 32 = page / 32)) → WalkDown s i.root page t 0 → tableReadable s page t 0 → validLeaf e → e / 2 ^ 10 % 2 = 0 →
    (windowOf base = .control → e / 2 ^ 5 % 2 = 0) →
    ∃ u : State, exec (.pageWalk st th va) s = .next u ∧ AccessFrame s { u with xlat := s.xlat, ptrs := s.ptrs, tick := s.tick } ∧
      u.xlat = kept.toList.map (fun c => ⟨c, i.root, page, la, BitVec.ofNat 64 (e ||| 2 ^ 6), base, none, false⟩) ++ s.xlat ∧
      bytesIn u la 8 = e ||| 2 ^ 6 ∧ ∀ a, ¬ (la ≤ a ∧ a < la + 8) → byteIn u a = byteIn s a) ∧
  ∀ (s : State) (a : Asker) (root : Word) (va : Nat) (t : Nat → Nat) (n : Nat),
    let page := va / 2 ^ 16
    (∀ x ∈ s.xlat, ¬ (x.root = root ∧ x.page / 32 = page / 32)) → WalkDown s root page t n →
    ((windowOf (t n) ≠ .dram ∨ populated s (t n) = false) → (translate s a root va).2 = .fault 0x08) ∧
    (tableReadable s page t n → 1 ≤ n → (let e := walkEntry s page t n
      e % 2 = 0 ∨ e / 2 % 2 ≠ 0 ∨ e / 4 % 2 ^ 10 ≠ 0 ∨ 2 ^ 42 ≤ e) → (translate s a root va).2 = .fault 0x06) ∧
    (tableReadable s page t n → n = 0 → ¬ validLeaf (walkEntry s page t 0) → (translate s a root va).2 = .fault 0x06)

/-- The steps of a bank controller: a latch becomes valid (05:R113), a write-back commits (04:R84, R104), an array demand acts (04:R88), a crown line is
evicted (12:R268), and the retention debt is raised and refreshed (04:R98-R102), where a dirty row is open with no other row's latch at stake; the deadline's
trap is the owner's, at a boundary with no hard pre-emption to go first (04:R100, 20:R435). -/
def Obligations.ControllerSteps : Prop :=
  ∀ (s : State) (st : Fin 32) (bk : Fin 256) (k : Fin 16),
    let b := st.val * 256 + bk.val
    let x := s.bank b
    let owned := (ownerOf s st.val bk.val).isSome
    (let r : WReg := { x.w[k] with valid := true }
     exec (.latchValid st bk k) s = .next (withBank s b (fun y => { y with w := y.w.set k r }))) ∧
    ((∀ p ∈ x.pend, p.grp ≠ k.val) → exec (.writeBackCommit st bk k) s = .next s) ∧
    (∀ pre p post, x.pend = pre ++ p :: post → (∀ o ∈ pre, o.grp ≠ k.val) → p.grp = k.val → p.prow < 2 ^ 12 → p.act ≤ 2 → s.dram.wf = true → x.xgroup = [] →
      leafOutside p.leaf [rowAddr b k.val p.prow] →
      (∀ l, p.leaf = some l → if (l / 2 ^ 27, l / 2 ^ 23 % 16) = (b, k.val)
        then (∀ o ∈ pre ++ post, o.grp ≠ k.val) ∧ (x.w[k]).state ≠ .openClean ∧ (x.w[k]).state ≠ .openDirty else leafFree s l) →
      ∃ t : State, exec (.writeBackCommit st bk k) s = .next t ∧
        (∀ n < 2048, memRead t.dram (rowAddr b k.val p.prow + n) = p.data.extractLsb' (8 * n) 8) ∧
        (t.bank b).pend.map (fun o => { o with live := false }) = (pre ++ post).map (fun o => { o with live := false }) ∧
        (isBound x.w[k] = true → (x.w[k]).prow.toNat = p.prow →
          ((t.bank b).w[k]).state = (if p.act = 2 then .free else afterCommit p (x.w[k]).state) ∧
          ((t.bank b).w[k]).latch = (if p.act = 2 then p.data else (x.w[k]).latch) ∧ ((t.bank b).w[k]).tag = (x.w[k]).tag)) ∧
    ((∀ p ∈ x.pend, p.grp ≠ k.val) → (x.w[k]).state ≠ .openDirty →
      exec (.arrayDemand st bk k) s = .next (if (x.w[k]).state = .openClean then withBank s b (fun y => demandedBank y k) else s)) ∧
    ((∀ p ∈ x.pend, p.grp ≠ k.val) → (x.w[k]).state = .openDirty → s.dram.wf = true → x.xgroup = [] →
      leafOutside (x.w[k]).leaf [rowAddr b k.val (x.w[k]).prow.toNat] → leafReady s (x.w[k]).leaf (b, k.val) [] →
      ∃ t : State, exec (.arrayDemand st bk k) s = .next t ∧ ((t.bank b).w[k]).state = .heldClean ∧ ((t.bank b).w[k]).latch = (x.w[k]).latch ∧
        ∀ n < 2048, memRead t.dram (rowAddr b k.val (x.w[k]).prow.toNat + n) = (x.w[k]).latch.extractLsb' (8 * n) 8) ∧
    (∀ line, (mapGet x.lines line = none → exec (.crownLineEviction st bk line) s = .next s) ∧
      ((mapGet x.lines line).isSome = true → LinesSettled s b → s.upsets = [] → s.dram.wf = true →
        ∃ t : State, exec (.crownLineEviction st bk line) s = .next t ∧ mapGet (t.bank b).lines line = none ∧
          (∀ o, o ≠ line → mapGet (t.bank b).lines o = mapGet x.lines o) ∧ (t.bank b).presence = x.presence ∧ ∀ c, byteIn t c = byteIn s c)) ∧
    ((owned = true ∧ ∀ g : Fin 16, (x.debt[g]).toNat < 12) ∨ (x.pend = [] ∧ ∀ g : Fin 16, (x.w[g]).state ≠ .openDirty) →
      ∃ t : State, exec (.retentionTick st bk) s = .next t ∧ t = { s with banks := t.banks } ∧ (∀ c, c ≠ b → t.bank c = s.bank c) ∧
      (t.bank b).debt[k] = (if owned then (if (x.debt[k]).toNat < 12 then x.debt[k] + 1 else 5) else 1) ∧
      (owned = true → (x.debt[k]).toNat < 12 → (t.bank b).deadline.getLsbD k.val = (x.deadline.getLsbD k.val || decide (x.debt[k] = 7))) ∧
      ((t.bank b).w[k]).latch = (x.w[k]).latch) ∧
    (if (x.debt[k]).toNat < 12 then exec (.forcedRefresh st bk k) s = .next s
     else ∃ t : State, exec (.forcedRefresh st bk k) s = .next t ∧ (t.bank b).debt[k] = 4 ∧
       ((∀ p ∈ x.pend, p.grp ≠ k.val) → (x.w[k]).state ≠ .openDirty →
        let y := demandedBank x k
        let p := x.ptr[k] + BitVec.ofNat 8 ((x.debt[k]).toNat - 4)
        onlyBank s t b { y with debt := x.debt.set k 4, ptr := x.ptr.set k p })) ∧
    (if owned then exec (.backgroundRefresh st bk k) s = .next s
     else (∀ p ∈ x.pend, p.grp ≠ k.val) → (x.w[k]).state ≠ .openDirty →
       ∃ t : State, exec (.backgroundRefresh st bk k) s = .next t ∧ onlyBank s t b (refreshedBank x k)) ∧
    ∀ (th : Fin 40) (v : State) (j : Nat), v = s.switchTo st.val th.val none → v.thr.cond = .running → v.thr.tr.busy = false →
      (v.thr.hardReq = false ∨ v.thr.handlers ≠ []) → v.ownedAll.find? (fun q => q.2 == b) = some (j, b) → x.deadline.getLsbD k.val = true →
      exec (.retentionDeadline st th bk k) s =
        .next ((entered (withBank v b (fun y => { y with deadline := y.deadline &&& ~~~ (BitVec.ofNat 16 (2 ^ k.val)) })) 0x13
          (BitVec.ofNat 64 (j + k.val * 2 ^ 8 + (x.debt[k]).toNat * 2 ^ 12)) v.thr.front.pc).switchTo s.cur.st s.cur.th s.cur.bank)

/-- Posted far elements reach memory one at a time, none before an older one that it must follow (13:R295, R297, 14:R310, R312), those of a scatter-add with
the others of the instruction at their address (12:R275); an acknowledgement brings
a sum's flags, or the loss of an element whose word was poisoned, to the bank that issued it (13:R296, R298). -/
def Obligations.PostedElementsApply : Prop :=
  ∀ (s : State) (n : Nat) (p : Posted), s.posted[n]? = some p →
    (p.applied = false → (∃ (m : Nat) (q : Posted), m < n ∧ s.posted[m]? = some q ∧ q.applied = false ∧ comesBefore q p) → exec (.farElementApply n) s = .next s) ∧
    (p.applied = false → (∀ (m : Nat) (q : Posted), m < n → s.posted[m]? = some q → q.applied = false → ¬ comesBefore q p) → Lands s p → memoriesWf s →
      (p.op = 0 ∨ p.op = 1 ∨ (16 ≤ p.op ∧ p.op ≤ 26)) → (p.op = 1 → sumTag p.bytes p.fmt = true) → (p.op = 17 → p.bytes = 4) →
      (p.op = 1 → ∀ (m : Nat) (q : Posted), m ≠ n → s.posted[m]? = some q → ¬ (q.op = 1 ∧ q.group = p.group ∧ q.bank = p.bank ∧ q.pa = p.pa)) →
      let old := bytesIn s p.pa p.bytes
      let w := 8 * p.bytes
      let new : Nat × BitVec 5 := if p.op = 0 then (p.v.toNat, 0) else farNew p.op p.fmt p.bytes old (p.v.toNat % 2 ^ w) (p.c.toNat % 2 ^ w)
      let bad := decide (p.op ≠ 0) && poisonIn s p.pa
      ∃ t : State, exec (.farElementApply n) s = .next t ∧ AccessFrame s { t with posted := s.posted } ∧
        t.posted = s.posted.set n { p with applied := true, flags := if bad then 0 else new.2, lost := bad } ∧
        (bad = true → ∀ a, byteIn t a = byteIn s a) ∧ (bad = false → stored s t p.pa p.bytes new.1 p.leaf.due)) ∧
    (p.applied = false → (∀ (m : Nat) (q : Posted), m < n → s.posted[m]? = some q → q.applied = false → ¬ comesBefore q p) → p.op = 1 →
      ∃ t : State, exec (.farElementApply n) s = .next t ∧ ∀ (m : Nat) (q : Posted), s.posted[m]? = some q → q.op = 1 → q.group = p.group → q.bank = p.bank → q.pa = p.pa →
        ∃ r : Posted, t.posted[m]? = some r ∧ r.applied = true) ∧
    (p.applied = true → exec (.farAcknowledgement n) s =
      .next { withBank s p.bank (fun x => { x with flags := x.flags ||| p.flags, ploss := x.ploss || p.lost }) with posted := s.posted.eraseIdx n })

/-- Every task of a stack can be pre-empted at once: it owes no resumed instruction, its banks have free save slots and are no other task's (16:R360, R371,
20:R441). -/
def allMayStop (s : State) (st : Nat) : Prop :=
  ∀ th < 40, (s.thread (st * 40 + th)).task.isSome = true → s.mayStop (st * 40 + th) = true ∧
    ∀ o < 40, o ≠ th → (s.thread (st * 40 + o)).task.isSome = true → ∀ q ∈ ownedBy s st th, q ∉ ownedBy s st o

/-- Repair and retirement: a row that is repaired takes the next spare of its group, else of the lowest other group that has one (the model's choice, log
109) through the cross-group table (03:R71-R74, 21:R447; that such a repair can be asked for at any time is its reading, log 140); a suspect lane
group leaves service, the third with its bank (21:R458); a bank that is due moves to its slab's spare, else its block or its addresses leave service, its
tasks pre-empted first (21:R460-R462); a copy that completes hands the bank to the spare (21:R461). -/
def Obligations.RepairsAndRetirements : Prop :=
  ∀ (s : State) (st : Fin 32) (bk : Fin 256),
    let b := st.val * 256 + bk.val
    let x := s.bank b
    let inPlace := (s.stack st.val).excluded = false ∧ x.retired = false ∧ x.moving = false ∧ x.gone = false ∧ allMayStop s st.val
    let full (g : Nat) : Prop := 24 ≤ sparesTaken x g ∧ ((∀ h < 16, 24 ≤ sparesTaken x h) ∨ 16 ≤ x.xgroup.length)
    let spareFree := (s.stack st.val).spareUsed.getLsbD (bk.val / 16) = false
    (∀ (k : Fin 16) (row : BitVec 12), let key := k.val * 2 ^ 12 + row.toNat
      let served (y : Bank) : Bank := { y with repairDue := y.repairDue.filter (fun a => a != key), corrected := y.corrected.filter (fun a => a != key) }
      (sparesTaken x k.val < 24 → exec (.rowRepair st bk k row) s =
        .next (withBank s b (fun y => repairWaits { served y with repairs := mapSet y.repairs key (sparesTaken y k.val) } k row.toNat))) ∧
      (∀ g < 16, 24 ≤ sparesTaken x k.val → sparesTaken x g < 24 → (∀ h < g, 24 ≤ sparesTaken x h) → x.xgroup.length < 16 →
        exec (.rowRepair st bk k row) s =
          .next (withBank s b (fun y => repairWaits { served y with xgroup := mapSet y.xgroup key (g * 24 + sparesTaken y g) } k row.toNat))) ∧
      (full k.val → inPlace → ∃ t : State, exec (.rowRepair st bk k row) s = .next t ∧
        (if spareFree then (t.bank b).moving = true else (t.bank b).gone = true)) ∧
      (x.copying.contains key = true → ∃ t : State, exec (.repairCopyComplete st bk k row) s = .next t ∧ t.dram = s.dram ∧ (t.bank b).repairs = x.repairs ∧
        (t.bank b).copying = x.copying.filter (fun a => a != key))) ∧
    (∀ g < 9, suspected x g = true → (∀ h < g, suspected x h = false) →
      (x.quarantined.length < 2 → exec (.laneQuarantine st bk) s =
        .next (withBank s b (fun y => { y with quarantined := y.quarantined ++ [g], blames := y.blames.filter (fun e => e.1 != g) }))) ∧
      (x.quarantined.length = 2 → inPlace → ∃ t : State, exec (.laneQuarantine st bk) s = .next t ∧
        (if spareFree then (t.bank b).moving = true else (t.bank b).retired = true ∧ (t.bank b).gone = false))) ∧
    (∀ arr : Bool, inPlace → (if arr then ∃ g < 16, full g ∧ (s.boot.ready = false ∨ ∃ key ∈ x.repairDue, key / 2 ^ 12 = g) else x.suspect = true ∨ 3 ≤ x.quarantined.length) →
      ∃ t : State, exec (.bankRetirement st bk arr) s = .next t ∧
        (if spareFree then (t.bank b).moving = true ∧ (t.bank b).retired = false ∧ (t.stack st.val).spareUsed.getLsbD (bk.val / 16) = true
         else (t.bank b).retired = true ∧ (t.bank b).gone = arr)) ∧
    (x.moving = true → ∃ t : State, exec (.bankCopyComplete st bk) s = .next t ∧ t.dram = s.dram ∧ ((∀ e ∈ s.latent, e.1 / 2 ^ 22 ≠ b) → s.upsets = [] →
      t = withBank s b (fun y =>
        { y with moving := false, spare := true, quarantined := [], blames := [], ckMiss := [], suspect := false, repairs := [], xgroup := [], pendRepair := [],
                 copying := [], corrected := [], repairDue := [] })))

/-- Word n of a list of operands. -/
def nthWord (o : List Word) (n : Nat) : Nat := ((o[n]?).getD 0).toNat

/-- An OP of the table with the number of operand words it takes (12:R279, R286, 23:R484). -/
def commandKnown (h : Word) : Bool :=
  let n := fieldOf h 55 53
  match fieldOf h 63 56 with
  | 1 | 2 => n == 4
  | 3 => n == 5
  | 4 => n == 6
  | 5 => decide (1 ≤ n)
  | 6 => n == 2
  | _ => false

/-- A command gives no BADCMD: a known OP and N, reserved fields zero, lengths in range, addresses aligned as its layout says (12:R278, R279, R286, 23:R484). -/
def commandGood (h : Word) (o : List Word) : Bool :=
  let w := nthWord o
  let aligned := w 3 % 8 == 0
  let field (n hi lo : Nat) : Nat := fieldOf (BitVec.ofNat 64 (w n)) hi lo
  commandKnown h && fieldOf h 51 48 == 0 && fieldOf h 31 0 == 0 &&
  match fieldOf h 63 56 with
  | 1 => aligned && decide (1 ≤ w 2 ∧ w 2 ≤ 2 ^ 40)
  | 2 => aligned && decide (field 1 63 60 = 0 ∧ field 2 62 41 = 0 ∧ 1 ≤ field 2 40 0 ∧ field 2 40 0 ≤ 2 ^ 40)
  | 3 => aligned && decide (w 0 % 2 ^ 12 = 0 ∧ field 1 63 60 = 0 ∧ w 2 % 2 ^ 12 = 0 ∧ field 4 63 5 = 0)
  | 4 =>
    let tag := field 2 59 56
    let e := tagWidth (BitVec.ofNat 4 tag) / 8
    aligned && decide ((tag = 4 ∨ tag = 5 ∨ tag = 10 ∨ tag = 11 ∨ tag = 12) ∧ field 1 63 60 = 0 ∧ field 2 63 60 = 0 ∧ field 2 55 41 = 0 ∧
      field 2 40 0 % e = 0 ∧ w 0 % e = 0 ∧ field 1 33 0 % e = 0 ∧ field 4 63 34 = 0 ∧ w 4 % 8 = 0)
  | 5 => decide (field 0 63 6 = 0)
  | _ => w 0 % 8 == 0

/-- The word whose address a command's start checks: WAITCW's, or the completion word of the copy commands, 0 for none (12:R279). -/
def startWord (h : Word) (o : List Word) : Nat :=
  if commandKnown h = false then 0
  else if fieldOf h 63 56 = 6 then nthWord o 0 else if fieldOf h 63 56 = 5 then 0 else nthWord o 3

/-- The status that a good command has at its start: BADADDR for a node that no remote command may name, AUTHFAIL for a PRECOPY without its key (23:R480, R486). -/
def startStatus (s : State) (h : Word) (o : List Word) : Option (BitVec 8) :=
  let op := fieldOf h 63 56
  let node := fieldOf (BitVec.ofNat 64 (nthWord o 1)) 59 40
  if (2 ≤ op ∧ op ≤ 4) ∧ (s.nodecfg.getLsbD 63 = false ∨ 2 ^ 19 ≤ node ∨ node = fieldOf s.nodecfg 19 0) then some 3
  else if op = 3 ∧ s.keys[idx16 (nthWord o 4 % 2 ^ 4)] = none then some 5 else none

/-- The engine commands on this module: a queue at rest takes the oldest whole command of its FIFO and checks it before any other access of it, BADCMD going
first, then BADADDR for the word it names (12:R279); COPY moves up to 4,096 bytes a piece, each source word read once and each destination word written once
(12:R279, R280, 14:R323, R324; the piece's size is the model's choice, log 71); WAITCW ends when its word is not zero, or at its limit (12:R279); a program's
steps copy, fill, wait, store and add, and it ends with OK after its last (12:R284-R286); a command with a status writes its completion word, gives its result
word to its task, and raises PENDq where asked (12:R280-R282). -/
def Obligations.EngineCommands : Prop :=
  (∀ (s : State) (st : Fin 32) (q : Fin 64) (own : QOwner) (h : Word) (o : List Word) (rest : List (Word × QOwner)),
    (engineOf s st.val q).run = none → (engineOf s st.val q).held = none →
    (engineOf s st.val q).fifo = (h :: o).map (fun w => (w, own)) ++ rest → o.length = fieldOf h 55 53 →
    let begun (status : Option (BitVec 8)) (ops : List Word) : State :=
      let e : EngQ := ⟨rest, some ⟨(engineOf s st.val q).started, BitVec.ofNat 8 (fieldOf h 63 56), h, ops, 0, 0, 0, [], [], status, [], [], own⟩, none,
        (engineOf s st.val q).started + 1⟩
      withStack s st.val (fun k => { k with engines := k.engines.set q e })
    let i := if fieldOf h 63 56 = 6 then Instr.copy st q else .waitcw st q
    let cw := startWord h o
    (cw = 0 ∨ cw % 8 ≠ 0 → exec i s = .next (begun (if commandGood h o then startStatus s h o else some 4) (if commandKnown h then o else o.set 3 0))) ∧
    (cw ≠ 0 → cw % 8 = 0 → (∃ y, UnitRange s st.val own cw 8 (decide (fieldOf h 63 56 ≠ 6)) y) →
      exec i s = .next (begun (if commandGood h o then startStatus s h o else some 4) o)) ∧
    (cw ≠ 0 → cw % 8 = 0 → (2 ^ 52 ≤ cw ∨ ∃ y, translate s (unitAsker st.val) own.root cw = (s, .found y) ∧
        (y.bit 9 = true ∨ (own.level = .user ∧ y.bit 5 = false) ∨ y.bit (if fieldOf h 63 56 = 6 then 2 else 3) = false ∨ windowOf (y.pa cw) = .control ∨
          populated s (y.pa cw) = false)) →
      exec i s = .next (begun (some (if commandGood h o then 3 else 4)) (o.set 3 0)))) ∧
  ∀ (s : State) (st : Fin 32) (q : Fin 64) (r : Running), runs s st q r → memoriesWf s →
    (r.op = 1 → r.status = none → ∀ x y : Nat → Xlat,
      let len := (operand r 2).toNat
      let src := (operand r 0).toNat
      let to_ := (operand r 1).toNat + r.pos
      let stop := pieceStop (operand r 1).toNat r.pos len
      let l := pieceBytes s r x src r.pos (readStop src stop len)
      r.pos ≤ len → PieceSource s st.val r src r.pos (readStop src stop len) x → UnitRange s st.val r.own to_ (stop - r.pos) true y →
      distinct s y to_ (stop - r.pos) →
      ∃ t : State, exec (.copy st q) s = .next t ∧ written s t y to_ (stop - r.pos) (fun i => (l[i]?).getD 0) ∧
        (engineOf t st.val q).run = some (
          let r' : Running := { r with pos := stop, carry := keptOf (l.drop (stop - r.pos)) }
          if stop = len then ends { r' with done := (len + 4095) / 4096 } 1 else { r' with done := stop / 4096 })) ∧
    (r.op = 6 → r.status = none →
      (∀ x : Nat → Xlat, let va := (operand r 0).toNat
        va % 8 = 0 → UnitRange s st.val r.own va 8 false x →
        let r' : Running := if bytesIn s (unitPa x va 0) 8 = 0 then { r with pos := 1 } else ends r 1
        (∃ t : State, exec (.waitcw st q) s = .next t ∧ (engineOf t st.val q).run = some r' ∧ ∀ a, byteIn t a = byteIn s a) ∧
        (r.pos ≠ 0 → ∃ t : State, exec (.waitcwReread st q) s = .next t ∧ (engineOf t st.val q).run = some r' ∧ ∀ a, byteIn t a = byteIn s a)) ∧
      (r.pos ≠ 0 → operand r 1 ≠ 0 → exec (.waitcwTimeout st q) s = .next (withRun s st q (some (ends r 2))))) ∧
    (r.op = 5 → r.status = none →
      (fieldOf (slotReg s st r 0) 7 0 = 0 → exec (.rungel st q) s = .next (withRun s st q (some (ends r 4)))) ∧
      (programReady s st r → stepIs s st r 1 3 → ∀ x y : Nat → Xlat,
        let len := stepValue s st r 2
        let src := stepValue s st r 1
        let to_ := stepValue s st r 0 + r.pos
        let stop := pieceStop (stepValue s st r 0) r.pos len
        let l := pieceBytes s r x src r.pos (readStop src stop len)
        1 ≤ len → len ≤ 2 ^ 40 → r.pos ≤ len → PieceSource s st.val r src r.pos (readStop src stop len) x →
        UnitRange s st.val r.own to_ (stop - r.pos) true y → distinct s y to_ (stop - r.pos) →
        ∃ t : State, exec (.rungel st q) s = .next t ∧ written s t y to_ (stop - r.pos) (fun i => (l[i]?).getD 0) ∧
          (engineOf t st.val q).run = some (if stop = len then stepped s st r
            else { r with pos := stop, carry := keptOf (l.drop (stop - r.pos)) })) ∧
      (programReady s st r → stepIs s st r 3 3 → ∀ y : Nat → Xlat,
        let len := stepValue s st r 2
        let n := min (len - r.pos) 4096
        let to_ := stepValue s st r 0 + r.pos
        stepValue s st r 0 % 8 = 0 → len % 8 = 0 → 8 ≤ len → len ≤ 2 ^ 40 → r.pos % 8 = 0 → UnitRange s st.val r.own to_ n true y → distinct s y to_ n →
        ∃ t : State, exec (.rungel st q) s = .next t ∧ written s t y to_ n (fun i => byteAt (stepValue s st r 1) (i % 8)) ∧
          (engineOf t st.val q).run = some (if len ≤ r.pos + n then stepped s st r else { r with pos := r.pos + n, carry := [] })) ∧
      (programReady s st r → stepIs s st r 4 2 →
        (∀ x : Nat → Xlat, let va := stepValue s st r 0
          va % 8 = 0 → UnitRange s st.val r.own va 8 false x →
          ∃ t : State, exec (.rungel st q) s = .next t ∧ (∀ a, byteIn t a = byteIn s a) ∧
            (engineOf t st.val q).run = some (if bytesIn s (unitPa x va 0) 8 = 0 then { r with pos := 1, carry := [] } else stepped s st r)) ∧
        (r.pos ≠ 0 → stepValue s st r 1 ≠ 0 → exec (.waitnzTimeout st q) s = .next (withRun s st q (some (ends r 2))))) ∧
      (∀ add : Bool, programReady s st r → stepIs s st r (if add then 6 else 5) 2 → ∀ y : Nat → Xlat, let va := stepValue s st r 0
        va % 8 = 0 → UnitRange s st.val r.own va 8 true y → distinct s y va 8 →
        (add = true → (∀ i < 8, (y i).bit 2 = true ∧ (y i).bit 8 = true) ∧ unpoisoned s y va 8) →
        let v := if add then bytesIn s (unitPa y va 0) 8 + stepValue s st r 1 else stepValue s st r 1
        ∃ t : State, exec (.rungel st q) s = .next t ∧ written s t y va 8 (byteAt v) ∧ (engineOf t st.val q).run = some (stepped s st r))) ∧
    ∀ c : BitVec 8, r.status = some c → s.thr.task.map (fun i => i.id) = some r.own.task →
      let n : Fin 2 := ⟨q.val % 2, Nat.mod_lt _ (by decide)⟩
      let w := resultOf r c
      let done_ (u : State) : State :=
        let e : EngQ := { engineOf u st.val q with run := none, held := if (s.thr.results[n]).length < 16 then none else some (w, r.own.task) }
        let t := if (s.thr.results[n]).length < 16 then withResult u.thr q (r.hdr.getLsbD 52) w
                 else { u.thr with ui := (withResult u.thr q (r.hdr.getLsbD 52) w).ui }
        withStack { u with thr := t } st.val (fun k => { k with engines := k.engines.set q e })
      let cw := (operand r 3).toNat
      (fieldOf r.hdr 63 56 = 5 ∨ fieldOf r.hdr 63 56 = 6 ∨ operand r 3 = 0 → exec (.engineCommandCompletion st q) s = .next (done_ s)) ∧
      (1 ≤ fieldOf r.hdr 63 56 → fieldOf r.hdr 63 56 ≤ 4 → cw ≠ 0 → cw % 8 = 0 → ∀ y : Nat → Xlat, UnitRange s st.val r.own cw 8 true y →
        distinct s y cw 8 → ∃ u : State, exec (.engineCommandCompletion st q) s = .next (done_ u) ∧ u.thr = s.thr ∧ written s u y cw 8 (byteAt w.toNat))

/-- The remote commands: a unit of at most 4,096 bytes goes out in a packet, where a port reaches its node, encrypted by PRECOPY, COPY.NODE with PULL asking for
bytes, COLL's flag following the last acknowledgement of the others (23:R484-R487); HARVEST takes and clears the page's dirty bits first (19:R430, 23:R486); an
acknowledgement of one packet, a refusal, a packet that does not authenticate, the link's limit and a failed port (23:R481, R484, R488); and at the target the
export's check, the bytes written, read or combined, each packet answered where it came from, the flag written after the elements and answered then (23:R483,
R487). The model's readings: an export works at user level (log 16), where packets are cut and which one an acknowledgement answers (log 76), a COLL needs its
R and W (log 77), a PRECOPY's key slot has the same number at the target (log 78), the numbers of the ports (log 118), an export's base and size as
written (log 122). -/
def Obligations.RemoteCommands : Prop :=
  (∀ (s : State) (st : Fin 32) (q : Fin 64) (r : Running), runs s st q r → r.status = none →
    (∀ kind u, pushes r = some (kind, u) → ∀ x : Nat → Xlat,
      let src := (operand r 0).toNat
      let off := unitStart r u
      let n := unitEnd r u - off
      let upto := readStop src (off + n) (lengthOf r)
      PieceSource s st.val r src off upto x →
      ∀ key, (r.op = 3 → s.keys[idx16 (fieldOf (operand r 4) 3 0)] = some key) →
      let l := pieceBytes s r x src off upto
      let data := l.take n
      ∃ t : State, exec (remoteStep r st q) s = .next t ∧ (∀ a, byteIn t a = byteIn s a) ∧ t.thr = s.thr ∧
        t.outbox = (sentOut s (packetFor s st q r kind r.sent off n (if r.op = 3 then Config.encryptUnit key data else data))).outbox ∧
        (engineOf t st.val q).run = some { r with sent := r.sent + 1, carry := if unitThere r (u + 1) then keptOf (l.drop n) else [] }) ∧
    (r.op = 2 → (operand r 2).getLsbD 63 = true → r.sent < packetCount r → exec (.copyNode st q) s =
      .next (withRun (sentOut s (packetFor s st q r .read r.sent (unitStart r r.sent) (unitEnd r r.sent - unitStart r r.sent) [])) st q
        (some { r with sent := r.sent + 1 }))) ∧
    (harvests r = true → r.pos = 0 → ∀ x : Xlat,
      let u0 := (operand r 0).toNat / 4096
      let page := u0 / 16
      memoriesWf s → (∀ o ∈ s.posted, o.applied = true) → s.stores = [] → 4096 ≤ lengthOf r → (u0 + lengthOf r / 4096 - 1) / 16 = page → page < 2 ^ 36 → lengthOf r % 4096 = 0 →
      translate s (unitAsker st.val) r.own.root (page * 2 ^ 16) = (s, .found x) → x.base % 2 ^ 16 = 0 → (r.own.level = .user → x.bit 5 = true) → x.bit 2 = true →
      x.bit 9 = false → windowOf x.base ≠ .control → populated s x.base = true → windowOf x.leafAddr = .dram → x.leafAddr % 8 = 0 →
      Undisturbed s x.leafAddr →
      let e := bytesIn s x.leafAddr 8
      let mine := ((List.range 16).filter (fun u => decide (e / 2 ^ (48 + u) % 2 = 1 ∧ u0 ≤ 16 * page + u ∧ 16 * page + u < u0 + lengthOf r / 4096))).map
        (fun u => 16 * page + u - u0)
      ∃ t : State, exec (.precopy st q) s = .next t ∧ bytesIn t x.leafAddr 8 = e % 2 ^ 48 ∧
        (∀ a, ¬ (x.leafAddr ≤ a ∧ a < x.leafAddr + 8) → populated s a = true → byteIn t a = byteIn s a) ∧
        (∀ z ∈ t.xlat, ¬ (z.root = r.own.root ∧ z.page = page)) ∧
        (engineOf t st.val q).run = some (if mine = [] then ends r 1 else { r with pages := mine, pos := 1 })) ∧
    (r.op = 4 → r.sent = packetCount r → packetCount r ≤ ackedPrefix r.acked → exec (.coll st q) s =
      .next (withRun (sentOut s { packetFor s st q r .flag r.sent 0 0 ((List.range 8).map (byteAt (operand r 5).toNat)) with off := (operand r 4).toNat }) st q
        (some { r with sent := r.sent + 1 }))) ∧
    (∀ (data : List Byte) (auth refused : Bool) (i : Nat), 2 ≤ r.op.toNat → r.op.toNat ≤ 4 → answers s st q r i →
      let pulls := decide (r.op = 2) && (operand r 2).getLsbD 63
      let len := unitEnd r i - unitStart r i
      let taken (r' : Running) : State := { withRun s st q (some r') with ackFor := none }
      (auth = false → exec (.remoteAcknowledgement st q data auth refused []) s = .next (taken (ends r 5))) ∧
      (auth = true → refused = true → exec (.remoteAcknowledgement st q data auth refused []) s = .next (taken (ends r 3))) ∧
      (auth = true → refused = false → pulls = false → exec (.remoteAcknowledgement st q data auth refused []) s = .next (taken (acked r i))) ∧
      (auth = true → refused = false → pulls = true → data.length = len → r.got = [] → r.acked = List.range i → memoriesWf s →
        (∀ c ∈ r.carry, c.2 = false) → ∀ y : Nat → Xlat,
        let l := r.carry.map (fun c => c.1) ++ data
        let to_ := r.pos + l.length
        let dst := (operand r 0).toNat
        let stop := if lengthOf r ≤ to_ then to_ else max r.pos (to_ - (dst + to_) % 8)
        let n := stop - r.pos
        UnitRange s st.val r.own (dst + r.pos) n true y → distinct s y (dst + r.pos) n →
        ∃ t : State, exec (.remoteAcknowledgement st q data auth refused []) s = .next t ∧ written s t y (dst + r.pos) n (fun m => (l[m]?).getD 0) ∧
          t.ackFor = none ∧ (engineOf t st.val q).run = some (
            let r' : Running := { r with acked := setInsert r.acked i, pos := stop, carry := keptOf (l.drop n) }
            if i + 1 = packetCount r then ends { r' with done := unitCount r } 1 else { r' with done := stop / 4096 })) ∧
      (∀ m, auth = true → refused = false → pulls = true → data.length = len → r.got = [] → r.carry = [] → r.acked = List.range m → m < i →
        r.sent ≤ packetCount r → exec (.remoteAcknowledgement st q data auth refused []) s =
          .next (taken { r with acked := setInsert r.acked i, got := [(i, keptOf data)], done := r.pos / 4096 }))) ∧
    (2 ≤ r.op.toNat → r.op.toNat ≤ 4 → exec (.linkTimeout st q) s = .next (withRun s st q (some (ends r 2))))) ∧
  (∀ (s : State) (st : Fin 32) (q : Fin 64) (r : Running) (c : BitVec 8) (data : List Byte) (i : Nat), runs s st q r → r.status = some c → c ≠ 1 → c ≠ 2 →
    2 ≤ r.op.toNat → r.op.toNat ≤ 4 → (r.op = 2 → (operand r 2).getLsbD 63 = false) → answers s st q r i →
    let r' : Running := { r with acked := setInsert r.acked i }
    exec (.remoteAcknowledgement st q data true false []) s =
      .next { withRun s st q (some (ends { r' with done := ackedUnits r' } c)) with ackFor := none }) ∧
  (∀ (s : State) (n : Nat), exec (.portFailure n) s = .next (if n ≤ 64 then { s with ports := setInsert s.ports n } else s)) ∧
  (∀ (s : State) (p : Packet),
    let e := s.exports[p.exp]
    let st := fieldOf e.w0 12 8
    let own := exportRoot s e
    let va := e.base.toNat + p.off
    (p.ok = false → exec (.remotePacketArrival p) s = .next s) ∧
    (p.ok = true → (p.kind = .coll → collFormat p) → ¬ admits s e p →
      exec (.remotePacketArrival p) s = .next (sentOut s { answerTo s p with refused := true })) ∧
    (p.ok = true → admits s e p → exportTable s e →
      (p.kind = .flag → ∃ t : State, exec (.remotePacketArrival p) s = .next t ∧ (∀ a, byteIn t a = byteIn s a) ∧ t.outbox = s.outbox ∧
        t.flagsOut = s.flagsOut ++ [p]) ∧
      (p.kind = .read → ∀ x : Nat → Xlat, UnitRange s st own va p.len false x → unpoisoned s x va p.len →
        ∃ t : State, exec (.remotePacketArrival p) s = .next t ∧ (∀ a, byteIn t a = byteIn s a) ∧
          t.outbox = (sentOut s { answerTo s p with data := bytesOf s x va p.len }).outbox) ∧
      (p.kind = .precopy → brings s p = none → ∃ t : State, exec (.remotePacketArrival p) s = .next t ∧ (∀ a, byteIn t a = byteIn s a) ∧
        t.outbox = (sentOut s { answerTo s p with ok := false }).outbox) ∧
      (∀ l, brings s p = some l → l.length = p.len → p.poison = [] → memoriesWf s → ∀ y : Nat → Xlat, UnitRange s st own va p.len true y →
        distinct s y va p.len → ∃ t : State, exec (.remotePacketArrival p) s = .next t ∧ written s t y va p.len (fun i => (l[i]?).getD 0) ∧
          t.outbox = (sentOut s (answerTo s p)).outbox) ∧
      (∀ n, p.kind = .coll → collFormat p → n = tagWidth (BitVec.ofNat 4 p.tag.val) / 8 → p.len = n →
        p.data.length = n → p.poison = [] → memoriesWf s → va % n = 0 → ∀ y : Nat → Xlat, UnitRange s st own va n true y → (∀ i < n, (y i).bit 2 = true) →
        distinct s y va n → unpoisoned s y va n →
        let sum := (farNew 1 (BitVec.ofNat 4 p.tag.val) n (bytesIn s (unitPa y va 0) n) (bytesToNat p.data) 0).1
        ∃ t : State, exec (.remotePacketArrival p) s = .next t ∧ written s t y va n (byteAt sum) ∧ t.outbox = (sentOut s (answerTo s p)).outbox ∧
          t.flagsOut = s.flagsOut.map (fun g => if g.src = p.src ∧ g.cmd = p.cmd ∧ g.exp = p.exp then { g with len := g.len - 1 } else g)))) ∧
  ∀ (s : State) (n : Nat) (p : Packet), s.flagsOut[n]? = some p → p.len = 0 → p.kind = .flag →
    let e := s.exports[p.exp]
    let va := e.base.toNat + p.off
    (¬ admits s e p → exec (.collFlagRelease n) s =
      .next (sentOut { s with flagsOut := s.flagsOut.eraseIdx n } { answerTo s p with refused := true })) ∧
    (admits s e p → exportTable s e → memoriesWf s → va % 8 = 0 → p.data.length = 8 → ∀ y : Nat → Xlat, UnitRange s (fieldOf e.w0 12 8) (exportRoot s e) va 8 true y →
      distinct s y va 8 → ∃ t : State, exec (.collFlagRelease n) s = .next t ∧ written s t y va 8 (fun i => (p.data[i]?).getD 0) ∧
        t.flagsOut = s.flagsOut.eraseIdx n ∧ t.outbox = (sentOut s (answerTo s p)).outbox)

/-- The launch unit: the oldest device launch, or a valid entry at HEAD of a host queue, becomes tasks (16:R357, R358, 17:R381, 18:R401, R403); an entry that
fails its check is counted as rejected (18:R401); a launch whose DEPWORD is not zero becomes eligible (18:R404; the words are accessed at supervisor
level, the model's reading, log 28). -/
def Obligations.LaunchUnitSteps : Prop :=
  (∀ (s : State) (st : Fin 32) (r : LaunchRec) (rest : List LaunchRec) (k : Kernel) (dests : List Nat), (s.stack st.val).devq = r :: rest →
    ((s.stack st.val).cols[0]).state ≠ .stopped → (s.stack st.val).table.length < 256 → Expandable s st.val r k dests →
    ∃ t : State, exec (.launchExpansion st) s = .next t ∧ (t.stack st.val).devq = rest ∧ expanded s t st.val r k dests) ∧
  (∀ (s : State) (st : Fin 32) (q : Fin 16),
    let h := (s.stack st.val).hostq[q]
    let size := fieldOf h.cfg 12 0
    let pa := h.base.toNat + 256 * (h.head.toNat % size)
    let cp := (s.stack st.val).ctxbase.toNat + 256 * fieldOf h.cfg 23 16
    let w := recordAt s pa
    s.boot.ready = true → (s.stack st.val).excluded = false → ((s.stack st.val).cols[0]).state ≠ .stopped → h.cfg.getLsbD 63 = true → size ≠ 0 → (s.stack st.val).table.length < 256 →
    h.head.toNat ≠ fieldOf h.tail 31 0 → pa % 8 = 0 → (∀ i < 256, windowOf (pa + i) = .dram ∧ populated s (pa + i) = true ∧ Undisturbed s (pa + i)) → cp % 8 = 0 →
    (∀ i < 256, windowOf (cp + i) = .dram ∧ Undisturbed s (cp + i)) →
    (badRecord w → ∃ t : State, exec (.hostQueueEntryRead st q) s = .next t ∧ (∀ a, byteIn t a = byteIn s a) ∧
      (t.stack st.val).hostq[q] = { h with head := h.head + 1, rejected := h.rejected + 1 } ∧ (t.stack st.val).table = (s.stack st.val).table) ∧
    (¬ badRecord w → ∀ (x : Nat → Xlat) (k : Kernel) (dests : List Nat),
      let r : LaunchRec := { kernel := wordAt w 0, cword := wordAt w 1, dep := wordAt w 2, prio := fieldOf (wordAt w 3) 7 0,
                             gang := (wordAt w 3).getLsbD 8, args := Vector.ofFn (fun n : Fin 16 => wordAt w (4 + n.val)),
                             ctx := BitVec.ofNat 8 (fieldOf h.cfg 23 16), root := BitVec.ofNat 64 (bytesIn s cp 8) }
      UnitRange s st.val ⟨⟨0, 0, 0⟩, r.root, .supervisor⟩ r.cword.toNat 8 true x → Expandable s st.val r k dests →
      ∃ t : State, exec (.hostQueueEntryRead st q) s = .next t ∧ (t.stack st.val).hostq[q] = { h with head := h.head + 1 } ∧
        expanded s t st.val r k dests)) ∧
  ∀ (s : State) (st : Fin 32) (n : Nat) (l : Launch) (x : Nat → Xlat), s.getLaunch st.val n = some l → l.eligible = false →
    ((s.stack st.val).cols[0]).state ≠ .stopped → l.rcd.dep.toNat % 8 = 0 →
    UnitRange s st.val ⟨⟨0, 0, 0⟩, l.rcd.root, .supervisor⟩ l.rcd.dep.toNat 8 false x →
    ∃ t : State, exec (.depwordRead st n) s = .next t ∧ (∀ a, byteIn t a = byteIn s a) ∧
      t.getLaunch st.val n = some (if bytesIn s (unitPa x l.rcd.dep.toNat 0) 8 = 0 then l else { l with eligible := true })

/-- A waiting task that no thread of its stack can take, every thread holding a task or parked (18:R406, R407): its effective priority once the time that
passes has aged it. -/
def agedPrio (s : State) (st : Nat) (w : Waiting) : Nat :=
  min 7 (w.info.prio + (w.info.age + (Config.elapsed s.tick).toNat) / 2 ^ (s.stack st).ageshift.toNat)

/-- A running task may be asked to leave for a waiting one of effective priority e (18:R407): lower PRIO, run long enough, no request on it. -/
def mayAsk (s : State) (st e o : Nat) (i : TaskInfo) : Prop :=
  let v := s.thread (st * 40 + o)
  v.task = some i ∧ (∀ b, v.cond ≠ .ready b) ∧ i.prio < e ∧ 2 ^ (s.stack st).ageshift.toNat ≤ i.ran + (Config.elapsed s.tick).toNat ∧ v.softReq = false ∧ v.hardReq = false

/-- The scheduler: placement starts a fresh task on a thread that can take it (16:R359, 18:R405, R406), or restores a saved one (20:R442); a task that none can
take asks the running task of lowest PRIO to leave, once (18:R407); a pre-emption that is due saves the task, while a
handler runs once its deferral ends (18:R407, 20:R438-R443); a gang reserves threads, starts whole, is abandoned, resumed or discarded (18:R408-R410; the
gang's number as log 8 forms it, the deferral's end as log 83 reads it). -/
def Obligations.SchedulerSteps : Prop :=
  (∀ (s : State) (st : Fin 32) (th : Fin 40) (w : Waiting) (f : Fresh) (l : Launch) (d : Frond), Takes s st.val th.val w f l d → w.info.gang = false →
    ∃ t : State, exec (.schedulerPlacement st th) s = .next t ∧ startedOn s t st.val th.val w f false) ∧
  (∀ (s : State) (st : Fin 32) (th : Fin 40) (w : Waiting) (z : SavedTask) (base : Nat), Restores s st.val th.val w z base → bindingsHold s st.val th.val w z base →
    ∃ t : State, exec (.schedulerPlacement st th) s = .next t ∧ restoredOn s t st.val th.val w z base) ∧
  (∀ (s : State) (st : Fin 32) (th : Fin 40) (w : Waiting) (l : Launch) (v : Nat) (i : TaskInfo), (s.stack st.val).waiting = [w] → w.hold = false →
    w.reserved = none → w.info.gang = false → s.getLaunch w.info.id.stack w.info.id.launch = some l → l.eligible = true → l.failed = false →
    ((s.stack st.val).cols[0]).state ≠ .stopped → ((s.stack st.val).cols[1]).state ≠ .stopped →
    (∀ o < 40, (s.thread (st.val * 40 + o)).task.isSome = true ∨ (s.stack st.val).park.getLsbD o = true) →
    (∀ o < 40, ¬ ((s.thread (st.val * 40 + o)).reqBy = some w.info.id)) →
    v < 40 → mayAsk s st.val (agedPrio s st.val w) v i →
    (∀ o < 40, ∀ y, mayAsk s st.val (agedPrio s st.val w) o y → i.prio < y.prio ∨ (i.prio = y.prio ∧ v ≤ o)) →
    ∃ t : State, exec (.schedulerPlacement st th) s = .next t ∧ (t.thread (st.val * 40 + v)).softReq = true ∧
      (t.thread (st.val * 40 + v)).reqBy = some w.info.id ∧
      (∀ o < 40, o ≠ v → (t.thread (st.val * 40 + o)).softReq = (s.thread (st.val * 40 + o)).softReq) ∧
      ∃ w' ∈ (t.stack st.val).waiting, w'.info.id = w.info.id) ∧
  (∀ (s : State) (st : Fin 32) (th : Fin 40), (s.thread (st.val * 40 + th.val)).softReq = true →
    exec (.softlimExpiry st th) s = .next (s.setThread (st.val * 40 + th.val) { s.thread (st.val * 40 + th.val) with hardReq := true })) ∧
  (∀ (s : State) (st : Fin 32) (th : Fin 40) (i : TaskInfo), let v := s.thread (st.val * 40 + th.val)
    v.task = some i → saveable s st.val th.val → (∀ l, s.getLaunch i.id.stack i.id.launch = some l → l.failed = false) →
    (v.hardReq = true → v.handlers = [] → ∃ t : State, exec (.hardPreemption st th) s = .next t ∧ savedAway s t st.val th.val i false) ∧
    (v.hardReq = true ∨ v.softReq = true → v.handlers ≠ [] →
      ∃ t : State, exec (.preemptionDeferralExpiry st th) s = .next t ∧ savedAway s t st.val th.val i false)) ∧
  (∀ (s : State) (st : Fin 32) (n : Nat) (l : Launch), s.getLaunch st.val n = some l → l.rcd.gang = true → l.started = false → l.failed = false →
    ((s.stack st.val).cols[0]).state ≠ .stopped →
    (∀ (th : Nat) (w : Waiting) (f : Fresh) (d : Frond), Takes s st.val th w f l d → w.info.id.stack = st.val → w.info.id.launch = n → w.info.gang = true →
      (∀ o < th, (s.stack st.val).park.getLsbD o = true) → (∀ o < 40, ∀ i, (s.thread (st.val * 40 + o)).task = some i → i.gang = true → w.info.order ≤ i.order) →
      (∀ o < 40, ∀ b i, (s.thread (st.val * 40 + o)).cond = .ready b → (s.thread (st.val * 40 + o)).task = some i → i.id.stack = st.val ∧ i.id.launch = n) →
      (∀ m < 32, m ≠ st.val → ∀ o, ¬ memberWaits s st.val n m o) →
      ∃ t : State, exec (.gangStartAttempt st n) s = .next t ∧ startedOn s t st.val th w f true) ∧
    ((∀ m < 32, ∀ o, ¬ memberWaits s st.val n m o) → (s.launchThreads st.val n).length + l.finished = l.ns * l.nf →
      (∀ v ∈ s.launchThreads st.val n, (∃ b, (s.thread v).cond = .ready b) ∧ (s.thread v).lostBind = none) →
      ∃ t : State, exec (.gangStart st n) s = .next t ∧ t.getLaunch st.val n = some { l with started := true } ∧
        ∀ v ∈ s.launchThreads st.val n, ∀ b, (s.thread v).cond = .ready b → t.thread v = { s.thread v with cond := if b then .splitWait else .running }) ∧
    ((∃ m < 32, ∃ o, memberWaits s st.val n m o ∧ o.reserved.isSome = true) →
      (l.attempts < 3 → ∃ (t : State) (l' : Launch), exec (.gangStartAbandoned st n) s = .next t ∧ t.getLaunch st.val n = some l' ∧
        l'.attempts = l.attempts + 1 ∧ l'.started = false ∧ ∀ m < 32, ∀ o, memberWaits t st.val n m o → o.reserved = none) ∧
      (l.attempts = 3 → ∃ t : State, exec (.gangStartAbandoned st n) s = .next t ∧ t.getLaunch st.val n = none ∧ ∀ m < 32, ∀ o, ¬ memberWaits t st.val n m o))) ∧
  ∀ (s : State) (st a : Fin 32) (n : Nat) (l : Launch), s.getLaunch a.val n = some l → l.rcd.gang = true → l.failed = true →
    (s.stack st.val).excluded = false → (∀ x ∈ (s.stack a.val).table, x.rcd.gang = true → x.id % 2 ^ 27 = n % 2 ^ 27 → x = l) →
    let g : Nat := a.val * 2 ^ 27 + n % 2 ^ 27
    (∃ t : State, exec (.gangResume st (BitVec.ofNat 48 g)) s = .next t ∧
      t.getLaunch a.val n = some { l with failed := false, started := false, status := 0, failTask := 0, attempts := 0, wordDue := false } ∧
      (∀ m < 32, ∀ o, memberWaits t a.val n m o → o.hold = o.counted) ∧ (t.stack st.val).gangact = BitVec.ofNat 64 (2 ^ 62 + g)) ∧
    ((l.wordDue = false ∨ ((s.stack a.val).cols[0]).state ≠ .stopped) → ∃ t : State, exec (.gangDiscard st (BitVec.ofNat 48 g)) s = .next t ∧
      t.getLaunch a.val n = none ∧ (∀ m < 32, ∀ o, ¬ memberWaits t a.val n m o) ∧
      ∀ v ∈ s.launchThreads a.val n, (t.thread v).task = none)

/-- The half-slab of a stack that bit `i` of the halves of a front end names (18:R398). -/
def halfNamed (fe i : Nat) : Nat := 2 * (4 * (fe / 5) + i / 2) + i % 2

/-- A binding uses a half-slab of column `c` of its row. -/
def usesColumn (halves : BitVec 8) (c : Nat) : Prop := halves.getLsbD (2 * c) = true ∨ halves.getLsbD (2 * c + 1) = true

/-- A front end or a bank of its frond holds a task, or a saved one that may not move (18:R398; log 9). -/
def frontBusy (s : State) (st fe : Nat) : Prop :=
  (∃ c < 2, (s.thread (st * 40 + 2 * fe + c)).task.isSome = true ∨ ∃ w ∈ (s.stack st).waiting, w.reserved = some (2 * fe + c)) ∨
    ∃ w ∈ (s.stack st).waiting, w.loose = false ∧ ∃ p ∈ (w.saved.map (fun z => z.map)).getD [], p.1 ∈ banksOf s st fe

/-- A binding is against the rules of the grid (01:R20-R25, 18:R398; log 101): no such front end, an odd number of half-slabs, columns out of reach or, in a gang,
not next to one another, a half-slab that is defective or another frond's. -/
def bindingBad (s : State) (st fe : Nat) (halves : BitVec 8) : Prop :=
  let n := ((List.range 8).filter (fun i => halves.getLsbD i)).length
  let home := if fe % 5 = 4 then 1 else fe % 5
  let far := (∃ c < 4, usesColumn halves c ∧ (home + 1 < c ∨ c + 1 < home)) ∧ ((∃ c < 4, ¬ usesColumn halves c) ∨ home = 0 ∨ home = 3)
  let gap := n ≠ 2 ∧ ∃ c < 4, ∃ b < c, ∃ a < b, usesColumn halves a ∧ ¬ usesColumn halves b ∧ usesColumn halves c
  let taken := ∃ i < 8, halves.getLsbD i = true ∧ (s.fuses.defective.contains (st * 32 + halfNamed fe i) = true ∨
    ∃ f ∈ (s.stack st).fronds, f.fe ≠ fe ∧ ∃ j < 8, f.halves.getLsbD j = true ∧ halfNamed f.fe j = halfNamed fe i)
  20 ≤ fe ∨ n % 2 = 1 ∨ far ∨ gap ∨ taken

/-- Bindings, columns, errors (01:R20-R25, R32, 18:R398, R411, R412, 19:R423, 21:R460, R463): a request that keeps the rules binds or unbinds a front end: the
two half-slabs of one slab, split ones, whole gangs, a spare front end; one against them or against a resident task is answered so; a STOPPED scheduler keeps the
request, and GO. A retirement takes its bank out of service. Dissent takes a column to RESYNC and STOPPED, where no task of the stack is left running for the
launch unit, the scheduler and the last walker; an uncorrectable error waits for its thread, or fails its gang; a failed front end's tasks are saved, one that
owes a resumed instruction first going on. The model's readings: what is resident (log 9), what answers a request against both rules (log 99), what no request may
name beside (log 101), the way partition (log 103). -/
def Obligations.StackUnitSteps : Prop :=
  (∀ (s : State) (st : Fin 32) (v : Word),
    let fe := fieldOf v 20 16
    let halves := BitVec.ofNat 8 (fieldOf v 15 8)
    let named (i : Nat) : Nat := halfNamed fe i
    let busy := frontBusy s st.val fe
    let bad := bindingBad s st.val fe halves
    let bankAt (m : Nat) : Nat := st.val * 256 + 16 * (named (m / 8) / 2) + 8 * (named (m / 8) % 2) + m % 8
    let inUse (m : Nat) : Bool := halves.getLsbD (m / 8) && !(s.bank (bankAt m)).retired
    let answered (st' : BitVec 3) (h : BitVec 8) : State :=
      withStack s st.val (fun k => { k with bindGo := false, bindStatus := st', bindFe := BitVec.ofNat 5 fe, bindHalves := h })
    ((s.stack st.val).bindGo = true ∨ (s.stack st.val).excluded = true → exec (.bindingRequest st v) s = .next s) ∧
    (v.getLsbD 63 = true → (s.stack st.val).bindGo = false → (s.stack st.val).excluded = false → ((s.stack st.val).cols[1]).state = .stopped →
      exec (.bindingRequest st v) s = .next (withStack s st.val (fun k => { k with bindGo := true, bindFe := BitVec.ofNat 5 fe, bindHalves := halves }))) ∧
    (v.getLsbD 63 = true → (s.stack st.val).bindGo = false → (s.stack st.val).excluded = false → ((s.stack st.val).cols[1]).state ≠ .stopped →
      (halves ≠ 0 → bad → exec (.bindingRequest st v) s = .next (answered 3 halves)) ∧
      (halves ≠ 0 → ¬ bad → busy → exec (.bindingRequest st v) s = .next (answered 2 halves)) ∧
      (halves ≠ 0 → ¬ bad → ¬ busy →
        ∃ (t : State) (f : Frond), exec (.bindingRequest st v) s = .next t ∧ (t.stack st.val).frond fe = some f ∧ f.halves = halves ∧
          f.spareFe = decide (fe % 5 = 4) ∧ f.nbanks = ((List.range 64).filter inUse).length ∧
          (f.splitC = true ↔ ∃ i < 8, halves.getLsbD i = true ∧ ∃ g ∈ (s.stack st.val).fronds, g.fe ≠ fe ∧ ∃ j < 8, g.halves.getLsbD j = true ∧
            halfNamed g.fe j = (if named i % 2 = 0 then named i + 1 else named i - 1)) ∧
          (∀ m < 64, inUse m = true → (∀ o < m, inUse o = false) → f.mode = (s.bank (bankAt m)).mode ∧ f.ways = (s.bank (bankAt m)).ways) ∧
          (t.stack st.val).bindStatus = 1 ∧ (t.stack st.val).bindGo = false) ∧
      (20 ≤ fe → exec (.unbindingRequest st v) s = .next (answered 3 0)) ∧
      (fe < 20 → (busy → exec (.unbindingRequest st v) s = .next (answered 2 0)) ∧
        (¬ busy → ∃ t : State, exec (.unbindingRequest st v) s = .next t ∧ (t.stack st.val).frond fe = none ∧ (t.stack st.val).bindStatus = 1)))) ∧
  (∀ (s : State) (st : Fin 32) (v : Word), let b := st.val * 256 + fieldOf v 7 0
    v.getLsbD 63 = true → (s.stack st.val).excluded = false → (s.stack st.val).retGo = false → (s.bank b).retired = false → (s.bank b).moving = false →
    (s.bank b).gone = false → allMayStop s st.val →
    ∃ t : State, exec (.retirementRequest st v) s = .next t ∧ (t.stack st.val).retBank = BitVec.ofNat 8 (fieldOf v 7 0) ∧ (t.stack st.val).retGo = false ∧
      (if (s.stack st.val).spareUsed.getLsbD (fieldOf v 7 0 / 16) = false then (t.stack st.val).retStatus = 1 ∧ (t.bank b).moving = true
       else (t.stack st.val).retStatus = 2 ∧ (t.bank b).retired = true)) ∧
  (∀ (s : State) (st : Fin 32) (c : Fin 6), let x := (s.stack st.val).cols[c]
    let n := if x.dissents = 63 then x.dissents else x.dissents + 1
    exec (.columnVote st c false) s = .next s ∧
    (x.state = .triple → ∃ t : State, exec (.columnVote st c true) s = .next t ∧ (t.stack st.val).cols[c] = ⟨.resync, n⟩ ∧
      (t.stack st.val).logCount = (s.stack st.val).logCount + 1) ∧
    (x.state = .resync → ∃ t : State, exec (.columnVote st c true) s = .next t ∧ (t.stack st.val).cols[c] = ⟨.stopped, n⟩ ∧
      (c.val < 2 ∨ (∀ w : Fin 6, 2 ≤ w.val → w ≠ c → ((s.stack st.val).cols[w]).state = .stopped) →
        allMayStop s st.val → ∀ th < 40, (t.thread (st.val * 40 + th)).task = none)) ∧
    (x.state = .resync → exec (.resyncComplete st c) s = .next (withStack s st.val (fun k => { k with cols := k.cols.set c ⟨.triple, x.dissents⟩ })))) ∧
  (∀ (s : State) (st : Fin 32) (th : Fin 40) (bank unit : BitVec 8) (i : TaskInfo), (s.thread (st.val * 40 + th.val)).task = some i →
    let k := s.stack st.val
    (i.gang = false → ∃ t : State, exec (.uncorrectableError st th bank unit) s = .next t ∧ (t.stack st.val).logCount = k.logCount + 1 ∧
      t.thread (st.val * 40 + th.val) = { s.thread (st.val * 40 + th.val) with ueReq := some (BitVec.ofNat 64
        (k.logCount.toNat % 256 * 2 ^ 32 + bank.toNat * 2 ^ 8 + unit.toNat)) }) ∧
    (∀ l, i.gang = true → s.getLaunch i.id.stack i.id.launch = some l → l.started = true → l.status = 0 →
      ∃ (t : State) (l' : Launch), exec (.uncorrectableError st th bank unit) s = .next t ∧ t.getLaunch i.id.stack i.id.launch = some l' ∧ l'.failed = true ∧
        l'.status = 5 ∧ l'.failTask = i.id.num ∧ ∀ m < 32, ∀ o, memberWaits t i.id.stack i.id.launch m o → o.hold = true)) ∧
  ∀ (s : State) (st : Fin 32) (fe : Fin 20), ∃ t : State, exec (.frontEndFailure st fe) s = .next t ∧
    (t.stack st.val).failedFe = (s.stack st.val).failedFe ||| BitVec.ofNat 20 (2 ^ fe.val) ∧
    ∀ c < 2, ∀ i, let tid := st.val * 40 + 2 * fe.val + c
      (s.thread tid).task = some i →
      (allMayStop s st.val → (t.thread tid).task = none ∧ ((∀ l, s.getLaunch i.id.stack i.id.launch = some l → l.failed = false) →
        ∃ w ∈ (t.stack st.val).waiting, w.info = i ∧ w.hold = false ∧ w.loose = true)) ∧
      ((s.thread tid).owes = true → (∀ b, (s.thread tid).cond ≠ .ready b) → (t.thread tid).task = some i ∧ (t.thread tid).hardReq = true)

/-- The host and the load verifier: a host access reads or writes DRAM and scratch once READY is 1 over a working host link, BOOTSTAT with the main side down as
well (00:R3, 01:R17, 03:R80, 24:R493, R494; what the host reaches is log 79's reading, the answer's code the model's choice, log 80, port 64 as the host link log
118's, BOOTSTAT at every time log 119's); a submission is answered and registers its kernels only where it is OK (22:R466-R475; a handle is base and
table offset together, log 17; a short object is BADOBJ, log 107); a write list replaces a slot's program, or leaves it where
its revision or its layout is wrong (22:R477); FUSEADV advances the counter and unregisters what lies below it (22:R474). -/
def Obligations.HostSteps : Prop :=
  (∀ (s : State) (pa : Nat) (len : Fin 4) (v : Word), let n := 2 ^ len.val
    (windowOf pa = .control → pa % 2 ^ 40 = 0x20000010 → pa < 2 ^ 42 → len = 3 →
      exec (.hostAccess false pa len v) s = .next { s with replies := s.replies ++ [(1, bootstat s.boot)] }) ∧
    (windowOf pa ≠ .control → (s.boot.on = false ∨ s.boot.ready = false ∨ populated s pa = false ∨ windowOf pa = .host ∨ 64 ∈ s.ports ∨ pa % n ≠ 0) →
      ∀ wr, exec (.hostAccess wr pa len v) s = .next { s with replies := s.replies ++ [(0, 0)] }) ∧
    (s.boot.on = true → s.boot.ready = true → 64 ∉ s.ports → pa % n = 0 → populated s pa = true → (windowOf pa = .dram ∨ windowOf pa = .scratch) →
      Undisturbed s pa →
      (∃ t : State, exec (.hostAccess false pa len v) s = .next t ∧ (∀ a, byteIn t a = byteIn s a) ∧
        t.replies = s.replies ++ [(if poisonIn s pa then 2 else 1, BitVec.ofNat 64 (bytesIn s pa n))]) ∧
      (memoriesWf s → ∃ t : State, exec (.hostAccess true pa len v) s = .next t ∧ stored s t pa n v.toNat none ∧ t.replies = s.replies ++ [(1, 0)]))) ∧
  (∀ (s : State) (root base : Word) (o : List Byte), let v := verifyObject s base.toNat o
    ∃ ks : List Kernel, exec (.objectSubmission root base o) s = .next { s with kernels := ks, replies := s.replies ++ [(v, base)] } ∧
      (o.length < 64 ∨ numAt o 0 4 ≠ 0x4F584E54 ∨ numAt o 4 2 ≠ 1 → v = 0x10) ∧ (v ≠ 1 → ks = s.kernels) ∧
      (v = 1 → s.fuseCount ≤ numAt o 8 4 ∧ numAt o 52 4 ≠ 0 ∧ numAt o 56 4 ≠ 0 ∧ ∀ i < numAt o 44 4, ∃ k ∈ ks,
        k.root = root ∧ k.handle = BitVec.ofNat 64 (base.toNat + numAt o 48 4 + 96 * i) ∧ k.secver = numAt o 8 4 ∧
        k.need = numAt o (numAt o 48 4 + 96 * i + 16) 1 ∧ k.pref = numAt o (numAt o 48 4 + 96 * i + 17) 1 ∧
        k.nargs = numAt o (numAt o 48 4 + 96 * i + 19) 1)) ∧
  (∀ (s : State) (st : Fin 32) (slot : Fin 64) (l : List Byte),
    (16 ≤ l.length → numAt l 0 4 ≠ 0x00010002 → exec (.gelInstall st slot l) s = .next { s with replies := s.replies ++ [(0x14, BitVec.ofNat 64 slot.val)] }) ∧
    (16 ≤ l.length → numAt l 0 4 = 0x00010002 → ¬ GoodList l →
      exec (.gelInstall st slot l) s = .next { s with replies := s.replies ++ [(0x10, BitVec.ofNat 64 slot.val)] }) ∧
    (GoodList l → ∃ (t : State) (regs : List (Nat × Word)), exec (.gelInstall st slot l) s = .next t ∧
      t.replies = s.replies ++ [(1, BitVec.ofNat 64 slot.val)] ∧ mapGet (t.stack st.val).gel slot.val = some regs ∧
      mapGet (t.stack st.val).gelRev slot.val = some 0x00010002 ∧
      (∀ i < numAt l 4 4, (∀ j, i < j → j < numAt l 4 4 → listOffset l j ≠ listOffset l i) →
        mapGetD regs (listOffset l i) 0 = BitVec.ofNat 64 (listValue l i)) ∧
      (∀ off, (∀ i < numAt l 4 4, listOffset l i ≠ off) → mapGetD regs off 0 = 0))) ∧
  ∀ s : State, ∃ t : State, exec .fuseadv s = .next t ∧ t.fuseCount = s.fuseCount + 1 ∧
    t.kernels = s.kernels.filter (fun k => decide (s.fuseCount + 1 ≤ k.secver)) ∧
    ((∀ n < 32, ∀ l ∈ (s.stack n).table, l.failed = false) → ∀ n < 32, ∀ l ∈ (t.stack n).table, l.secver < s.fuseCount + 1 → l.status ≠ 0)

/-- Power-on, bring-up, the lantern, alarms, power and cooling: power-on starts the phases (24:R492), a phase that finishes starts the next, binds the fronds,
zeroes the memory, sets READY; a stack that fails, or that phase 3 leaves no bank, is excluded and no other (24:R493); MAINCYCLE starts them again, KEYSET
fills a slot, COLRESET and BLKRESET reset a column, whose scheduler then performs the request it kept, and a bank block (18:R398, R412, 24:R495); an alarm
erases every key and stops a running PRECOPY (24:R498, R499); DUTY follows the power, LIMIT a failed coolant (24:R501, R503). The model's readings: what the
main side's power-down keeps (log 41), write-backs that BLKRESET loses (log 22), FAIL 5 (log 85), the journal's freeze while a column is STOPPED (log 135). -/
def Obligations.ModuleSteps : Prop :=
  ∀ s : State,
    (if s.boot.on then exec .powerOn s = .next s else ∃ t : State, exec .powerOn s = .next t ∧ mainStarts s t) ∧
    (∃ t : State, exec .maincycle s = .next t ∧ mainStarts s t) ∧
    (s.boot.on = true → s.boot.ready = false → s.boot.phase.toNat ≤ 4 →
      ∃ t : State, exec (.bringupPhaseComplete 0) s = .next t ∧
        (s.boot.phase.toNat < 4 → t.boot.phase = s.boot.phase + 1 ∧ t.boot.ready = false) ∧
        (s.boot.phase = 1 → ∀ n < 32, cleanStack s n → ∀ fe < 20,
          (fe % 5 = 4 → (t.stack n).frond fe = none) ∧
          (fe % 5 ≠ 4 → ∃ f, (t.stack n).frond fe = some f ∧ f.halves = BitVec.ofNat 8 (3 * 4 ^ (fe % 5)) ∧ f.nbanks = 16)) ∧
        (s.boot.phase = 4 → t.dram = [] ∧ t.cellPoison = [] ∧ (∀ n, (t.stack n).sectors = []) ∧ (∀ b, (t.bank b).lines = [] ∧ (t.bank b).scratch = [] ∧
            ∀ k : Fin 16, (t.bank b).debt[k] = 0 ∧ (t.bank b).ptr[k] = 0) ∧
          (s.boot.fail ≠ 5 → t.boot.phase = 5 ∧ t.boot.ready = true) ∧ (s.boot.fail = 5 → t.boot.ready = false))) ∧
    (∀ failed : BitVec 32, s.boot.on = true → s.boot.ready = false → 1 ≤ s.boot.phase.toNat → s.boot.phase.toNat ≤ 4 →
      let out (n : Nat) : Prop :=
        if s.boot.phase = 3 then ∀ b < 256, (s.bank (n * 256 + b)).retired = true ∨ (s.bank (n * 256 + b)).gone = true else failed.getLsbD n = true
      ∃ t : State, exec (.bringupPhaseComplete failed) s = .next t ∧ ∀ n < 32,
        (out n → s.boot.stkout.getLsbD n = false → (t.stack n).excluded = true ∧ (t.stack n).fronds = [] ∧ t.boot.stkout.getLsbD n = true ∧
          (s.boot.fail = 0 → t.boot.fail = s.boot.phase.zeroExtend 16 ∨ t.boot.fail = 5)) ∧
        (¬ out n → t.boot.stkout.getLsbD n = s.boot.stkout.getLsbD n ∧ (t.stack n).excluded = (s.stack n).excluded)) ∧
    (∀ slot key, exec (.keyset slot key) s = .next { s with keys := s.keys.set slot (some key) }) ∧
    (∀ (st : Fin 32) (c : Fin 6), let x : Column := { (s.stack st.val).cols[c] with state := .triple }
      (2 ≤ c.val ∨ (c.val = 1 ∧ (s.stack st.val).bindGo = false) →
        exec (.colreset st c) s = .next (withStack s st.val (fun k => let cols := k.cols.set c x
          { k with cols := cols, frozen := if (cols[0]).state = .stopped ∨ (cols[1]).state = .stopped then k.frozen else none }))) ∧
      ∃ t : State, exec (.colreset st c) s = .next t ∧ (t.stack st.val).cols[c] = x ∧ (c.val = 1 → (t.stack st.val).bindGo = false)) ∧
    (∀ (st : Fin 32) (bk : Fin 256), ∃ t : State, exec (.blkreset st bk) s = .next t ∧ t.dram = s.dram ∧ (t.bank (st.val * 256 + bk.val)).pend = [] ∧
      (∀ k : Fin 16, ((t.bank (st.val * 256 + bk.val)).w[k]).state = .free) ∧ (t.bank (st.val * 256 + bk.val)).lines = (s.bank (st.val * 256 + bk.val)).lines ∧
      ∀ b, b ≠ st.val * 256 + bk.val → t.bank b = s.bank b) ∧
    (∀ (n : Nat) (i : Instr), (n, i) = (0, .tamperAlarm) ∨ (n, i) = (1, .glitchAlarm) → ∃ t : State, exec i s = .next t ∧
      t.keys = Vector.replicate 16 none ∧ t.alarms = s.alarms ||| BitVec.ofNat 3 (2 ^ n) ∧ t.dram = s.dram ∧ t.thr = s.thr ∧
      ∀ st < 32, ∀ (q : Fin 64) (r : Running), (engineOf s st q).run = some r → (s.stks.map (fun e => e.1)).contains st = true →
        (engineOf t st q).run = some (if r.op = 3 ∧ r.status = none then ends r 5 else r)) ∧
    (∃ t : State, exec .overTemperatureAlarm s = .next t ∧ t.keys = Vector.replicate 16 none ∧ t.alarms = s.alarms ||| 4 ∧ t.boot.on = false ∧
      t.dram = [] ∧ t.thr = Thread.reset ∧ t.fuseCount = s.fuseCount) ∧
    (∀ (st : Fin 32) (watts : Nat) (hot : Bool), let d := (s.stack st.val).duty
      exec (.powerMeasurement st watts hot) s = .next (withStack s st.val (fun k =>
        let d' : BitVec 4 := if k.limit.toNat < watts ∨ hot = true then (if d = 15 then 15 else d + 1) else (if d = 0 then 0 else d - 1)
        { k with hot := hot, duty := d' }))) ∧
    ∃ t : State, exec .coolantFault s = .next t ∧ ∀ n, t.stack n = if n < 32 then { s.stack n with limit := 100 } else s.stack n

/-- A step of a control thread at a boundary runs the instruction that the bytes at its pc decode to (02:R33, R41, 16:R363): exec of it, in a state where only
what fetching may touch differs; a vector-side instruction goes into the queue instead while instructions wait there; two instructions that pair run as one. The
model's readings: a fetch sees the bytes as they are now (log 105, a choice: 02:R36 allows the old word), and what was to stop the instruction within, a hard
pre-emption (16:R365, log 113) or an invalidation (13:R295), is no longer awaited after it. -/
def Obligations.StepRunsDecoded : Prop :=
  ∀ (s : State) (i : Instr), AtBoundary s → InstrAt s s.thr.front.pc.toNat i → i ≠ .barb → i ≠ .join →
    (i.cpFields.map (fun c => c.1) ≠ some true →
      ∃ u : State, AccessFrame s u ∧ (∀ a, byteIn u a = byteIn s a) ∧
        (¬ queues s i → step s = afterInstr (exec i u)) ∧ (queues s i → s.thr.queue.length < 64 → ∃ t : State, step s = .next t ∧ ∃ e : QEntry,
          t.thr.queue = s.thr.queue ++ [e] ∧ e.addr = s.thr.front.pc ∧ e.instr = i ∧ t.banks = u.banks ∧ t.dram = u.dram)) ∧
    (i.cpFields.map (fun c => c.1) = some true → s.thr.queue = [] → ∀ j, InstrAt s (s.thr.front.pc.toNat + i.len) j → pairOk i j = true →
      ∃ u : State, AccessFrame s u ∧ (∀ a, byteIn u a = byteIn s a) ∧ step s = afterInstr (exec (.complementPair i j) u))

/-- The state at power-on has the values that the rules give (18:R397, R411, 21:R465, 22:R474, 23:R481, 24:R492, R493, R497): SCHCTL, ERRCFG, PWRCTL, LINKTO,
every column TRIPLE, no binding, no key, BOOTSTAT zero; its memories are in their canonical form. PARK has no reset value in the rules: its 0 is the model's
choice (log 3). -/
def Obligations.ResetValues : Prop :=
  let s := State.reset
  s.memWf = true ∧ s.boot.on = false ∧ bootstat s.boot = 0 ∧ s.linkto = 2000 ∧ s.nodecfg = 0 ∧ s.keys = Vector.replicate 16 none ∧ s.kernels = [] ∧
  s.xlat = [] ∧ s.posted = [] ∧ s.thr.task = none ∧
  ∀ n, let k := s.stack n
    k.ganglim = 0x0100 ∧ k.softlim = 0x0040 ∧ k.ageshift = 20 ∧ k.errcfg = 0xEE ∧ k.limit = 420 ∧ k.duty = 0 ∧ k.park = 0 ∧ k.fronds = [] ∧ k.logCount = 0 ∧
    ∀ c : Fin 6, k.cols[c] = ⟨.triple, 0⟩

/-- Every step of the module keeps its byte memories in their canonical form: the DRAM cells, the host's memory, the scratch ways, the buffer windows. An
instruction that writes memory in any other way, or an event that does, would break it. -/
def Obligations.StepKeepsMemories : Prop := ∀ s t : State, s.memWf = true → step s = .next t → t.memWf = true

end
end

