-- ==== Sys2Proof/Laws/Maps.lean ====
section
/-!
SUPPORT. What the key lists and byte memories do: a read after a write, a write beside a read, and the canonical form kept by every write.
-/

namespace Sys2Proof.Machine

/-! ### Key lists in rising order -/

/-- Keys rise strictly, all above `lo`. -/
def Rising {α : Type} (lo : Option Nat) (m : List (Nat × α)) : Prop := keysAbove lo m = true

theorem Rising.tail {α : Type} {lo : Option Nat} {k : Nat} {v : α} {t : List (Nat × α)} (h : Rising lo ((k, v) :: t)) : Rising (some k) t := by
  simp only [Rising, keysAbove, Bool.and_eq_true] at h; exact h.2

theorem Rising.head {α : Type} {l k : Nat} {v : α} {t : List (Nat × α)} (h : Rising (some l) ((k, v) :: t)) : l < k := by
  simp only [Rising, keysAbove, Bool.and_eq_true, decide_eq_true_eq] at h; exact h.1

theorem Rising.cons {α : Type} {lo : Option Nat} {k : Nat} {v : α} {t : List (Nat × α)} (h : ∀ l, lo = some l → l < k)
    (ht : Rising (some k) t) : Rising lo ((k, v) :: t) := by
  simp only [Rising, keysAbove, Bool.and_eq_true] at *
  refine ⟨?_, ht⟩
  cases lo with
  | none => rfl
  | some l => simpa using h l rfl

theorem Rising.mono {α : Type} {l l' : Nat} {m : List (Nat × α)} (h : Rising (some l') m) (hl : l ≤ l') : Rising (some l) m := by
  cases m with
  | nil => rfl
  | cons p t => exact Rising.cons (fun x hx => by cases hx; exact Nat.lt_of_le_of_lt hl h.head) h.tail

theorem mapSet_rising {α : Type} (a : Nat) (x : α) : ∀ {lo : Option Nat} {m : List (Nat × α)}, (∀ l, lo = some l → l < a) → Rising lo m →
    Rising lo (mapSet m a x)
  | lo, [], hl, _ => Rising.cons hl rfl
  | lo, (k, v) :: t, hl, h => by
    unfold mapSet
    split
    · exact Rising.cons hl (Rising.cons (fun l hx => by cases hx; assumption) h.tail)
    · split
      · subst_vars; exact Rising.cons hl h.tail
      · refine Rising.cons ?_ (mapSet_rising a x (fun l hx => by cases hx; omega) h.tail)
        intro l hx; subst hx; exact h.head

theorem mapErase_rising {α : Type} (a : Nat) : ∀ {lo : Option Nat} {m : List (Nat × α)}, Rising lo m → Rising lo (mapErase m a)
  | _, [], h => h
  | lo, (k, v) :: t, h => by
    unfold mapErase
    split
    · exact h
    · split
      · cases lo with
        | none =>
          cases t with
          | nil => rfl
          | cons p t => exact Rising.cons (fun l hx => by cases hx) h.tail.tail
        | some l => exact h.tail.mono (Nat.le_of_lt h.head)
      · exact Rising.cons (fun l hx => by subst hx; exact h.head) (mapErase_rising a h.tail)

@[simp] theorem mapGet_mapSet_same {α : Type} (a : Nat) (x : α) : ∀ m : List (Nat × α), mapGet (mapSet m a x) a = some x
  | [] => by simp [mapSet, mapGet]
  | (k, v) :: t => by
    unfold mapSet
    split
    · simp [mapGet]
    · split
      · simp [mapGet]
      · rename_i h1 h2; simp [mapGet, h1, h2, mapGet_mapSet_same a x t]

theorem mapGet_mapSet_other {α : Type} {a b : Nat} (x : α) (h : b ≠ a) : ∀ m : List (Nat × α), mapGet (mapSet m a x) b = mapGet m b
  | [] => by simp only [mapSet, mapGet, if_neg h]; split <;> rfl
  | (k, v) :: t => by
    unfold mapSet
    split
    · rename_i hk
      conv => lhs; unfold mapGet
      split
      · rename_i hb; simp [mapGet, Nat.lt_trans hb hk]
      · rfl
    · split
      · subst_vars; simp only [mapGet, if_neg h]
      · simp only [mapGet, mapGet_mapSet_other x h t]

theorem mapGet_below {α : Type} {a l : Nat} : ∀ {m : List (Nat × α)}, Rising (some l) m → a ≤ l → mapGet m a = none
  | [], _, _ => rfl
  | (k, v) :: t, h, ha => by have := h.head; simp [mapGet, show a < k by omega]

theorem mapGet_mapErase_same {α : Type} (a : Nat) : ∀ {lo : Option Nat} {m : List (Nat × α)}, Rising lo m → mapGet (mapErase m a) a = none
  | _, [], _ => rfl
  | _, (k, v) :: t, h => by
    unfold mapErase
    split
    · rename_i hk; simp [mapGet, hk]
    · split
      · subst_vars; exact mapGet_below h.tail (Nat.le_refl _)
      · rename_i h1 h2; simp [mapGet, h1, h2, mapGet_mapErase_same a h.tail]

theorem mapGet_mapErase_other {α : Type} {a b : Nat} (h : b ≠ a) : ∀ {lo : Option Nat} {m : List (Nat × α)}, Rising lo m →
    mapGet (mapErase m a) b = mapGet m b
  | _, [], _ => rfl
  | _, (k, v) :: t, hr => by
    unfold mapErase
    split
    · rfl
    · split
      · subst_vars
        simp only [mapGet, if_neg h]
        split
        · exact mapGet_below hr.tail (by omega)
        · rfl
      · simp only [mapGet, mapGet_mapErase_other h hr.tail]

@[simp] theorem mapGetD_mapSet_same {α : Type} (m : List (Nat × α)) (a : Nat) (x d : α) : mapGetD (mapSet m a x) a d = x := by
  simp [mapGetD]

theorem mapGetD_mapSet_other {α : Type} (m : List (Nat × α)) {a b : Nat} (x d : α) (h : b ≠ a) : mapGetD (mapSet m a x) b d = mapGetD m b d := by
  simp [mapGetD, mapGet_mapSet_other x h]

/-! ### Byte memory -/

theorem all_mapSet {α : Type} (p : Nat × α → Bool) {a : Nat} {x : α} (hx : p (a, x) = true) : ∀ {m : List (Nat × α)}, m.all p = true →
    (mapSet m a x).all p = true
  | [], _ => by simp [mapSet, hx]
  | (k, v) :: t, h => by
    simp only [List.all_cons, Bool.and_eq_true] at h
    unfold mapSet
    split
    · simp [hx, h.1, h.2]
    · split
      · simp [hx, h.2]
      · simp [h.1, all_mapSet p hx h.2]

theorem all_mapErase {α : Type} (p : Nat × α → Bool) (a : Nat) : ∀ {m : List (Nat × α)}, m.all p = true → (mapErase m a).all p = true
  | [], _ => rfl
  | (k, v) :: t, h => by
    have h' := h
    simp only [List.all_cons, Bool.and_eq_true] at h
    unfold mapErase
    split
    · exact h'
    · split
      · exact h.2
      · simp [h.1, all_mapErase p a h.2]

theorem Memory.wf_rising {m : Memory} (h : m.wf = true) : Rising none m := by
  simp only [Memory.wf, Bool.and_eq_true] at h; exact h.1

/-- Reset memory is in canonical form. -/
theorem wf_nil : Memory.wf [] = true := rfl

/-- Writing a byte keeps the canonical form. -/
theorem memWrite_wf {m : Memory} (a : Nat) (b : Byte) (h : m.wf = true) : (memWrite m a b).wf = true := by
  have hr := Memory.wf_rising h
  simp only [Memory.wf, Bool.and_eq_true] at h ⊢
  unfold memWrite
  split
  · exact ⟨mapErase_rising a hr, all_mapErase _ a h.2⟩
  · exact ⟨mapSet_rising a b (fun l hl => by cases hl) hr, all_mapSet _ (by simpa using ‹¬b = 0›) h.2⟩

/-- Writing several bytes keeps the canonical form. -/
theorem memWriteN_wf : ∀ (n : Nat) {m : Memory} (a v : Nat), m.wf = true → (memWriteN m a n v).wf = true
  | 0, _, _, _, h => h
  | n + 1, _, a, v, h => memWriteN_wf n (a + 1) (v / 256) (memWrite_wf a _ h)

/-- A byte just written reads as written. -/
theorem memRead_memWrite_same {m : Memory} (a : Nat) (b : Byte) (h : m.wf = true) : memRead (memWrite m a b) a = b := by
  unfold memRead memWrite mapGetD
  split
  · rw [mapGet_mapErase_same a (Memory.wf_rising h)]; subst_vars; rfl
  · simp

/-- Every other byte reads as before. -/
theorem memRead_memWrite_other {m : Memory} {a c : Nat} (b : Byte) (h : m.wf = true) (hc : c ≠ a) : memRead (memWrite m a b) c = memRead m c := by
  unfold memRead memWrite mapGetD
  split
  · rw [mapGet_mapErase_other hc (Memory.wf_rising h)]
  · rw [mapGet_mapSet_other b hc]

/-- Bytes outside a written range read as before. -/
theorem memRead_memWriteN_other : ∀ (n : Nat) {m : Memory} {a c : Nat} (v : Nat), m.wf = true → (c < a ∨ a + n ≤ c) →
    memRead (memWriteN m a n v) c = memRead m c
  | 0, _, _, _, _, _, _ => rfl
  | n + 1, _, a, c, v, h, hc => by
    show memRead (memWriteN _ (a + 1) n _) c = _
    rw [memRead_memWriteN_other n _ (memWrite_wf a _ h) (by omega), memRead_memWrite_other _ h (by omega)]

/-- A written range reads as the number written, modulo its size. -/
theorem memReadN_memWriteN : ∀ (n : Nat) {m : Memory} (a v : Nat), m.wf = true → memReadN (memWriteN m a n v) a n = v % 256 ^ n
  | 0, _, _, _, _ => by simp [memReadN, Nat.mod_one]
  | n + 1, m, a, v, h => by
    show (memRead (memWriteN _ (a + 1) n _) a).toNat + 256 * memReadN (memWriteN _ (a + 1) n _) (a + 1) n = _
    rw [memRead_memWriteN_other n _ (memWrite_wf a _ h) (by omega), memRead_memWrite_same a _ h, memReadN_memWriteN n (a + 1) _ (memWrite_wf a _ h),
      BitVec.toNat_ofNat]
    have : v % 256 ^ (n + 1) = v % 256 + 256 * (v / 256 % 256 ^ n) := by rw [Nat.pow_succ', Nat.mod_mul]
    omega

end Sys2Proof.Machine
end

