-- ==== Sys2Proof/Laws/State.lean ====
section
/-!
SUPPORT. What the accessors of the state change and what they leave, one lemma per field and update, so that no later proof unfolds a record
update.
-/

namespace Sys2Proof.Machine

/-! ### Fields after an update -/

@[simp] theorem setBank_cur (s : State) (b : Nat) (x : Bank) : (s.setBank b x).cur = s.cur := rfl
@[simp] theorem setBank_thr (s : State) (b : Nat) (x : Bank) : (s.setBank b x).thr = s.thr := rfl
@[simp] theorem setBank_threads (s : State) (b : Nat) (x : Bank) : (s.setBank b x).threads = s.threads := rfl
@[simp] theorem setBank_stks (s : State) (b : Nat) (x : Bank) : (s.setBank b x).stks = s.stks := rfl
@[simp] theorem setBank_dram (s : State) (b : Nat) (x : Bank) : (s.setBank b x).dram = s.dram := rfl
@[simp] theorem setBank_cellPoison (s : State) (b : Nat) (x : Bank) : (s.setBank b x).cellPoison = s.cellPoison := rfl
@[simp] theorem setBank_latent (s : State) (b : Nat) (x : Bank) : (s.setBank b x).latent = s.latent := rfl
@[simp] theorem setBank_upsets (s : State) (b : Nat) (x : Bank) : (s.setBank b x).upsets = s.upsets := rfl
@[simp] theorem setBank_hostMem (s : State) (b : Nat) (x : Bank) : (s.setBank b x).hostMem = s.hostMem := rfl
@[simp] theorem setBank_xlat (s : State) (b : Nat) (x : Bank) : (s.setBank b x).xlat = s.xlat := rfl
@[simp] theorem setBank_ptrs (s : State) (b : Nat) (x : Bank) : (s.setBank b x).ptrs = s.ptrs := rfl
@[simp] theorem setBank_vrun (s : State) (b : Nat) (x : Bank) : (s.setBank b x).vrun = s.vrun := rfl
@[simp] theorem setBank_cut (s : State) (b : Nat) (x : Bank) : (s.setBank b x).cut = s.cut := rfl
@[simp] theorem setBank_farStop (s : State) (b : Nat) (x : Bank) : (s.setBank b x).farStop = s.farStop := rfl
@[simp] theorem setBank_ackFor (s : State) (b : Nat) (x : Bank) : (s.setBank b x).ackFor = s.ackFor := rfl
@[simp] theorem setBank_delay (s : State) (b : Nat) (x : Bank) : (s.setBank b x).delay = s.delay := rfl
@[simp] theorem setBank_stores (s : State) (b : Nat) (x : Bank) : (s.setBank b x).stores = s.stores := rfl
@[simp] theorem setBank_posted (s : State) (b : Nat) (x : Bank) : (s.setBank b x).posted = s.posted := rfl
@[simp] theorem setBank_nodecfg (s : State) (b : Nat) (x : Bank) : (s.setBank b x).nodecfg = s.nodecfg := rfl
@[simp] theorem setBank_linkto (s : State) (b : Nat) (x : Bank) : (s.setBank b x).linkto = s.linkto := rfl
@[simp] theorem setBank_boot (s : State) (b : Nat) (x : Bank) : (s.setBank b x).boot = s.boot := rfl
@[simp] theorem setBank_exports (s : State) (b : Nat) (x : Bank) : (s.setBank b x).exports = s.exports := rfl
@[simp] theorem setBank_hwin (s : State) (b : Nat) (x : Bank) : (s.setBank b x).hwin = s.hwin := rfl
@[simp] theorem setBank_keys (s : State) (b : Nat) (x : Bank) : (s.setBank b x).keys = s.keys := rfl
@[simp] theorem setBank_fuseCount (s : State) (b : Nat) (x : Bank) : (s.setBank b x).fuseCount = s.fuseCount := rfl
@[simp] theorem setBank_alarms (s : State) (b : Nat) (x : Bank) : (s.setBank b x).alarms = s.alarms := rfl
@[simp] theorem setBank_kernels (s : State) (b : Nat) (x : Bank) : (s.setBank b x).kernels = s.kernels := rfl
@[simp] theorem setBank_ports (s : State) (b : Nat) (x : Bank) : (s.setBank b x).ports = s.ports := rfl
@[simp] theorem setBank_outbox (s : State) (b : Nat) (x : Bank) : (s.setBank b x).outbox = s.outbox := rfl
@[simp] theorem setBank_flagsOut (s : State) (b : Nat) (x : Bank) : (s.setBank b x).flagsOut = s.flagsOut := rfl
@[simp] theorem setBank_notices (s : State) (b : Nat) (x : Bank) : (s.setBank b x).notices = s.notices := rfl
@[simp] theorem setBank_lanternNotices (s : State) (b : Nat) (x : Bank) : (s.setBank b x).lanternNotices = s.lanternNotices := rfl
@[simp] theorem setBank_replies (s : State) (b : Nat) (x : Bank) : (s.setBank b x).replies = s.replies := rfl
@[simp] theorem setBank_fuses (s : State) (b : Nat) (x : Bank) : (s.setBank b x).fuses = s.fuses := rfl
@[simp] theorem setBank_laneFault (s : State) (b : Nat) (x : Bank) : (s.setBank b x).laneFault = s.laneFault := rfl
@[simp] theorem setBank_feCount (s : State) (b : Nat) (x : Bank) : (s.setBank b x).feCount = s.feCount := rfl
@[simp] theorem setBank_inputs (s : State) (b : Nat) (x : Bank) : (s.setBank b x).inputs = s.inputs := rfl
@[simp] theorem setBank_tick (s : State) (b : Nat) (x : Bank) : (s.setBank b x).tick = s.tick := rfl

@[simp] theorem setStack_cur (s : State) (n : Nat) (x : Stack) : (s.setStack n x).cur = s.cur := rfl
@[simp] theorem setStack_thr (s : State) (n : Nat) (x : Stack) : (s.setStack n x).thr = s.thr := rfl
@[simp] theorem setStack_threads (s : State) (n : Nat) (x : Stack) : (s.setStack n x).threads = s.threads := rfl
@[simp] theorem setStack_banks (s : State) (n : Nat) (x : Stack) : (s.setStack n x).banks = s.banks := rfl
@[simp] theorem setStack_dram (s : State) (n : Nat) (x : Stack) : (s.setStack n x).dram = s.dram := rfl
@[simp] theorem setStack_cellPoison (s : State) (n : Nat) (x : Stack) : (s.setStack n x).cellPoison = s.cellPoison := rfl
@[simp] theorem setStack_latent (s : State) (n : Nat) (x : Stack) : (s.setStack n x).latent = s.latent := rfl
@[simp] theorem setStack_upsets (s : State) (n : Nat) (x : Stack) : (s.setStack n x).upsets = s.upsets := rfl
@[simp] theorem setStack_hostMem (s : State) (n : Nat) (x : Stack) : (s.setStack n x).hostMem = s.hostMem := rfl
@[simp] theorem setStack_xlat (s : State) (n : Nat) (x : Stack) : (s.setStack n x).xlat = s.xlat := rfl
@[simp] theorem setStack_ptrs (s : State) (n : Nat) (x : Stack) : (s.setStack n x).ptrs = s.ptrs := rfl
@[simp] theorem setStack_vrun (s : State) (n : Nat) (x : Stack) : (s.setStack n x).vrun = s.vrun := rfl
@[simp] theorem setStack_cut (s : State) (n : Nat) (x : Stack) : (s.setStack n x).cut = s.cut := rfl
@[simp] theorem setStack_farStop (s : State) (n : Nat) (x : Stack) : (s.setStack n x).farStop = s.farStop := rfl
@[simp] theorem setStack_ackFor (s : State) (n : Nat) (x : Stack) : (s.setStack n x).ackFor = s.ackFor := rfl
@[simp] theorem setStack_delay (s : State) (n : Nat) (x : Stack) : (s.setStack n x).delay = s.delay := rfl
@[simp] theorem setStack_stores (s : State) (n : Nat) (x : Stack) : (s.setStack n x).stores = s.stores := rfl
@[simp] theorem setStack_posted (s : State) (n : Nat) (x : Stack) : (s.setStack n x).posted = s.posted := rfl
@[simp] theorem setStack_nodecfg (s : State) (n : Nat) (x : Stack) : (s.setStack n x).nodecfg = s.nodecfg := rfl
@[simp] theorem setStack_linkto (s : State) (n : Nat) (x : Stack) : (s.setStack n x).linkto = s.linkto := rfl
@[simp] theorem setStack_boot (s : State) (n : Nat) (x : Stack) : (s.setStack n x).boot = s.boot := rfl
@[simp] theorem setStack_exports (s : State) (n : Nat) (x : Stack) : (s.setStack n x).exports = s.exports := rfl
@[simp] theorem setStack_hwin (s : State) (n : Nat) (x : Stack) : (s.setStack n x).hwin = s.hwin := rfl
@[simp] theorem setStack_keys (s : State) (n : Nat) (x : Stack) : (s.setStack n x).keys = s.keys := rfl
@[simp] theorem setStack_fuseCount (s : State) (n : Nat) (x : Stack) : (s.setStack n x).fuseCount = s.fuseCount := rfl
@[simp] theorem setStack_alarms (s : State) (n : Nat) (x : Stack) : (s.setStack n x).alarms = s.alarms := rfl
@[simp] theorem setStack_kernels (s : State) (n : Nat) (x : Stack) : (s.setStack n x).kernels = s.kernels := rfl
@[simp] theorem setStack_ports (s : State) (n : Nat) (x : Stack) : (s.setStack n x).ports = s.ports := rfl
@[simp] theorem setStack_outbox (s : State) (n : Nat) (x : Stack) : (s.setStack n x).outbox = s.outbox := rfl
@[simp] theorem setStack_flagsOut (s : State) (n : Nat) (x : Stack) : (s.setStack n x).flagsOut = s.flagsOut := rfl
@[simp] theorem setStack_notices (s : State) (n : Nat) (x : Stack) : (s.setStack n x).notices = s.notices := rfl
@[simp] theorem setStack_lanternNotices (s : State) (n : Nat) (x : Stack) : (s.setStack n x).lanternNotices = s.lanternNotices := rfl
@[simp] theorem setStack_replies (s : State) (n : Nat) (x : Stack) : (s.setStack n x).replies = s.replies := rfl
@[simp] theorem setStack_fuses (s : State) (n : Nat) (x : Stack) : (s.setStack n x).fuses = s.fuses := rfl
@[simp] theorem setStack_laneFault (s : State) (n : Nat) (x : Stack) : (s.setStack n x).laneFault = s.laneFault := rfl
@[simp] theorem setStack_feCount (s : State) (n : Nat) (x : Stack) : (s.setStack n x).feCount = s.feCount := rfl
@[simp] theorem setStack_inputs (s : State) (n : Nat) (x : Stack) : (s.setStack n x).inputs = s.inputs := rfl
@[simp] theorem setStack_tick (s : State) (n : Nat) (x : Stack) : (s.setStack n x).tick = s.tick := rfl

@[simp] theorem setW_cur (s : State) (b : Nat) (k : Fin 16) (r : WReg) : (s.setW b k r).cur = s.cur := rfl
@[simp] theorem setW_thr (s : State) (b : Nat) (k : Fin 16) (r : WReg) : (s.setW b k r).thr = s.thr := rfl
@[simp] theorem setW_threads (s : State) (b : Nat) (k : Fin 16) (r : WReg) : (s.setW b k r).threads = s.threads := rfl
@[simp] theorem setW_stks (s : State) (b : Nat) (k : Fin 16) (r : WReg) : (s.setW b k r).stks = s.stks := rfl
@[simp] theorem setW_dram (s : State) (b : Nat) (k : Fin 16) (r : WReg) : (s.setW b k r).dram = s.dram := rfl
@[simp] theorem setW_cellPoison (s : State) (b : Nat) (k : Fin 16) (r : WReg) : (s.setW b k r).cellPoison = s.cellPoison := rfl
@[simp] theorem setW_latent (s : State) (b : Nat) (k : Fin 16) (r : WReg) : (s.setW b k r).latent = s.latent := rfl
@[simp] theorem setW_upsets (s : State) (b : Nat) (k : Fin 16) (r : WReg) : (s.setW b k r).upsets = s.upsets := rfl
@[simp] theorem setW_hostMem (s : State) (b : Nat) (k : Fin 16) (r : WReg) : (s.setW b k r).hostMem = s.hostMem := rfl
@[simp] theorem setW_xlat (s : State) (b : Nat) (k : Fin 16) (r : WReg) : (s.setW b k r).xlat = s.xlat := rfl
@[simp] theorem setW_ptrs (s : State) (b : Nat) (k : Fin 16) (r : WReg) : (s.setW b k r).ptrs = s.ptrs := rfl
@[simp] theorem setW_vrun (s : State) (b : Nat) (k : Fin 16) (r : WReg) : (s.setW b k r).vrun = s.vrun := rfl
@[simp] theorem setW_cut (s : State) (b : Nat) (k : Fin 16) (r : WReg) : (s.setW b k r).cut = s.cut := rfl
@[simp] theorem setW_farStop (s : State) (b : Nat) (k : Fin 16) (r : WReg) : (s.setW b k r).farStop = s.farStop := rfl
@[simp] theorem setW_ackFor (s : State) (b : Nat) (k : Fin 16) (r : WReg) : (s.setW b k r).ackFor = s.ackFor := rfl
@[simp] theorem setW_delay (s : State) (b : Nat) (k : Fin 16) (r : WReg) : (s.setW b k r).delay = s.delay := rfl
@[simp] theorem setW_stores (s : State) (b : Nat) (k : Fin 16) (r : WReg) : (s.setW b k r).stores = s.stores := rfl
@[simp] theorem setW_posted (s : State) (b : Nat) (k : Fin 16) (r : WReg) : (s.setW b k r).posted = s.posted := rfl
@[simp] theorem setW_nodecfg (s : State) (b : Nat) (k : Fin 16) (r : WReg) : (s.setW b k r).nodecfg = s.nodecfg := rfl
@[simp] theorem setW_linkto (s : State) (b : Nat) (k : Fin 16) (r : WReg) : (s.setW b k r).linkto = s.linkto := rfl
@[simp] theorem setW_boot (s : State) (b : Nat) (k : Fin 16) (r : WReg) : (s.setW b k r).boot = s.boot := rfl
@[simp] theorem setW_exports (s : State) (b : Nat) (k : Fin 16) (r : WReg) : (s.setW b k r).exports = s.exports := rfl
@[simp] theorem setW_hwin (s : State) (b : Nat) (k : Fin 16) (r : WReg) : (s.setW b k r).hwin = s.hwin := rfl
@[simp] theorem setW_keys (s : State) (b : Nat) (k : Fin 16) (r : WReg) : (s.setW b k r).keys = s.keys := rfl
@[simp] theorem setW_fuseCount (s : State) (b : Nat) (k : Fin 16) (r : WReg) : (s.setW b k r).fuseCount = s.fuseCount := rfl
@[simp] theorem setW_alarms (s : State) (b : Nat) (k : Fin 16) (r : WReg) : (s.setW b k r).alarms = s.alarms := rfl
@[simp] theorem setW_kernels (s : State) (b : Nat) (k : Fin 16) (r : WReg) : (s.setW b k r).kernels = s.kernels := rfl
@[simp] theorem setW_ports (s : State) (b : Nat) (k : Fin 16) (r : WReg) : (s.setW b k r).ports = s.ports := rfl
@[simp] theorem setW_outbox (s : State) (b : Nat) (k : Fin 16) (r : WReg) : (s.setW b k r).outbox = s.outbox := rfl
@[simp] theorem setW_flagsOut (s : State) (b : Nat) (k : Fin 16) (r : WReg) : (s.setW b k r).flagsOut = s.flagsOut := rfl
@[simp] theorem setW_notices (s : State) (b : Nat) (k : Fin 16) (r : WReg) : (s.setW b k r).notices = s.notices := rfl
@[simp] theorem setW_lanternNotices (s : State) (b : Nat) (k : Fin 16) (r : WReg) : (s.setW b k r).lanternNotices = s.lanternNotices := rfl
@[simp] theorem setW_replies (s : State) (b : Nat) (k : Fin 16) (r : WReg) : (s.setW b k r).replies = s.replies := rfl
@[simp] theorem setW_fuses (s : State) (b : Nat) (k : Fin 16) (r : WReg) : (s.setW b k r).fuses = s.fuses := rfl
@[simp] theorem setW_laneFault (s : State) (b : Nat) (k : Fin 16) (r : WReg) : (s.setW b k r).laneFault = s.laneFault := rfl
@[simp] theorem setW_feCount (s : State) (b : Nat) (k : Fin 16) (r : WReg) : (s.setW b k r).feCount = s.feCount := rfl
@[simp] theorem setW_inputs (s : State) (b : Nat) (k : Fin 16) (r : WReg) : (s.setW b k r).inputs = s.inputs := rfl
@[simp] theorem setW_tick (s : State) (b : Nat) (k : Fin 16) (r : WReg) : (s.setW b k r).tick = s.tick := rfl

@[simp] theorem setBt_cur (s : State) (j : Nat) (b : BankThread) : (s.setBt j b).cur = s.cur := rfl
@[simp] theorem setBt_threads (s : State) (j : Nat) (b : BankThread) : (s.setBt j b).threads = s.threads := rfl
@[simp] theorem setBt_banks (s : State) (j : Nat) (b : BankThread) : (s.setBt j b).banks = s.banks := rfl
@[simp] theorem setBt_stks (s : State) (j : Nat) (b : BankThread) : (s.setBt j b).stks = s.stks := rfl
@[simp] theorem setBt_dram (s : State) (j : Nat) (b : BankThread) : (s.setBt j b).dram = s.dram := rfl
@[simp] theorem setBt_cellPoison (s : State) (j : Nat) (b : BankThread) : (s.setBt j b).cellPoison = s.cellPoison := rfl
@[simp] theorem setBt_latent (s : State) (j : Nat) (b : BankThread) : (s.setBt j b).latent = s.latent := rfl
@[simp] theorem setBt_upsets (s : State) (j : Nat) (b : BankThread) : (s.setBt j b).upsets = s.upsets := rfl
@[simp] theorem setBt_hostMem (s : State) (j : Nat) (b : BankThread) : (s.setBt j b).hostMem = s.hostMem := rfl
@[simp] theorem setBt_xlat (s : State) (j : Nat) (b : BankThread) : (s.setBt j b).xlat = s.xlat := rfl
@[simp] theorem setBt_ptrs (s : State) (j : Nat) (b : BankThread) : (s.setBt j b).ptrs = s.ptrs := rfl
@[simp] theorem setBt_vrun (s : State) (j : Nat) (b : BankThread) : (s.setBt j b).vrun = s.vrun := rfl
@[simp] theorem setBt_cut (s : State) (j : Nat) (b : BankThread) : (s.setBt j b).cut = s.cut := rfl
@[simp] theorem setBt_farStop (s : State) (j : Nat) (b : BankThread) : (s.setBt j b).farStop = s.farStop := rfl
@[simp] theorem setBt_ackFor (s : State) (j : Nat) (b : BankThread) : (s.setBt j b).ackFor = s.ackFor := rfl
@[simp] theorem setBt_delay (s : State) (j : Nat) (b : BankThread) : (s.setBt j b).delay = s.delay := rfl
@[simp] theorem setBt_stores (s : State) (j : Nat) (b : BankThread) : (s.setBt j b).stores = s.stores := rfl
@[simp] theorem setBt_posted (s : State) (j : Nat) (b : BankThread) : (s.setBt j b).posted = s.posted := rfl
@[simp] theorem setBt_nodecfg (s : State) (j : Nat) (b : BankThread) : (s.setBt j b).nodecfg = s.nodecfg := rfl
@[simp] theorem setBt_linkto (s : State) (j : Nat) (b : BankThread) : (s.setBt j b).linkto = s.linkto := rfl
@[simp] theorem setBt_boot (s : State) (j : Nat) (b : BankThread) : (s.setBt j b).boot = s.boot := rfl
@[simp] theorem setBt_exports (s : State) (j : Nat) (b : BankThread) : (s.setBt j b).exports = s.exports := rfl
@[simp] theorem setBt_hwin (s : State) (j : Nat) (b : BankThread) : (s.setBt j b).hwin = s.hwin := rfl
@[simp] theorem setBt_keys (s : State) (j : Nat) (b : BankThread) : (s.setBt j b).keys = s.keys := rfl
@[simp] theorem setBt_fuseCount (s : State) (j : Nat) (b : BankThread) : (s.setBt j b).fuseCount = s.fuseCount := rfl
@[simp] theorem setBt_alarms (s : State) (j : Nat) (b : BankThread) : (s.setBt j b).alarms = s.alarms := rfl
@[simp] theorem setBt_kernels (s : State) (j : Nat) (b : BankThread) : (s.setBt j b).kernels = s.kernels := rfl
@[simp] theorem setBt_ports (s : State) (j : Nat) (b : BankThread) : (s.setBt j b).ports = s.ports := rfl
@[simp] theorem setBt_outbox (s : State) (j : Nat) (b : BankThread) : (s.setBt j b).outbox = s.outbox := rfl
@[simp] theorem setBt_flagsOut (s : State) (j : Nat) (b : BankThread) : (s.setBt j b).flagsOut = s.flagsOut := rfl
@[simp] theorem setBt_notices (s : State) (j : Nat) (b : BankThread) : (s.setBt j b).notices = s.notices := rfl
@[simp] theorem setBt_lanternNotices (s : State) (j : Nat) (b : BankThread) : (s.setBt j b).lanternNotices = s.lanternNotices := rfl
@[simp] theorem setBt_replies (s : State) (j : Nat) (b : BankThread) : (s.setBt j b).replies = s.replies := rfl
@[simp] theorem setBt_fuses (s : State) (j : Nat) (b : BankThread) : (s.setBt j b).fuses = s.fuses := rfl
@[simp] theorem setBt_laneFault (s : State) (j : Nat) (b : BankThread) : (s.setBt j b).laneFault = s.laneFault := rfl
@[simp] theorem setBt_feCount (s : State) (j : Nat) (b : BankThread) : (s.setBt j b).feCount = s.feCount := rfl
@[simp] theorem setBt_inputs (s : State) (j : Nat) (b : BankThread) : (s.setBt j b).inputs = s.inputs := rfl
@[simp] theorem setBt_tick (s : State) (j : Nat) (b : BankThread) : (s.setBt j b).tick = s.tick := rfl

@[simp] theorem setFront_cur (s : State) (f : Front) : (s.setFront f).cur = s.cur := by unfold State.setFront; split <;> rfl
@[simp] theorem setFront_threads (s : State) (f : Front) : (s.setFront f).threads = s.threads := by unfold State.setFront; split <;> rfl
@[simp] theorem setFront_banks (s : State) (f : Front) : (s.setFront f).banks = s.banks := by unfold State.setFront; split <;> rfl
@[simp] theorem setFront_stks (s : State) (f : Front) : (s.setFront f).stks = s.stks := by unfold State.setFront; split <;> rfl
@[simp] theorem setFront_dram (s : State) (f : Front) : (s.setFront f).dram = s.dram := by unfold State.setFront; split <;> rfl
@[simp] theorem setFront_cellPoison (s : State) (f : Front) : (s.setFront f).cellPoison = s.cellPoison := by unfold State.setFront; split <;> rfl
@[simp] theorem setFront_latent (s : State) (f : Front) : (s.setFront f).latent = s.latent := by unfold State.setFront; split <;> rfl
@[simp] theorem setFront_upsets (s : State) (f : Front) : (s.setFront f).upsets = s.upsets := by unfold State.setFront; split <;> rfl
@[simp] theorem setFront_hostMem (s : State) (f : Front) : (s.setFront f).hostMem = s.hostMem := by unfold State.setFront; split <;> rfl
@[simp] theorem setFront_xlat (s : State) (f : Front) : (s.setFront f).xlat = s.xlat := by unfold State.setFront; split <;> rfl
@[simp] theorem setFront_ptrs (s : State) (f : Front) : (s.setFront f).ptrs = s.ptrs := by unfold State.setFront; split <;> rfl
@[simp] theorem setFront_vrun (s : State) (f : Front) : (s.setFront f).vrun = s.vrun := by unfold State.setFront; split <;> rfl
@[simp] theorem setFront_cut (s : State) (f : Front) : (s.setFront f).cut = s.cut := by unfold State.setFront; split <;> rfl
@[simp] theorem setFront_farStop (s : State) (f : Front) : (s.setFront f).farStop = s.farStop := by unfold State.setFront; split <;> rfl
@[simp] theorem setFront_ackFor (s : State) (f : Front) : (s.setFront f).ackFor = s.ackFor := by unfold State.setFront; split <;> rfl
@[simp] theorem setFront_delay (s : State) (f : Front) : (s.setFront f).delay = s.delay := by unfold State.setFront; split <;> rfl
@[simp] theorem setFront_stores (s : State) (f : Front) : (s.setFront f).stores = s.stores := by unfold State.setFront; split <;> rfl
@[simp] theorem setFront_posted (s : State) (f : Front) : (s.setFront f).posted = s.posted := by unfold State.setFront; split <;> rfl
@[simp] theorem setFront_nodecfg (s : State) (f : Front) : (s.setFront f).nodecfg = s.nodecfg := by unfold State.setFront; split <;> rfl
@[simp] theorem setFront_linkto (s : State) (f : Front) : (s.setFront f).linkto = s.linkto := by unfold State.setFront; split <;> rfl
@[simp] theorem setFront_boot (s : State) (f : Front) : (s.setFront f).boot = s.boot := by unfold State.setFront; split <;> rfl
@[simp] theorem setFront_exports (s : State) (f : Front) : (s.setFront f).exports = s.exports := by unfold State.setFront; split <;> rfl
@[simp] theorem setFront_hwin (s : State) (f : Front) : (s.setFront f).hwin = s.hwin := by unfold State.setFront; split <;> rfl
@[simp] theorem setFront_keys (s : State) (f : Front) : (s.setFront f).keys = s.keys := by unfold State.setFront; split <;> rfl
@[simp] theorem setFront_fuseCount (s : State) (f : Front) : (s.setFront f).fuseCount = s.fuseCount := by unfold State.setFront; split <;> rfl
@[simp] theorem setFront_alarms (s : State) (f : Front) : (s.setFront f).alarms = s.alarms := by unfold State.setFront; split <;> rfl
@[simp] theorem setFront_kernels (s : State) (f : Front) : (s.setFront f).kernels = s.kernels := by unfold State.setFront; split <;> rfl
@[simp] theorem setFront_ports (s : State) (f : Front) : (s.setFront f).ports = s.ports := by unfold State.setFront; split <;> rfl
@[simp] theorem setFront_outbox (s : State) (f : Front) : (s.setFront f).outbox = s.outbox := by unfold State.setFront; split <;> rfl
@[simp] theorem setFront_flagsOut (s : State) (f : Front) : (s.setFront f).flagsOut = s.flagsOut := by unfold State.setFront; split <;> rfl
@[simp] theorem setFront_notices (s : State) (f : Front) : (s.setFront f).notices = s.notices := by unfold State.setFront; split <;> rfl
@[simp] theorem setFront_lanternNotices (s : State) (f : Front) : (s.setFront f).lanternNotices = s.lanternNotices := by unfold State.setFront; split <;> rfl
@[simp] theorem setFront_replies (s : State) (f : Front) : (s.setFront f).replies = s.replies := by unfold State.setFront; split <;> rfl
@[simp] theorem setFront_fuses (s : State) (f : Front) : (s.setFront f).fuses = s.fuses := by unfold State.setFront; split <;> rfl
@[simp] theorem setFront_laneFault (s : State) (f : Front) : (s.setFront f).laneFault = s.laneFault := by unfold State.setFront; split <;> rfl
@[simp] theorem setFront_feCount (s : State) (f : Front) : (s.setFront f).feCount = s.feCount := by unfold State.setFront; split <;> rfl
@[simp] theorem setFront_inputs (s : State) (f : Front) : (s.setFront f).inputs = s.inputs := by unfold State.setFront; split <;> rfl
@[simp] theorem setFront_tick (s : State) (f : Front) : (s.setFront f).tick = s.tick := by unfold State.setFront; split <;> rfl

@[simp] theorem setVstart_cur (s : State) (n : Nat) : (s.setVstart n).cur = s.cur := setFront_cur s _
@[simp] theorem setVstart_threads (s : State) (n : Nat) : (s.setVstart n).threads = s.threads := setFront_threads s _
@[simp] theorem setVstart_banks (s : State) (n : Nat) : (s.setVstart n).banks = s.banks := setFront_banks s _
@[simp] theorem setVstart_stks (s : State) (n : Nat) : (s.setVstart n).stks = s.stks := setFront_stks s _
@[simp] theorem setVstart_dram (s : State) (n : Nat) : (s.setVstart n).dram = s.dram := setFront_dram s _
@[simp] theorem setVstart_cellPoison (s : State) (n : Nat) : (s.setVstart n).cellPoison = s.cellPoison := setFront_cellPoison s _
@[simp] theorem setVstart_latent (s : State) (n : Nat) : (s.setVstart n).latent = s.latent := setFront_latent s _
@[simp] theorem setVstart_upsets (s : State) (n : Nat) : (s.setVstart n).upsets = s.upsets := setFront_upsets s _
@[simp] theorem setVstart_hostMem (s : State) (n : Nat) : (s.setVstart n).hostMem = s.hostMem := setFront_hostMem s _
@[simp] theorem setVstart_xlat (s : State) (n : Nat) : (s.setVstart n).xlat = s.xlat := setFront_xlat s _
@[simp] theorem setVstart_ptrs (s : State) (n : Nat) : (s.setVstart n).ptrs = s.ptrs := setFront_ptrs s _
@[simp] theorem setVstart_vrun (s : State) (n : Nat) : (s.setVstart n).vrun = s.vrun := setFront_vrun s _
@[simp] theorem setVstart_cut (s : State) (n : Nat) : (s.setVstart n).cut = s.cut := setFront_cut s _
@[simp] theorem setVstart_farStop (s : State) (n : Nat) : (s.setVstart n).farStop = s.farStop := setFront_farStop s _
@[simp] theorem setVstart_ackFor (s : State) (n : Nat) : (s.setVstart n).ackFor = s.ackFor := setFront_ackFor s _
@[simp] theorem setVstart_delay (s : State) (n : Nat) : (s.setVstart n).delay = s.delay := setFront_delay s _
@[simp] theorem setVstart_stores (s : State) (n : Nat) : (s.setVstart n).stores = s.stores := setFront_stores s _
@[simp] theorem setVstart_posted (s : State) (n : Nat) : (s.setVstart n).posted = s.posted := setFront_posted s _
@[simp] theorem setVstart_nodecfg (s : State) (n : Nat) : (s.setVstart n).nodecfg = s.nodecfg := setFront_nodecfg s _
@[simp] theorem setVstart_linkto (s : State) (n : Nat) : (s.setVstart n).linkto = s.linkto := setFront_linkto s _
@[simp] theorem setVstart_boot (s : State) (n : Nat) : (s.setVstart n).boot = s.boot := setFront_boot s _
@[simp] theorem setVstart_exports (s : State) (n : Nat) : (s.setVstart n).exports = s.exports := setFront_exports s _
@[simp] theorem setVstart_hwin (s : State) (n : Nat) : (s.setVstart n).hwin = s.hwin := setFront_hwin s _
@[simp] theorem setVstart_keys (s : State) (n : Nat) : (s.setVstart n).keys = s.keys := setFront_keys s _
@[simp] theorem setVstart_fuseCount (s : State) (n : Nat) : (s.setVstart n).fuseCount = s.fuseCount := setFront_fuseCount s _
@[simp] theorem setVstart_alarms (s : State) (n : Nat) : (s.setVstart n).alarms = s.alarms := setFront_alarms s _
@[simp] theorem setVstart_kernels (s : State) (n : Nat) : (s.setVstart n).kernels = s.kernels := setFront_kernels s _
@[simp] theorem setVstart_ports (s : State) (n : Nat) : (s.setVstart n).ports = s.ports := setFront_ports s _
@[simp] theorem setVstart_outbox (s : State) (n : Nat) : (s.setVstart n).outbox = s.outbox := setFront_outbox s _
@[simp] theorem setVstart_flagsOut (s : State) (n : Nat) : (s.setVstart n).flagsOut = s.flagsOut := setFront_flagsOut s _
@[simp] theorem setVstart_notices (s : State) (n : Nat) : (s.setVstart n).notices = s.notices := setFront_notices s _
@[simp] theorem setVstart_lanternNotices (s : State) (n : Nat) : (s.setVstart n).lanternNotices = s.lanternNotices := setFront_lanternNotices s _
@[simp] theorem setVstart_replies (s : State) (n : Nat) : (s.setVstart n).replies = s.replies := setFront_replies s _
@[simp] theorem setVstart_fuses (s : State) (n : Nat) : (s.setVstart n).fuses = s.fuses := setFront_fuses s _
@[simp] theorem setVstart_laneFault (s : State) (n : Nat) : (s.setVstart n).laneFault = s.laneFault := setFront_laneFault s _
@[simp] theorem setVstart_feCount (s : State) (n : Nat) : (s.setVstart n).feCount = s.feCount := setFront_feCount s _
@[simp] theorem setVstart_inputs (s : State) (n : Nat) : (s.setVstart n).inputs = s.inputs := setFront_inputs s _
@[simp] theorem setVstart_tick (s : State) (n : Nat) : (s.setVstart n).tick = s.tick := setFront_tick s _

@[simp] theorem setS_cur (s : State) (r : Fin 64) (v : SReg) : (s.setS r v).cur = s.cur := by unfold State.setS; split <;> (try split) <;> rfl
@[simp] theorem setS_threads (s : State) (r : Fin 64) (v : SReg) : (s.setS r v).threads = s.threads := by unfold State.setS; split <;> (try split) <;> rfl
@[simp] theorem setS_stks (s : State) (r : Fin 64) (v : SReg) : (s.setS r v).stks = s.stks := by unfold State.setS; split <;> (try split) <;> rfl
@[simp] theorem setS_dram (s : State) (r : Fin 64) (v : SReg) : (s.setS r v).dram = s.dram := by unfold State.setS; split <;> (try split) <;> rfl
@[simp] theorem setS_cellPoison (s : State) (r : Fin 64) (v : SReg) : (s.setS r v).cellPoison = s.cellPoison := by unfold State.setS; split <;> (try split) <;> rfl
@[simp] theorem setS_latent (s : State) (r : Fin 64) (v : SReg) : (s.setS r v).latent = s.latent := by unfold State.setS; split <;> (try split) <;> rfl
@[simp] theorem setS_upsets (s : State) (r : Fin 64) (v : SReg) : (s.setS r v).upsets = s.upsets := by unfold State.setS; split <;> (try split) <;> rfl
@[simp] theorem setS_hostMem (s : State) (r : Fin 64) (v : SReg) : (s.setS r v).hostMem = s.hostMem := by unfold State.setS; split <;> (try split) <;> rfl
@[simp] theorem setS_xlat (s : State) (r : Fin 64) (v : SReg) : (s.setS r v).xlat = s.xlat := by unfold State.setS; split <;> (try split) <;> rfl
@[simp] theorem setS_ptrs (s : State) (r : Fin 64) (v : SReg) : (s.setS r v).ptrs = s.ptrs := by unfold State.setS; split <;> (try split) <;> rfl
@[simp] theorem setS_vrun (s : State) (r : Fin 64) (v : SReg) : (s.setS r v).vrun = s.vrun := by unfold State.setS; split <;> (try split) <;> rfl
@[simp] theorem setS_cut (s : State) (r : Fin 64) (v : SReg) : (s.setS r v).cut = s.cut := by unfold State.setS; split <;> (try split) <;> rfl
@[simp] theorem setS_farStop (s : State) (r : Fin 64) (v : SReg) : (s.setS r v).farStop = s.farStop := by unfold State.setS; split <;> (try split) <;> rfl
@[simp] theorem setS_ackFor (s : State) (r : Fin 64) (v : SReg) : (s.setS r v).ackFor = s.ackFor := by unfold State.setS; split <;> (try split) <;> rfl
@[simp] theorem setS_delay (s : State) (r : Fin 64) (v : SReg) : (s.setS r v).delay = s.delay := by unfold State.setS; split <;> (try split) <;> rfl
@[simp] theorem setS_stores (s : State) (r : Fin 64) (v : SReg) : (s.setS r v).stores = s.stores := by unfold State.setS; split <;> (try split) <;> rfl
@[simp] theorem setS_posted (s : State) (r : Fin 64) (v : SReg) : (s.setS r v).posted = s.posted := by unfold State.setS; split <;> (try split) <;> rfl
@[simp] theorem setS_nodecfg (s : State) (r : Fin 64) (v : SReg) : (s.setS r v).nodecfg = s.nodecfg := by unfold State.setS; split <;> (try split) <;> rfl
@[simp] theorem setS_linkto (s : State) (r : Fin 64) (v : SReg) : (s.setS r v).linkto = s.linkto := by unfold State.setS; split <;> (try split) <;> rfl
@[simp] theorem setS_boot (s : State) (r : Fin 64) (v : SReg) : (s.setS r v).boot = s.boot := by unfold State.setS; split <;> (try split) <;> rfl
@[simp] theorem setS_exports (s : State) (r : Fin 64) (v : SReg) : (s.setS r v).exports = s.exports := by unfold State.setS; split <;> (try split) <;> rfl
@[simp] theorem setS_hwin (s : State) (r : Fin 64) (v : SReg) : (s.setS r v).hwin = s.hwin := by unfold State.setS; split <;> (try split) <;> rfl
@[simp] theorem setS_keys (s : State) (r : Fin 64) (v : SReg) : (s.setS r v).keys = s.keys := by unfold State.setS; split <;> (try split) <;> rfl
@[simp] theorem setS_fuseCount (s : State) (r : Fin 64) (v : SReg) : (s.setS r v).fuseCount = s.fuseCount := by unfold State.setS; split <;> (try split) <;> rfl
@[simp] theorem setS_alarms (s : State) (r : Fin 64) (v : SReg) : (s.setS r v).alarms = s.alarms := by unfold State.setS; split <;> (try split) <;> rfl
@[simp] theorem setS_kernels (s : State) (r : Fin 64) (v : SReg) : (s.setS r v).kernels = s.kernels := by unfold State.setS; split <;> (try split) <;> rfl
@[simp] theorem setS_ports (s : State) (r : Fin 64) (v : SReg) : (s.setS r v).ports = s.ports := by unfold State.setS; split <;> (try split) <;> rfl
@[simp] theorem setS_outbox (s : State) (r : Fin 64) (v : SReg) : (s.setS r v).outbox = s.outbox := by unfold State.setS; split <;> (try split) <;> rfl
@[simp] theorem setS_flagsOut (s : State) (r : Fin 64) (v : SReg) : (s.setS r v).flagsOut = s.flagsOut := by unfold State.setS; split <;> (try split) <;> rfl
@[simp] theorem setS_notices (s : State) (r : Fin 64) (v : SReg) : (s.setS r v).notices = s.notices := by unfold State.setS; split <;> (try split) <;> rfl
@[simp] theorem setS_lanternNotices (s : State) (r : Fin 64) (v : SReg) : (s.setS r v).lanternNotices = s.lanternNotices := by unfold State.setS; split <;> (try split) <;> rfl
@[simp] theorem setS_replies (s : State) (r : Fin 64) (v : SReg) : (s.setS r v).replies = s.replies := by unfold State.setS; split <;> (try split) <;> rfl
@[simp] theorem setS_fuses (s : State) (r : Fin 64) (v : SReg) : (s.setS r v).fuses = s.fuses := by unfold State.setS; split <;> (try split) <;> rfl
@[simp] theorem setS_laneFault (s : State) (r : Fin 64) (v : SReg) : (s.setS r v).laneFault = s.laneFault := by unfold State.setS; split <;> (try split) <;> rfl
@[simp] theorem setS_feCount (s : State) (r : Fin 64) (v : SReg) : (s.setS r v).feCount = s.feCount := by unfold State.setS; split <;> (try split) <;> rfl
@[simp] theorem setS_inputs (s : State) (r : Fin 64) (v : SReg) : (s.setS r v).inputs = s.inputs := by unfold State.setS; split <;> (try split) <;> rfl
@[simp] theorem setS_tick (s : State) (r : Fin 64) (v : SReg) : (s.setS r v).tick = s.tick := by unfold State.setS; split <;> (try split) <;> rfl

@[simp] theorem draw_cur (s : State)  : (s.draw.2).cur = s.cur := rfl
@[simp] theorem draw_thr (s : State)  : (s.draw.2).thr = s.thr := rfl
@[simp] theorem draw_threads (s : State)  : (s.draw.2).threads = s.threads := rfl
@[simp] theorem draw_banks (s : State)  : (s.draw.2).banks = s.banks := rfl
@[simp] theorem draw_stks (s : State)  : (s.draw.2).stks = s.stks := rfl
@[simp] theorem draw_dram (s : State)  : (s.draw.2).dram = s.dram := rfl
@[simp] theorem draw_cellPoison (s : State)  : (s.draw.2).cellPoison = s.cellPoison := rfl
@[simp] theorem draw_latent (s : State)  : (s.draw.2).latent = s.latent := rfl
@[simp] theorem draw_upsets (s : State)  : (s.draw.2).upsets = s.upsets := rfl
@[simp] theorem draw_hostMem (s : State)  : (s.draw.2).hostMem = s.hostMem := rfl
@[simp] theorem draw_xlat (s : State)  : (s.draw.2).xlat = s.xlat := rfl
@[simp] theorem draw_ptrs (s : State)  : (s.draw.2).ptrs = s.ptrs := rfl
@[simp] theorem draw_vrun (s : State)  : (s.draw.2).vrun = s.vrun := rfl
@[simp] theorem draw_cut (s : State)  : (s.draw.2).cut = s.cut := rfl
@[simp] theorem draw_farStop (s : State)  : (s.draw.2).farStop = s.farStop := rfl
@[simp] theorem draw_ackFor (s : State)  : (s.draw.2).ackFor = s.ackFor := rfl
@[simp] theorem draw_delay (s : State)  : (s.draw.2).delay = s.delay := rfl
@[simp] theorem draw_stores (s : State)  : (s.draw.2).stores = s.stores := rfl
@[simp] theorem draw_posted (s : State)  : (s.draw.2).posted = s.posted := rfl
@[simp] theorem draw_nodecfg (s : State)  : (s.draw.2).nodecfg = s.nodecfg := rfl
@[simp] theorem draw_linkto (s : State)  : (s.draw.2).linkto = s.linkto := rfl
@[simp] theorem draw_boot (s : State)  : (s.draw.2).boot = s.boot := rfl
@[simp] theorem draw_exports (s : State)  : (s.draw.2).exports = s.exports := rfl
@[simp] theorem draw_hwin (s : State)  : (s.draw.2).hwin = s.hwin := rfl
@[simp] theorem draw_keys (s : State)  : (s.draw.2).keys = s.keys := rfl
@[simp] theorem draw_fuseCount (s : State)  : (s.draw.2).fuseCount = s.fuseCount := rfl
@[simp] theorem draw_alarms (s : State)  : (s.draw.2).alarms = s.alarms := rfl
@[simp] theorem draw_kernels (s : State)  : (s.draw.2).kernels = s.kernels := rfl
@[simp] theorem draw_ports (s : State)  : (s.draw.2).ports = s.ports := rfl
@[simp] theorem draw_outbox (s : State)  : (s.draw.2).outbox = s.outbox := rfl
@[simp] theorem draw_flagsOut (s : State)  : (s.draw.2).flagsOut = s.flagsOut := rfl
@[simp] theorem draw_notices (s : State)  : (s.draw.2).notices = s.notices := rfl
@[simp] theorem draw_lanternNotices (s : State)  : (s.draw.2).lanternNotices = s.lanternNotices := rfl
@[simp] theorem draw_replies (s : State)  : (s.draw.2).replies = s.replies := rfl
@[simp] theorem draw_fuses (s : State)  : (s.draw.2).fuses = s.fuses := rfl
@[simp] theorem draw_laneFault (s : State)  : (s.draw.2).laneFault = s.laneFault := rfl
@[simp] theorem draw_feCount (s : State)  : (s.draw.2).feCount = s.feCount := rfl
@[simp] theorem draw_inputs (s : State)  : (s.draw.2).inputs = s.inputs := rfl

@[simp] theorem setThread_cur (s : State) (i : Nat) (t : Thread) : (s.setThread i t).cur = s.cur := by unfold State.setThread; split <;> rfl
@[simp] theorem setThread_banks (s : State) (i : Nat) (t : Thread) : (s.setThread i t).banks = s.banks := by unfold State.setThread; split <;> rfl
@[simp] theorem setThread_stks (s : State) (i : Nat) (t : Thread) : (s.setThread i t).stks = s.stks := by unfold State.setThread; split <;> rfl
@[simp] theorem setThread_dram (s : State) (i : Nat) (t : Thread) : (s.setThread i t).dram = s.dram := by unfold State.setThread; split <;> rfl
@[simp] theorem setThread_cellPoison (s : State) (i : Nat) (t : Thread) : (s.setThread i t).cellPoison = s.cellPoison := by unfold State.setThread; split <;> rfl
@[simp] theorem setThread_latent (s : State) (i : Nat) (t : Thread) : (s.setThread i t).latent = s.latent := by unfold State.setThread; split <;> rfl
@[simp] theorem setThread_upsets (s : State) (i : Nat) (t : Thread) : (s.setThread i t).upsets = s.upsets := by unfold State.setThread; split <;> rfl
@[simp] theorem setThread_hostMem (s : State) (i : Nat) (t : Thread) : (s.setThread i t).hostMem = s.hostMem := by unfold State.setThread; split <;> rfl
@[simp] theorem setThread_xlat (s : State) (i : Nat) (t : Thread) : (s.setThread i t).xlat = s.xlat := by unfold State.setThread; split <;> rfl
@[simp] theorem setThread_ptrs (s : State) (i : Nat) (t : Thread) : (s.setThread i t).ptrs = s.ptrs := by unfold State.setThread; split <;> rfl
@[simp] theorem setThread_vrun (s : State) (i : Nat) (t : Thread) : (s.setThread i t).vrun = s.vrun := by unfold State.setThread; split <;> rfl
@[simp] theorem setThread_cut (s : State) (i : Nat) (t : Thread) : (s.setThread i t).cut = s.cut := by unfold State.setThread; split <;> rfl
@[simp] theorem setThread_farStop (s : State) (i : Nat) (t : Thread) : (s.setThread i t).farStop = s.farStop := by unfold State.setThread; split <;> rfl
@[simp] theorem setThread_ackFor (s : State) (i : Nat) (t : Thread) : (s.setThread i t).ackFor = s.ackFor := by unfold State.setThread; split <;> rfl
@[simp] theorem setThread_delay (s : State) (i : Nat) (t : Thread) : (s.setThread i t).delay = s.delay := by unfold State.setThread; split <;> rfl
@[simp] theorem setThread_stores (s : State) (i : Nat) (t : Thread) : (s.setThread i t).stores = s.stores := by unfold State.setThread; split <;> rfl
@[simp] theorem setThread_posted (s : State) (i : Nat) (t : Thread) : (s.setThread i t).posted = s.posted := by unfold State.setThread; split <;> rfl
@[simp] theorem setThread_nodecfg (s : State) (i : Nat) (t : Thread) : (s.setThread i t).nodecfg = s.nodecfg := by unfold State.setThread; split <;> rfl
@[simp] theorem setThread_linkto (s : State) (i : Nat) (t : Thread) : (s.setThread i t).linkto = s.linkto := by unfold State.setThread; split <;> rfl
@[simp] theorem setThread_boot (s : State) (i : Nat) (t : Thread) : (s.setThread i t).boot = s.boot := by unfold State.setThread; split <;> rfl
@[simp] theorem setThread_exports (s : State) (i : Nat) (t : Thread) : (s.setThread i t).exports = s.exports := by unfold State.setThread; split <;> rfl
@[simp] theorem setThread_hwin (s : State) (i : Nat) (t : Thread) : (s.setThread i t).hwin = s.hwin := by unfold State.setThread; split <;> rfl
@[simp] theorem setThread_keys (s : State) (i : Nat) (t : Thread) : (s.setThread i t).keys = s.keys := by unfold State.setThread; split <;> rfl
@[simp] theorem setThread_fuseCount (s : State) (i : Nat) (t : Thread) : (s.setThread i t).fuseCount = s.fuseCount := by unfold State.setThread; split <;> rfl
@[simp] theorem setThread_alarms (s : State) (i : Nat) (t : Thread) : (s.setThread i t).alarms = s.alarms := by unfold State.setThread; split <;> rfl
@[simp] theorem setThread_kernels (s : State) (i : Nat) (t : Thread) : (s.setThread i t).kernels = s.kernels := by unfold State.setThread; split <;> rfl
@[simp] theorem setThread_ports (s : State) (i : Nat) (t : Thread) : (s.setThread i t).ports = s.ports := by unfold State.setThread; split <;> rfl
@[simp] theorem setThread_outbox (s : State) (i : Nat) (t : Thread) : (s.setThread i t).outbox = s.outbox := by unfold State.setThread; split <;> rfl
@[simp] theorem setThread_flagsOut (s : State) (i : Nat) (t : Thread) : (s.setThread i t).flagsOut = s.flagsOut := by unfold State.setThread; split <;> rfl
@[simp] theorem setThread_notices (s : State) (i : Nat) (t : Thread) : (s.setThread i t).notices = s.notices := by unfold State.setThread; split <;> rfl
@[simp] theorem setThread_lanternNotices (s : State) (i : Nat) (t : Thread) : (s.setThread i t).lanternNotices = s.lanternNotices := by unfold State.setThread; split <;> rfl
@[simp] theorem setThread_replies (s : State) (i : Nat) (t : Thread) : (s.setThread i t).replies = s.replies := by unfold State.setThread; split <;> rfl
@[simp] theorem setThread_fuses (s : State) (i : Nat) (t : Thread) : (s.setThread i t).fuses = s.fuses := by unfold State.setThread; split <;> rfl
@[simp] theorem setThread_laneFault (s : State) (i : Nat) (t : Thread) : (s.setThread i t).laneFault = s.laneFault := by unfold State.setThread; split <;> rfl
@[simp] theorem setThread_feCount (s : State) (i : Nat) (t : Thread) : (s.setThread i t).feCount = s.feCount := by unfold State.setThread; split <;> rfl
@[simp] theorem setThread_inputs (s : State) (i : Nat) (t : Thread) : (s.setThread i t).inputs = s.inputs := by unfold State.setThread; split <;> rfl
@[simp] theorem setThread_tick (s : State) (i : Nat) (t : Thread) : (s.setThread i t).tick = s.tick := by unfold State.setThread; split <;> rfl

@[simp] theorem retire_cur (s : State)  : (s.retire).cur = s.cur := setFront_cur s _
@[simp] theorem retire_threads (s : State)  : (s.retire).threads = s.threads := setFront_threads s _
@[simp] theorem retire_banks (s : State)  : (s.retire).banks = s.banks := setFront_banks s _
@[simp] theorem retire_stks (s : State)  : (s.retire).stks = s.stks := setFront_stks s _
@[simp] theorem retire_dram (s : State)  : (s.retire).dram = s.dram := setFront_dram s _
@[simp] theorem retire_cellPoison (s : State)  : (s.retire).cellPoison = s.cellPoison := setFront_cellPoison s _
@[simp] theorem retire_latent (s : State)  : (s.retire).latent = s.latent := setFront_latent s _
@[simp] theorem retire_upsets (s : State)  : (s.retire).upsets = s.upsets := setFront_upsets s _
@[simp] theorem retire_hostMem (s : State)  : (s.retire).hostMem = s.hostMem := setFront_hostMem s _
@[simp] theorem retire_xlat (s : State)  : (s.retire).xlat = s.xlat := setFront_xlat s _
@[simp] theorem retire_ptrs (s : State)  : (s.retire).ptrs = s.ptrs := setFront_ptrs s _
@[simp] theorem retire_vrun (s : State)  : (s.retire).vrun = s.vrun := setFront_vrun s _
@[simp] theorem retire_cut (s : State)  : (s.retire).cut = s.cut := setFront_cut s _
@[simp] theorem retire_farStop (s : State)  : (s.retire).farStop = s.farStop := setFront_farStop s _
@[simp] theorem retire_ackFor (s : State)  : (s.retire).ackFor = s.ackFor := setFront_ackFor s _
@[simp] theorem retire_delay (s : State)  : (s.retire).delay = s.delay := setFront_delay s _
@[simp] theorem retire_stores (s : State)  : (s.retire).stores = s.stores := setFront_stores s _
@[simp] theorem retire_posted (s : State)  : (s.retire).posted = s.posted := setFront_posted s _
@[simp] theorem retire_nodecfg (s : State)  : (s.retire).nodecfg = s.nodecfg := setFront_nodecfg s _
@[simp] theorem retire_linkto (s : State)  : (s.retire).linkto = s.linkto := setFront_linkto s _
@[simp] theorem retire_boot (s : State)  : (s.retire).boot = s.boot := setFront_boot s _
@[simp] theorem retire_exports (s : State)  : (s.retire).exports = s.exports := setFront_exports s _
@[simp] theorem retire_hwin (s : State)  : (s.retire).hwin = s.hwin := setFront_hwin s _
@[simp] theorem retire_keys (s : State)  : (s.retire).keys = s.keys := setFront_keys s _
@[simp] theorem retire_fuseCount (s : State)  : (s.retire).fuseCount = s.fuseCount := setFront_fuseCount s _
@[simp] theorem retire_alarms (s : State)  : (s.retire).alarms = s.alarms := setFront_alarms s _
@[simp] theorem retire_kernels (s : State)  : (s.retire).kernels = s.kernels := setFront_kernels s _
@[simp] theorem retire_ports (s : State)  : (s.retire).ports = s.ports := setFront_ports s _
@[simp] theorem retire_outbox (s : State)  : (s.retire).outbox = s.outbox := setFront_outbox s _
@[simp] theorem retire_flagsOut (s : State)  : (s.retire).flagsOut = s.flagsOut := setFront_flagsOut s _
@[simp] theorem retire_notices (s : State)  : (s.retire).notices = s.notices := setFront_notices s _
@[simp] theorem retire_lanternNotices (s : State)  : (s.retire).lanternNotices = s.lanternNotices := setFront_lanternNotices s _
@[simp] theorem retire_replies (s : State)  : (s.retire).replies = s.replies := setFront_replies s _
@[simp] theorem retire_fuses (s : State)  : (s.retire).fuses = s.fuses := setFront_fuses s _
@[simp] theorem retire_laneFault (s : State)  : (s.retire).laneFault = s.laneFault := setFront_laneFault s _
@[simp] theorem retire_inputs (s : State)  : (s.retire).inputs = s.inputs := setFront_inputs s _
@[simp] theorem retire_tick (s : State)  : (s.retire).tick = s.tick := setFront_tick s _

@[simp] theorem complete_cur (s : State) (n : Nat) : (complete n s).cur = s.cur := by simp [complete]
@[simp] theorem complete_threads (s : State) (n : Nat) : (complete n s).threads = s.threads := by simp [complete]
@[simp] theorem complete_banks (s : State) (n : Nat) : (complete n s).banks = s.banks := by simp [complete]
@[simp] theorem complete_stks (s : State) (n : Nat) : (complete n s).stks = s.stks := by simp [complete]
@[simp] theorem complete_dram (s : State) (n : Nat) : (complete n s).dram = s.dram := by simp [complete]
@[simp] theorem complete_cellPoison (s : State) (n : Nat) : (complete n s).cellPoison = s.cellPoison := by simp [complete]
@[simp] theorem complete_latent (s : State) (n : Nat) : (complete n s).latent = s.latent := by simp [complete]
@[simp] theorem complete_upsets (s : State) (n : Nat) : (complete n s).upsets = s.upsets := by simp [complete]
@[simp] theorem complete_hostMem (s : State) (n : Nat) : (complete n s).hostMem = s.hostMem := by simp [complete]
@[simp] theorem complete_xlat (s : State) (n : Nat) : (complete n s).xlat = s.xlat := by simp [complete]
@[simp] theorem complete_ptrs (s : State) (n : Nat) : (complete n s).ptrs = s.ptrs := by simp [complete]
@[simp] theorem complete_vrun (s : State) (n : Nat) : (complete n s).vrun = s.vrun := by simp [complete]
@[simp] theorem complete_cut (s : State) (n : Nat) : (complete n s).cut = s.cut := by simp [complete]
@[simp] theorem complete_farStop (s : State) (n : Nat) : (complete n s).farStop = s.farStop := by simp [complete]
@[simp] theorem complete_ackFor (s : State) (n : Nat) : (complete n s).ackFor = s.ackFor := by simp [complete]
@[simp] theorem complete_delay (s : State) (n : Nat) : (complete n s).delay = s.delay := by simp [complete]
@[simp] theorem complete_stores (s : State) (n : Nat) : (complete n s).stores = s.stores := by simp [complete]
@[simp] theorem complete_posted (s : State) (n : Nat) : (complete n s).posted = s.posted := by simp [complete]
@[simp] theorem complete_nodecfg (s : State) (n : Nat) : (complete n s).nodecfg = s.nodecfg := by simp [complete]
@[simp] theorem complete_linkto (s : State) (n : Nat) : (complete n s).linkto = s.linkto := by simp [complete]
@[simp] theorem complete_boot (s : State) (n : Nat) : (complete n s).boot = s.boot := by simp [complete]
@[simp] theorem complete_exports (s : State) (n : Nat) : (complete n s).exports = s.exports := by simp [complete]
@[simp] theorem complete_hwin (s : State) (n : Nat) : (complete n s).hwin = s.hwin := by simp [complete]
@[simp] theorem complete_keys (s : State) (n : Nat) : (complete n s).keys = s.keys := by simp [complete]
@[simp] theorem complete_fuseCount (s : State) (n : Nat) : (complete n s).fuseCount = s.fuseCount := by simp [complete]
@[simp] theorem complete_alarms (s : State) (n : Nat) : (complete n s).alarms = s.alarms := by simp [complete]
@[simp] theorem complete_kernels (s : State) (n : Nat) : (complete n s).kernels = s.kernels := by simp [complete]
@[simp] theorem complete_ports (s : State) (n : Nat) : (complete n s).ports = s.ports := by simp [complete]
@[simp] theorem complete_outbox (s : State) (n : Nat) : (complete n s).outbox = s.outbox := by simp [complete]
@[simp] theorem complete_flagsOut (s : State) (n : Nat) : (complete n s).flagsOut = s.flagsOut := by simp [complete]
@[simp] theorem complete_notices (s : State) (n : Nat) : (complete n s).notices = s.notices := by simp [complete]
@[simp] theorem complete_lanternNotices (s : State) (n : Nat) : (complete n s).lanternNotices = s.lanternNotices := by simp [complete]
@[simp] theorem complete_replies (s : State) (n : Nat) : (complete n s).replies = s.replies := by simp [complete]
@[simp] theorem complete_fuses (s : State) (n : Nat) : (complete n s).fuses = s.fuses := by simp [complete]
@[simp] theorem complete_laneFault (s : State) (n : Nat) : (complete n s).laneFault = s.laneFault := by simp [complete]
@[simp] theorem complete_inputs (s : State) (n : Nat) : (complete n s).inputs = s.inputs := by simp [complete]
@[simp] theorem complete_tick (s : State) (n : Nat) : (complete n s).tick = s.tick := by simp [complete]

/-! ### Reading what was written -/

@[simp] theorem bank_setBank_same (s : State) (b : Nat) (x : Bank) : (s.setBank b x).bank b = x := mapGetD_mapSet_same _ _ _ _

theorem bank_setBank_other (s : State) {b c : Nat} (x : Bank) (h : c ≠ b) : (s.setBank b x).bank c = s.bank c := mapGetD_mapSet_other _ _ _ h

@[simp] theorem bank_setFront (s : State) (f : Front) (b : Nat) : (s.setFront f).bank b = s.bank b := by simp [State.bank]

@[simp] theorem stack_setStack_same (s : State) (n : Nat) (x : Stack) : (s.setStack n x).stack n = x := mapGetD_mapSet_same _ _ _ _

theorem stack_setStack_other (s : State) {n m : Nat} (x : Stack) (h : m ≠ n) : (s.setStack n x).stack m = s.stack m := mapGetD_mapSet_other _ _ _ h

@[simp] theorem stack_setBank (s : State) (b : Nat) (x : Bank) (n : Nat) : (s.setBank b x).stack n = s.stack n := rfl

@[simp] theorem bank_setStack (s : State) (n : Nat) (x : Stack) (b : Nat) : (s.setStack n x).bank b = s.bank b := rfl

@[simp] theorem stack_setFront (s : State) (f : Front) (n : Nat) : (s.setFront f).stack n = s.stack n := by simp [State.stack]

theorem wreg_setW_same (s : State) (b : Nat) (k : Fin 16) (r : WReg) : (s.setW b k r).wreg b k = r := by
  simp [State.wreg, State.setW]

theorem wreg_setW_other (s : State) {b c : Nat} {k l : Fin 16} (r : WReg) (h : c ≠ b ∨ l ≠ k) : (s.setW b k r).wreg c l = s.wreg c l := by
  unfold State.wreg State.setW
  by_cases hb : c = b
  · subst hb
    have hl : k.val ≠ l.val := fun e => (h.resolve_left (fun n => n rfl)) (Fin.ext e.symm)
    simp only [bank_setBank_same]
    exact Vector.getElem_set_ne _ _ hl
  · rw [bank_setBank_other _ _ hb]

@[simp] theorem front_setFront (s : State) (f : Front) : (s.setFront f).front = f := by
  unfold State.setFront State.front
  cases h : s.cur.bank with
  | none => simp [h]
  | some j => simp [h, State.bt, State.setBt]

/-- s0 reads zero in every state (00:R11). -/
@[simp] theorem getS_zero (s : State) : s.getS 0 = SReg.zero := by
  unfold State.getS
  cases s.cur.bank with
  | none => simp
  | some j => simp [Bank.getX, xOf]

@[simp] theorem setS_zero (s : State) (v : SReg) (h : s.cur.bank = none) : s.setS 0 v = s := by simp [State.setS, h]

/-- What completing an instruction leaves of the running hart's registers: a bank thread has gone on (16:R371). -/
theorem front_retire (s : State) : s.retire.front = if s.cur.bank.isSome then s.front.retire.going else s.front.retire := by
  unfold State.retire
  show (State.setFront _ _).front = _
  rw [front_setFront]

/-- The pc after a completed instruction is where the loop stack sends the address after it (15:R346). -/
theorem front_complete (s : State) (n : Nat) : (complete n s).front =
    let f := (s.front.fallTo (s.front.pc + BitVec.ofNat 64 n)).retire
    if s.cur.bank.isSome then f.going else f := by
  unfold complete
  rw [front_retire, front_setFront, setFront_cur]

/-- Without an active loop an instruction falls through to the next address (15:R346). -/
theorem fallTo_noLoop (f : Front) (q : Word) (h : f.depth = 0) : f.fallTo q = { f with pc := q } := by
  simp [Front.fallTo, Front.loopBack, h]

end Sys2Proof.Machine
end

