-- ==== Sys2Proof/Laws/Memories.lean ====
section
/-!
SUPPORT. Every shared operation keeps the byte memories in their canonical form: one lemma per operation, named keeps_ and the operation.
-/

namespace Sys2Proof.Laws

open Sys2Proof.Machine

/-- The second state's memories are in canonical form where the first's are. -/
def Keeps (s t : State) : Prop := s.memWf = true → t.memWf = true

theorem Keeps.refl (s : State) : Keeps s s := id

theorem Keeps.trans {s t u : State} (h : Keeps s t) (k : Keeps t u) : Keeps s u := k ∘ h

theorem Keeps.foldl {α : Type} (f : State → α → State) (h : ∀ s a, Keeps s (f s a)) : ∀ (l : List α) (s : State), Keeps s (l.foldl f s)
  | [], s => Keeps.refl s
  | a :: l, s => (h s a).trans (Keeps.foldl f h l (f s a))

/-- A fold over pairs whose first part is a state. -/
theorem Keeps.foldlFst {α β : Type} (f : State × β → α → State × β) (h : ∀ z a, Keeps z.1 (f z a).1) : ∀ (l : List α) (z : State × β),
    Keeps z.1 (l.foldl f z).1
  | [], z => Keeps.refl z.1
  | a :: l, z => (h z a).trans (Keeps.foldlFst f h l (f z a))

/-- A state with the same memories. -/
theorem Keeps.same {s t : State} (d : t.dram = s.dram) (m : t.hostMem = s.hostMem) (b : t.banks = s.banks) (k : t.stks = s.stks) : Keeps s t := by
  unfold Keeps State.memWf; rw [d, m, b, k]; exact id

theorem Keeps.ite {s a b : State} {c : Prop} [Decidable c] (h : c → Keeps s a) (k : ¬c → Keeps s b) : Keeps s (if c then a else b) := by
  split
  · exact h ‹_›
  · exact k ‹_›

theorem memWf_iff {s : State} : s.memWf = true ↔ s.dram.wf = true ∧ s.hostMem.wf = true ∧ (∀ e ∈ s.banks, e.2.scratch.wf = true) ∧
    ∀ e ∈ s.stks, ∀ w ∈ e.2.bib, w.2.bytes.wf = true := by
  simp [State.memWf, Bank.memWf, List.all_eq_true, and_assoc]

theorem mapGetD_prop {α : Type} {P : α → Prop} {d : α} (hd : P d) : ∀ {m : List (Nat × α)} (a : Nat), (∀ e ∈ m, P e.2) → P (mapGetD m a d) := by
  intro m a h
  have key : ∀ {m : List (Nat × α)} {v : α}, (∀ e ∈ m, P e.2) → mapGet m a = some v → P v := by
    intro m
    induction m with
    | nil => intro v _ hv; simp [mapGet] at hv
    | cons e t ih =>
      intro v hm hv
      unfold mapGet at hv
      split at hv
      · cases hv
      · split at hv
        · cases hv; exact hm _ List.mem_cons_self
        · exact ih (fun e he => hm e (List.mem_cons_of_mem _ he)) hv
  unfold mapGetD
  cases hv : mapGet m a with
  | none => exact hd
  | some v => exact key h hv

theorem scratch_wf {s : State} (h : s.memWf = true) (b : Nat) : (s.bank b).scratch.wf = true :=
  mapGetD_prop (P := fun x : Bank => x.scratch.wf = true) rfl b (memWf_iff.mp h).2.2.1

theorem bib_wf {s : State} (h : s.memWf = true) (n : Nat) : ∀ w ∈ (s.stack n).bib, w.2.bytes.wf = true :=
  mapGetD_prop (P := fun x : Stack => ∀ w ∈ x.bib, w.2.bytes.wf = true) (by intro w hw; cases hw) n (memWf_iff.mp h).2.2.2

theorem mem_mapSet {α : Type} {P : α → Prop} {a : Nat} {x : α} {m : List (Nat × α)} (hx : P x) (h : ∀ e ∈ m, P e.2) : ∀ e ∈ mapSet m a x, P e.2 := by
  classical
  have := all_mapSet (fun e : Nat × α => decide (P e.2)) (a := a) (x := x) (by simpa using hx) (m := m) (by simpa [List.all_eq_true] using h)
  simpa [List.all_eq_true] using this

/-- A bank written back with its scratch ways in canonical form. -/
theorem keeps_setBank {s : State} (b : Nat) {x : Bank} (hx : s.memWf = true → x.scratch.wf = true) : Keeps s (s.setBank b x) := by
  intro h
  obtain ⟨d, m, bs, ks⟩ := memWf_iff.mp h
  exact memWf_iff.mpr ⟨d, m, mem_mapSet (P := fun x : Bank => x.scratch.wf = true) (hx h) bs, ks⟩

/-- A bank written back with the scratch ways it had. -/
theorem keeps_setBankSame {s : State} (b : Nat) {x : Bank} (hx : x.scratch = (s.bank b).scratch) : Keeps s (s.setBank b x) :=
  keeps_setBank b (fun h => hx ▸ scratch_wf h b)

theorem keeps_setStack {s : State} (n : Nat) {x : Stack} (hx : s.memWf = true → ∀ w ∈ x.bib, w.2.bytes.wf = true) : Keeps s (s.setStack n x) := by
  intro h
  obtain ⟨d, m, bs, ks⟩ := memWf_iff.mp h
  exact memWf_iff.mpr ⟨d, m, bs, mem_mapSet (P := fun x : Stack => ∀ w ∈ x.bib, w.2.bytes.wf = true) (hx h) ks⟩

/-- A stack written back with the buffer windows it had. -/
theorem keeps_setStackSame {s : State} (n : Nat) {x : Stack} (hx : x.bib = (s.stack n).bib) : Keeps s (s.setStack n x) :=
  keeps_setStack n (fun h => hx ▸ bib_wf h n)

theorem keeps_dram {s t : State} (d : s.dram.wf = true → t.dram.wf = true) (m : t.hostMem = s.hostMem) (b : t.banks = s.banks) (k : t.stks = s.stks) :
    Keeps s t := by
  intro h
  obtain ⟨hd, hm, bs, ks⟩ := memWf_iff.mp h
  exact memWf_iff.mpr ⟨d hd, m ▸ hm, b ▸ bs, k ▸ ks⟩

/-! ### Threads, registers, counters -/

theorem keeps_notices (s : State) (n m : List ErrRec) : Keeps s { s with notices := n, lanternNotices := m } := Keeps.same rfl rfl rfl rfl

theorem keeps_clearMarks (s : State) (sel : Xlat → Bool) : Keeps s (clearMarks s sel) :=
  Keeps.ite (fun _ => Keeps.same rfl rfl rfl rfl) (fun _ => Keeps.refl s)

theorem keeps_clearHashed (s : State) (pa : Nat) : Keeps s (clearHashed s pa) := keeps_clearMarks s _

theorem keeps_dropUpsets (s : State) (sel : Place → Bool) : Keeps s (dropUpsets s sel) :=
  Keeps.ite (fun _ => Keeps.refl s) (fun _ => Keeps.same rfl rfl rfl rfl)

theorem keeps_freshLatch (s : State) (b k : Nat) : Keeps s (freshLatch s b k) := keeps_dropUpsets s _

theorem keeps_cellMarks (s : State) (l : List (Nat × Bool)) (c : List Nat) : Keeps s { s with latent := l, cellPoison := c } :=
  Keeps.same rfl rfl rfl rfl

theorem keeps_setFront (s : State) (f : Front) : Keeps s (s.setFront f) := Keeps.same (by simp) (by simp) (by simp) (by simp)

theorem keeps_setVstart (s : State) (n : Nat) : Keeps s (s.setVstart n) := Keeps.same (by simp) (by simp) (by simp) (by simp)

theorem keeps_setBt (s : State) (j : Nat) (b : BankThread) : Keeps s (s.setBt j b) := Keeps.same rfl rfl rfl rfl

theorem keeps_setThread (s : State) (i : Nat) (t : Thread) : Keeps s (s.setThread i t) := Keeps.same (by simp) (by simp) (by simp) (by simp)

theorem keeps_draw (s : State) : Keeps s s.draw.2 := Keeps.same rfl rfl rfl rfl

theorem keeps_retire (s : State) : Keeps s s.retire := Keeps.same (by simp) (by simp) (by simp) (by simp)

theorem keeps_complete (n : Nat) (s : State) : Keeps s (complete n s) := Keeps.same (by simp) (by simp) (by simp) (by simp)

theorem keeps_switchTo (s : State) (st th : Nat) (b : Option Nat) : Keeps s (s.switchTo st th b) := by
  unfold State.switchTo; split <;> exact Keeps.same rfl rfl rfl rfl

theorem keeps_setS (s : State) (r : Fin 64) (v : SReg) : Keeps s (s.setS r v) := by
  unfold State.setS
  split
  · split <;> exact Keeps.same rfl rfl rfl rfl
  · exact keeps_setBankSame _ (by unfold Bank.setX; split <;> rfl)

/-! ### Rows and cells -/

theorem keeps_dramWriteN (s : State) (a n v : Nat) : Keeps s { s with dram := memWriteN s.dram a n v } :=
  keeps_dram (memWriteN_wf n a v) rfl rfl rfl

theorem keeps_logErr (s : State) (st sev unit bank fe : Nat) (pa : Word) (task detail : Nat) : Keeps s (logErr s st sev unit bank fe pa task detail) := by
  unfold logErr
  dsimp only
  exact Keeps.trans (keeps_setStackSame st (by rfl)) (keeps_notices _ _ _)

theorem keeps_noteCorrection (s : State) (word : Nat) : Keeps s (noteCorrection s word) :=
  Keeps.ite (fun _ => keeps_setBankSame _ (by rfl)) (fun _ => keeps_setBankSame _ (by rfl))

theorem keeps_eccLeave (s : State) (word n : Nat) : Keeps s (eccLeave s word n) := by
  unfold eccLeave
  refine Keeps.trans (Keeps.foldl _ (fun s e => ?_) _ s) (Keeps.ite (fun _ => keeps_noteCorrection _ _) (fun _ => Keeps.refl _))
  dsimp only
  exact Keeps.trans (keeps_logErr _ _ _ _ _ _ _ _ _) (keeps_cellMarks _ _ _)

theorem keeps_eccTake (s : State) (sel : Place → Bool) (unit bank : Nat) (pa : Word) : Keeps s (eccTake s sel unit bank pa).1 := by
  unfold eccTake
  dsimp only
  refine Keeps.trans (t := List.foldl _ s (s.upsets.filter (fun e => sel e.1))) (Keeps.foldl _ (fun s e => ?_) _ s) (Keeps.same rfl rfl rfl rfl)
  exact keeps_logErr s _ _ _ _ _ _ _ _

theorem keeps_eccLatch (s : State) (b k : Nat) (sel : Nat → Bool) : Keeps s (eccLatch s b k sel) := by
  unfold eccLatch
  dsimp only
  refine Keeps.ite (fun _ => Keeps.refl s) (fun _ => ?_)
  exact Keeps.ite (fun _ => keeps_eccTake s _ _ _ _) (fun _ => (keeps_eccTake s _ _ _ _).trans (keeps_setBankSame b (by rfl)))

theorem keeps_eccForeign (s : State) (pa : Nat) : Keeps s (eccForeign s pa) := keeps_eccLatch s _ _ _

theorem keeps_eccSlot (s : State) (b n : Nat) : Keeps s (eccSlot s b n) := by
  unfold eccSlot
  dsimp only
  split
  · exact keeps_eccTake s _ _ _ _
  · exact Keeps.ite (fun _ => keeps_eccTake s _ _ _ _) (fun _ => (keeps_eccTake s _ _ _ _).trans (keeps_setBankSame b (by rfl)))

theorem keeps_eccLine (s : State) (b line : Nat) (w : Option Nat) : Keeps s (eccLine s b line w) := by
  unfold eccLine
  dsimp only
  split
  · exact keeps_eccTake s _ _ _ _
  · exact Keeps.ite (fun _ => keeps_eccTake s _ _ _ _) (fun _ => (keeps_eccTake s _ _ _ _).trans (keeps_setBankSame b (by rfl)))

theorem keeps_eccScratch (s : State) (b w : Nat) : Keeps s (eccScratch s b w) := by
  unfold eccScratch
  dsimp only
  exact Keeps.ite (fun _ => keeps_eccTake s _ _ _ _) (fun _ => (keeps_eccTake s _ _ _ _).trans (keeps_setBankSame b (by rfl)))

theorem keeps_writeCells (s : State) (base : Nat) (data : RowBits) (poison : BitVec 256) : Keeps s (writeCells s base data poison) := by
  have h := @memWriteN_wf 2048 s.dram base data.toNat
  unfold writeCells
  generalize memWriteN s.dram base 2048 data.toNat = m at h ⊢
  exact keeps_dram h rfl rfl rfl

theorem keeps_setW (s : State) (b : Nat) (k : Fin 16) (r : WReg) : Keeps s (s.setW b k r) := keeps_setBankSame b (by rfl)

theorem keeps_startWb (s : State) (b : Nat) (k : Fin 16) (act : Nat) : Keeps s (startWb s b k act) := keeps_setBankSame b (by rfl)

theorem keeps_touchPend (s : State) (b k : Nat) : Keeps s (s.setBank b (touchPend (s.bank b) k)) := keeps_setBankSame b (by rfl)

/-- What settles a register keeps the memories. -/
abbrev KeepsSettle (f : State → Nat → Fin 16 → State) : Prop := ∀ s b k, Keeps s (f s b k)

theorem keeps_demandWith {f : State → Nat → Fin 16 → State} (h : KeepsSettle f) (s : State) (b : Nat) (k : Fin 16) : Keeps s (demandWith f s b k) := by
  unfold demandWith
  refine (h s b k).trans ?_
  generalize f s b k = t
  dsimp only
  refine Keeps.ite (fun _ => Keeps.refl t) (fun _ => ?_)
  split
  · exact keeps_setW _ _ _ _
  · exact (keeps_startWb _ b k 1).trans (h _ b k)
  · exact Keeps.refl _

theorem keeps_crossWith {f : State → Nat → Fin 16 → State} (h : KeepsSettle f) (s : State) (b key : Nat) : Keeps s (crossWith f s b key) := by
  unfold crossWith
  split
  · exact keeps_demandWith h s b _
  · exact Keeps.refl s

theorem keeps_orWordWith {f : State → Nat → Fin 16 → State} (h : KeepsSettle f) (s : State) (pa v : Nat) : Keeps s (orWordWith f s pa v) := by
  unfold orWordWith
  extract_lets b k row i t u r x t' line w x' i' w' z
  have ht : Keeps s t := Keeps.ite (fun _ => h s b k) (fun _ => Keeps.refl s)
  refine (ht.trans (keeps_clearHashed t pa)).trans (t := u) ?_
  clear_value u b k
  refine Keeps.ite (fun _ => ?_) (fun _ => ?_)
  · exact Keeps.ite (fun _ => keeps_setBankSame b (by rfl)) (fun _ => (keeps_setW u b k _).trans (keeps_touchPend _ b _))
  · refine Keeps.ite (fun _ => ?_) (fun _ => ?_)
    · have hw : Keeps u w := keeps_eccLine u b line _
      refine hw.trans ?_
      split
      · exact keeps_setBankSame b (by rfl)
      · exact Keeps.refl _
    · have hz : Keeps u z := (keeps_demandWith h u b k).trans (keeps_eccLeave _ _ _)
      exact hz.trans (keeps_dramWriteN z _ _ _)

theorem keeps_setDirtyWith {f : State → Nat → Fin 16 → State} (h : KeepsSettle f) (s : State) (leaf : Option Nat) (pa : Nat) :
    Keeps s (setDirtyWith f s leaf pa) := by
  unfold setDirtyWith
  split
  · exact Keeps.refl s
  · exact keeps_orWordWith h s _ _

theorem keeps_committed (s : State) (b : Nat) (p : PendWb) : Keeps s (committed s b p) :=
  Keeps.ite (fun _ => Keeps.ite (fun _ => keeps_setW s _ _ _) (fun _ => keeps_setW s _ _ _)) (fun _ => Keeps.refl s)

theorem keeps_commitImage (s : State) (b : Nat) (p : PendWb) : Keeps s (commitImage s b p) := by
  unfold commitImage
  dsimp only
  refine Keeps.trans ?_ (keeps_committed _ b p)
  refine (keeps_writeCells s (rowAddr b p.grp p.prow) p.data p.poison).trans ?_
  generalize writeCells s (rowAddr b p.grp p.prow) p.data p.poison = t
  generalize hu : ({ t with latent := List.foldl _ t.latent p.errs } : State) = u
  exact (Keeps.same (s := t) (t := u) (by subst hu; rfl) (by subst hu; rfl) (by subst hu; rfl) (by subst hu; rfl)).trans
    (keeps_setBankSame b (by rfl))

theorem keeps_commitHead {f g : State → Nat → Fin 16 → State} (hf : KeepsSettle f) (hg : KeepsSettle g) (s : State) (b : Nat) (k : Fin 16) :
    Keeps s (commitHead f g s b k) := by
  unfold commitHead
  split
  · exact Keeps.refl s
  · rename_i p _
    refine (keeps_crossWith hf s b (p.grp * 4096 + p.prow)).trans ?_
    generalize crossWith f s b (p.grp * 4096 + p.prow) = t
    dsimp only
    split
    · exact Keeps.refl _
    · exact (keeps_commitImage _ b _).trans (keeps_setDirtyWith hg _ _ _)

theorem keeps_settleN : ∀ n busy, KeepsSettle (settleN n busy)
  | 0, _, s, _, _ => Keeps.refl s
  | n + 1, busy, s, b, k => by
    unfold settleN
    exact Keeps.ite (fun _ => Keeps.refl s)
      (fun _ => Keeps.foldl _ (fun s _ => keeps_commitHead (keeps_settleN n _) (keeps_settleN n _) s b k) _ _)

theorem keeps_settle (s : State) (b : Nat) (k : Fin 16) : Keeps s (settle s b k) :=
  Keeps.ite (fun _ => keeps_settleN 64 [] s b k) (fun _ => Keeps.refl s)

theorem keeps_orWord (s : State) (pa v : Nat) : Keeps s (orWord s pa v) := keeps_orWordWith keeps_settle s pa v

theorem keeps_setDirty (s : State) (leaf : Option Nat) (pa : Nat) : Keeps s (setDirty s leaf pa) := keeps_setDirtyWith keeps_settle s leaf pa

theorem keeps_arrayDemand (s : State) (b : Nat) (k : Fin 16) : Keeps s (arrayDemand s b k) := keeps_demandWith keeps_settle s b k

theorem keeps_crossDemand (s : State) (b key : Nat) : Keeps s (crossDemand s b key) := keeps_crossWith keeps_settle s b key

theorem keeps_commitOne (s : State) (b : Nat) (k : Fin 16) : Keeps s (commitOne s b k) := keeps_commitHead (keeps_settleN 64 _) keeps_settle s b k

theorem keeps_settleAll (s : State) (b : Nat) : Keeps s (settleAll s b) := by
  unfold settleAll
  generalize (s.bank b).pend = l
  induction l generalizing s with
  | nil => exact Keeps.refl s
  | cons p l ih => rw [List.foldl_cons]; exact (keeps_commitOne s b (idx16 p.grp)).trans (ih _)

theorem keeps_settleUnbind (s : State) (b : Nat) (k : Fin 16) : Keeps s (settleUnbind s b k) :=
  Keeps.ite (fun _ => keeps_settle s b k) (fun _ => Keeps.refl s)

theorem keeps_closeReg (s : State) (b : Nat) (k : Fin 16) : Keeps s (closeReg s b k) := by
  unfold closeReg
  dsimp only
  refine (keeps_settle s b k).trans ?_
  exact Keeps.ite (fun _ => (keeps_startWb _ b k 2).trans (keeps_settle _ b k))
    (fun _ => Keeps.ite (fun _ => keeps_setW _ _ _ _) (fun _ => Keeps.refl _))

theorem keeps_clearBank (s : State) (b : Nat) : Keeps s (clearBank s b) := by
  unfold clearBank
  extract_lets t u x
  have h : Keeps s u := (Keeps.foldl _ (fun s k => keeps_closeReg s b (idx16 k)) (List.range 16) s).trans (keeps_dropUpsets t _)
  refine h.trans ?_
  have hx : x.scratch = (u.bank b).scratch := rfl
  clear_value u
  exact keeps_setBankSame b (by exact hx)

theorem keeps_localWrite (s : State) (b : Nat) (k : Fin 16) (latch : RowBits) (poison : BitVec 256) : Keeps s (localWrite s b k latch poison) := by
  unfold localWrite
  dsimp only
  refine Keeps.trans ?_ (keeps_touchPend _ _ _)
  refine Keeps.trans ?_ (keeps_setW _ _ _ _)
  refine (keeps_settleUnbind s b k).trans ?_
  exact Keeps.ite (fun _ => keeps_clearHashed _ _) (fun _ => Keeps.refl _)

theorem keeps_writeLine (s : State) (b line : Nat) (l : Line) : Keeps s (writeLine s b line l) := by
  unfold writeLine
  dsimp only
  refine Keeps.trans (keeps_settleUnbind s b (idx16 ((b * 2 ^ 27 + line * 128) / 2 ^ 23))) ?_
  generalize settleUnbind s b (idx16 ((b * 2 ^ 27 + line * 128) / 2 ^ 23)) = t
  refine Keeps.ite (fun _ => ((keeps_dropUpsets t _).trans (keeps_setW _ _ _ _)).trans (keeps_touchPend _ _ _)) (fun _ => ?_)
  refine (keeps_arrayDemand t b (idx16 ((b * 2 ^ 27 + line * 128) / 2 ^ 23))).trans ?_
  exact (keeps_dramWriteN _ (b * 2 ^ 27 + line * 128) 128 l.data.toNat).trans (keeps_cellMarks _ _ _)

theorem keeps_dropLine (s : State) (b line : Nat) (wb inv : Bool) : Keeps s (dropLine s b line wb inv) := by
  unfold dropLine
  refine (keeps_eccLine s b line none).trans ?_
  generalize eccLine s b line none = s
  dsimp only
  split
  · exact Keeps.refl s
  · rename_i l _
    refine Keeps.trans (t := if (l.dirty && wb) = true then writeLine s b line l else s) ?_ ?_
    · exact Keeps.ite (fun _ => keeps_writeLine s b line l) (fun _ => Keeps.refl s)
    · exact Keeps.ite (fun _ => keeps_setBankSame b (by rfl)) (fun _ => keeps_setBankSame b (by rfl))

theorem keeps_makeRoom (s : State) (b : Nat) : Keeps s (makeRoom s b) := by
  unfold makeRoom
  dsimp only
  refine Keeps.ite (fun _ => Keeps.refl s) (fun _ => ?_)
  split
  · exact (keeps_draw s).trans (keeps_dropLine _ b _ true true)
  · exact Keeps.refl s

theorem keeps_allocLine (s : State) (pa : Nat) : Keeps s (allocLine s pa) := by
  unfold allocLine
  extract_lets b t base u v x pz
  have h : Keeps s v := ((keeps_makeRoom s b).trans (keeps_eccLeave t _ 4)).trans (keeps_dropUpsets u _)
  refine h.trans ?_
  have hx : x.scratch = (v.bank b).scratch := rfl
  clear_value v
  exact keeps_setBankSame b (by exact hx)

theorem keeps_copyComplete (s : State) (b : Nat) : Keeps s (copyComplete s b) :=
  Keeps.ite (fun _ => Keeps.refl s) (fun _ => (((keeps_eccLeave s (b * 2 ^ 22) (2 ^ 22)).trans (keeps_eccSlot _ b 0)).trans (keeps_eccSlot _ b 1)).trans
    (keeps_setBankSame b (by rfl)))

theorem keeps_dramPrepare (s : State) (pa : Nat) (alloc : Bool) : Keeps s (dramPrepare s pa alloc) := by
  unfold dramPrepare
  dsimp only
  refine Keeps.trans ((keeps_copyComplete s (pa / 2 ^ 27)).trans (keeps_settleUnbind _ (pa / 2 ^ 27) (idx16 (pa / 2 ^ 23)))) ?_
  refine Keeps.ite (fun _ => keeps_eccForeign _ _) (fun _ => Keeps.ite (fun _ => keeps_eccLine _ _ _ _) (fun _ => ?_))
  refine Keeps.trans (keeps_arrayDemand _ (pa / 2 ^ 27) (idx16 (pa / 2 ^ 23))) ?_
  exact Keeps.ite (fun _ => keeps_allocLine _ _) (fun _ => keeps_eccLeave _ _ _)

theorem keeps_dramRead (s : State) (pa n : Nat) (alloc : Bool) : Keeps s (dramRead s pa n alloc).1 := by
  have h := keeps_dramPrepare s pa alloc
  unfold dramRead
  dsimp only
  split
  · exact h
  · split <;> exact h

theorem keeps_dramWrite (s : State) (pa n v : Nat) (alloc : Bool) (m : Mark) : Keeps s (dramWrite s pa n v alloc m) := by
  unfold dramWrite
  dsimp only
  refine Keeps.trans (keeps_dramPrepare s pa alloc) ?_
  generalize dramPrepare s pa alloc = t
  refine Keeps.ite (fun _ => (keeps_setW t _ _ _).trans (keeps_touchPend _ _ _)) (fun _ => ?_)
  split
  · exact Keeps.trans (keeps_setBankSame _ (by rfl)) (keeps_setDirty _ _ _)
  · exact (keeps_dramWriteN t pa n v).trans (keeps_setDirty _ _ _)

theorem keeps_crownMerge (s : State) (b k prow : Nat) (latch : RowBits) (poison : BitVec 256) : Keeps s (crownMerge s b k prow latch poison).1 := by
  unfold crownMerge
  dsimp only
  have h : Keeps s (List.foldl (fun acc i => eccLine acc b (k * 2 ^ 16 + prow * 16 + i) none) s (List.range 16)) :=
    Keeps.foldl _ (fun s i => keeps_eccLine s b _ none) _ s
  generalize List.foldl (fun acc i => eccLine acc b (k * 2 ^ 16 + prow * 16 + i) none) s (List.range 16) = t at h ⊢
  exact h.trans (keeps_setBankSame b (by rfl))

theorem keeps_repairCopied (s : State) (b : Nat) (k : Fin 16) (row : Nat) : Keeps s (repairCopied s b k row) := by
  unfold repairCopied
  dsimp only
  refine Keeps.ite (fun _ => Keeps.refl s) (fun _ => (keeps_eccLeave s (rowAddr b k.val row / 32) 64).trans ?_)
  exact keeps_setBankSame b (by rfl)

theorem keeps_bindRow (s : State) (b : Nat) (k : Fin 16) (n prow : Nat) (tag : BitVec 4) (writable : Bool) (leaf : Option Nat) :
    Keeps s (bindRow s b k n prow tag writable leaf) := by
  unfold bindRow
  dsimp only
  refine Keeps.trans ?_ (keeps_setW _ _ _ _)
  refine Keeps.trans ?_ (keeps_freshLatch _ b k.val)
  have h : Keeps s (eccLeave (crossDemand (repairCopied (closeReg s b k) b k prow) b (k.val * 4096 + prow)) (rowAddr b k.val prow / 32) 64) :=
    (keeps_closeReg s b k).trans ((keeps_repairCopied _ b k prow).trans ((keeps_crossDemand _ b _).trans (keeps_eccLeave _ _ _)))
  refine h.trans ?_
  generalize eccLeave (crossDemand (repairCopied (closeReg s b k) b k prow) b (k.val * 4096 + prow)) (rowAddr b k.val prow / 32) 64 = t
  split
  · exact keeps_crownMerge _ _ _ _ _ _
  · exact Keeps.refl _

/-! ### The windows -/

theorem keeps_scratch {s : State} (b : Nat) {x : Bank} (hx : (s.bank b).scratch.wf = true → x.scratch.wf = true) : Keeps s (s.setBank b x) :=
  keeps_setBank b (fun h => hx (scratch_wf h b))

theorem keeps_hostWriteN (s : State) (a n v : Nat) : Keeps s { s with hostMem := memWriteN s.hostMem a n v } := by
  intro h
  obtain ⟨d, m, bs, ks⟩ := memWf_iff.mp h
  exact memWf_iff.mpr ⟨d, memWriteN_wf n a v m, bs, ks⟩

/-- A write through any of the windows but the control window's (03:R78). -/
theorem keeps_physWrite (s : State) (pa n v : Nat) (alloc : Bool) (m : Mark) : Keeps s (physWrite s pa n v alloc m) := by
  unfold physWrite
  split
  · exact keeps_dramWrite s pa n v alloc m
  · refine Keeps.trans ?_ (keeps_setDirty _ _ _)
    exact (keeps_eccScratch s _ _).trans (keeps_scratch _ (fun h => memWriteN_wf n _ v h))
  · exact Keeps.refl s
  · split
    · exact (keeps_hostWriteN s _ n v).trans (keeps_setDirty _ _ _)
    · exact Keeps.refl s

/-- A read through any of the windows. -/
theorem keeps_physRead (s : State) (pa n : Nat) (alloc : Bool) : Keeps s (physRead s pa n alloc).1 := by
  unfold physRead
  split
  · exact keeps_dramRead s pa n alloc
  · exact keeps_eccScratch s _ _
  · exact Keeps.refl s
  · split <;> exact Keeps.refl s

/-! ### Refresh -/

theorem keeps_refreshStep (s : State) (b : Nat) (k : Fin 16) : Keeps s (refreshStep s b k) := by
  unfold refreshStep
  dsimp only
  refine Keeps.trans (keeps_arrayDemand s b k) ?_
  exact keeps_setBankSame b (by rfl)

end Sys2Proof.Laws
end

