-- ==== Sys2Proof/Laws/PerInstr.lean ====
section
/-!
SUPPORT. How a word laid out from fields reads back, and family RoundTrip, one lemma per constructor: the bits that `encode` gives a well-formed
instruction with an encoding fit its length and decode to that instruction, with every operand at every value.
-/
namespace Sys2Proof.Laws

theorem low_bits (w lo L N : Nat) (h : L + N ≤ lo) : w / 2 ^ L % 2 ^ N = w % 2 ^ lo / 2 ^ L % 2 ^ N := by
  apply Nat.eq_of_testBit_eq; intro i
  simp only [Nat.testBit_mod_two_pow, Nat.testBit_div_two_pow]
  by_cases hi : i < N
  · have : i + L < lo := by omega
    simp [hi, this]
  · simp [hi]

theorem high_bits (w hi L N : Nat) (h : hi ≤ L) : w / 2 ^ L % 2 ^ N = w / 2 ^ hi / 2 ^ (L - hi) % 2 ^ N := by
  rw [Nat.div_div_eq_div_mul, ← Nat.pow_add, Nat.add_sub_cancel' h]

theorem put_bits (v r lo n : Nat) (hv : v < 2 ^ n) (hr : r / 2 ^ lo % 2 ^ n = 0) :
    (v * 2 ^ lo + r) / 2 ^ lo % 2 ^ n = v ∧ (v * 2 ^ lo + r) % 2 ^ lo = r % 2 ^ lo ∧
      (v * 2 ^ lo + r) / 2 ^ (lo + n) = r / 2 ^ (lo + n) := by
  have hd : (v * 2 ^ lo + r) / 2 ^ lo = v + r / 2 ^ lo := by
    rw [Nat.add_comm, Nat.add_mul_div_right _ _ (Nat.two_pow_pos lo), Nat.add_comm]
  have hq : r / 2 ^ lo = 2 ^ n * (r / 2 ^ lo / 2 ^ n) := by
    have := Nat.div_add_mod (r / 2 ^ lo) (2 ^ n); omega
  refine ⟨?_, ?_, ?_⟩
  · rw [hd, Nat.add_mod, hr, Nat.add_zero, Nat.mod_mod, Nat.mod_eq_of_lt hv]
  · rw [Nat.add_comm, Nat.add_mul_mod_self_right]
  · rw [Nat.pow_add, ← Nat.div_div_eq_div_mul, hd, ← Nat.div_div_eq_div_mul, hq, Nat.add_mul_div_left _ _ (Nat.two_pow_pos n),
      Nat.div_eq_of_lt hv, Nat.zero_add, Nat.mul_div_cancel_left _ (Nat.two_pow_pos n)]

/-- The word with values in fields (lowest bit, width). -/
def lay (base : Nat) : List (Nat × Nat) → List Nat → Nat
  | f :: ls, v :: vs => v * 2 ^ f.1 + lay base ls vs
  | _, _ => base

/-- Every value fits its field. -/
def Fits : List (Nat × Nat) → List Nat → Prop
  | f :: ls, v :: vs => v < 2 ^ f.2 ∧ Fits ls vs
  | _, _ => True

/-- Every field reads as its value. -/
def Reads (w : Nat) : List (Nat × Nat) → List Nat → Prop
  | f :: ls, v :: vs => w / 2 ^ f.1 % 2 ^ f.2 = v ∧ Reads w ls vs
  | _, _ => True

/-- Bits `L` to `L + N - 1` lie in no field. -/
def apart (L N : Nat) (ls : List (Nat × Nat)) : Bool := ls.all (fun f => decide (L + N ≤ f.1) || decide (f.1 + f.2 ≤ L))

/-- The fields lie apart from each other and from the fixed bits. -/
def okLay (base : Nat) : List (Nat × Nat) → Bool
  | [] => true
  | f :: t => apart f.1 f.2 t && base / 2 ^ f.1 % 2 ^ f.2 == 0 && okLay base t

theorem lay_range {base : Nat} : ∀ {ls : List (Nat × Nat)} {vs : List Nat}, okLay base ls = true → Fits ls vs → ∀ {L N : Nat},
    apart L N ls = true → lay base ls vs / 2 ^ L % 2 ^ N = base / 2 ^ L % 2 ^ N
  | [], _, _, _, _, _, _ => rfl
  | _ :: _, [], _, _, _, _, _ => rfl
  | f :: ls, v :: vs, h, hf, L, N, ha => by
    simp only [okLay, apart, List.all_cons, Bool.and_eq_true, Bool.or_eq_true, decide_eq_true_eq, beq_iff_eq] at h ha
    obtain ⟨⟨h1, h2⟩, h3⟩ := h
    have hr := (lay_range h3 hf.2 h1).trans h2
    obtain ⟨-, hl, hh⟩ := put_bits v (lay base ls vs) f.1 f.2 hf.1 hr
    rw [← lay_range h3 hf.2 ha.2]
    show (v * 2 ^ f.1 + lay base ls vs) / 2 ^ L % 2 ^ N = _
    rcases ha.1 with hc | hc
    · rw [low_bits _ _ _ _ hc, hl, ← low_bits _ _ _ _ hc]
    · rw [high_bits _ _ _ _ hc, hh, ← high_bits _ _ _ _ hc]

theorem reads_put {v r lo n : Nat} (hv : v < 2 ^ n) (hr : r / 2 ^ lo % 2 ^ n = 0) : ∀ {ls : List (Nat × Nat)} {vs : List Nat},
    apart lo n ls = true → Reads r ls vs → Reads (v * 2 ^ lo + r) ls vs
  | [], _, _, _ => trivial
  | _ :: _, [], _, _ => trivial
  | f :: ls, u :: us, ha, h => by
    simp only [apart, List.all_cons, Bool.and_eq_true, Bool.or_eq_true, decide_eq_true_eq] at ha
    obtain ⟨-, hl, hh⟩ := put_bits v r lo n hv hr
    refine ⟨h.1 ▸ ?_, reads_put hv hr ha.2 h.2⟩
    rcases ha.1 with hc | hc
    · rw [high_bits _ _ _ _ hc, hh, ← high_bits _ _ _ _ hc]
    · rw [low_bits _ _ _ _ hc, hl, ← low_bits _ _ _ _ hc]

theorem lay_reads {base : Nat} : ∀ {ls : List (Nat × Nat)} {vs : List Nat}, okLay base ls = true → Fits ls vs → Reads (lay base ls vs) ls vs
  | [], _, _, _ => trivial
  | _ :: _, [], _, _ => trivial
  | f :: ls, v :: vs, h, hf => by
    simp only [okLay, Bool.and_eq_true, beq_iff_eq] at h
    obtain ⟨⟨h1, h2⟩, h3⟩ := h
    have hr := (lay_range h3 hf.2 h1).trans h2
    exact ⟨(put_bits v (lay base ls vs) f.1 f.2 hf.1 hr).1, reads_put hf.1 hr h1 (lay_reads h3 hf.2)⟩

theorem lay_div {base K : Nat} : ∀ {ls : List (Nat × Nat)} {vs : List Nat}, okLay base ls = true → Fits ls vs →
    ls.all (fun f => decide (f.1 + f.2 ≤ K)) = true → lay base ls vs / 2 ^ K = base / 2 ^ K
  | [], _, _, _, _ => rfl
  | _ :: _, [], _, _, _ => rfl
  | f :: ls, v :: vs, h, hf, hb => by
    simp only [okLay, List.all_cons, Bool.and_eq_true, decide_eq_true_eq, beq_iff_eq] at h hb
    obtain ⟨⟨h1, h2⟩, h3⟩ := h
    obtain ⟨-, -, hh⟩ := put_bits v (lay base ls vs) f.1 f.2 hf.1 ((lay_range h3 hf.2 h1).trans h2)
    rw [← lay_div h3 hf.2 hb.2]
    show (v * 2 ^ f.1 + lay base ls vs) / 2 ^ K = _
    rw [← Nat.add_sub_cancel' hb.1, Nat.pow_add, ← Nat.div_div_eq_div_mul, hh, Nat.div_div_eq_div_mul]

/-- Ranges apart from the fields and what they read: bit, width, value. -/
def okGaps (base : Nat) (ls : List (Nat × Nat)) (gs : List (Nat × Nat × Nat)) : Bool :=
  gs.all (fun g => apart g.1 g.2.1 ls && base / 2 ^ g.1 % 2 ^ g.2.1 == g.2.2)

/-- The fixed ranges read as they should. -/
def Fixed (w : Nat) : List (Nat × Nat × Nat) → Prop
  | [] => True
  | g :: t => fnat w g.1 g.2.1 = g.2.2 ∧ Fixed w t

theorem lay_fixed {base : Nat} {ls : List (Nat × Nat)} {vs : List Nat} (h : okLay base ls = true) (hf : Fits ls vs) :
    ∀ {gs : List (Nat × Nat × Nat)}, okGaps base ls gs = true → Fixed (lay base ls vs) gs
  | [], _ => trivial
  | g :: t, hg => by
    simp only [okGaps, List.all_cons, Bool.and_eq_true, beq_iff_eq] at hg
    exact ⟨(lay_range h hf hg.1.1).trans hg.1.2, lay_fixed h hf hg.2⟩

theorem fnum_of {n w lo : Nat} {d : Fin (2 ^ n)} (h : w / 2 ^ lo % 2 ^ n = d.val) : fnum w lo n = d := Fin.ext h

theorem fbv_of {n w lo : Nat} {d : BitVec n} (h : w / 2 ^ lo % 2 ^ n = d.toNat) : fbv w lo n = d :=
  BitVec.eq_of_toNat_eq (by simp [fbv, h])

theorem bnat_lt (b : Bool) : bnat b < 2 ^ 1 := by cases b <;> decide

theorem fbit_of {w lo : Nat} {b : Bool} (h : w / 2 ^ lo % 2 ^ 1 = bnat b) : fbit w lo = b := by
  have : w / 2 ^ lo % 2 = bnat b := h
  unfold fbit; rw [this]; cases b <;> decide

namespace RoundTrip

/-- What family RoundTrip says of an instruction. -/
def Statement (i : Instr) : Prop :=
  i.hasWord = true → i.wf = true → decodeBits (encode i) = .ok i ∧ encode i < 2 ^ (8 * i.wordLen)

/-- The checks of a layout: fields apart from each other and from the fixed bits and the major, within the word; the fixed ranges. -/
def okForm (base : Nat) (ls : List (Nat × Nat)) (gs : List (Nat × Nat × Nat)) : Bool :=
  let K := if base % 4 = 3 then 64 else 32
  okLay base ls && apart 0 7 ls && okGaps base ls gs && ls.all (fun f => decide (f.1 + f.2 ≤ K)) && base / 2 ^ K == 0

/-- The statement of an instruction whose bits are laid out so. -/
theorem of_lay {i : Instr} {dec : Nat → Except DecodeError Instr} (base : Nat) (ls : List (Nat × Nat)) (gs : List (Nat × Nat × Nat)) (vs : List Nat)
    (hd : ∀ w, w % 128 = base % 128 → decodeRaw w = dec w) (hw : encode i = lay base ls vs) (ok : okForm base ls gs = true) (hf : Fits ls vs)
    (h : ∀ w, Fixed w gs → Reads w ls vs → dec w = .ok i) : Statement i := by
  intro _ hwf
  simp only [okForm, Bool.and_eq_true, beq_iff_eq] at ok
  obtain ⟨⟨⟨⟨h1, h2⟩, h3⟩, h4⟩, h5⟩ := ok
  have hm : lay base ls vs % 128 = base % 128 := by simpa using lay_range h1 hf h2
  have hr : decodeRaw (encode i) = .ok i := by rw [hw, hd _ hm]; exact h _ (lay_fixed h1 hf h3) (lay_reads h1 hf)
  refine ⟨by simp [decodeBits, hr, hwf], ?_⟩
  have hlt := lay_div h1 hf h4
  rw [h5] at hlt
  have hlt := (Nat.div_eq_zero_iff_lt (Nat.two_pow_pos _)).mp hlt
  have h4 : lay base ls vs % 4 = base % 4 := by omega
  unfold Instr.wordLen
  rw [hw, h4]
  split <;> simp_all

theorem raw1 (w : Nat) (h : w % 128 = 1) : decodeRaw w = decScalu w := by unfold decodeRaw; rw [h]; rfl
theorem raw2 (w : Nat) (h : w % 128 = 2) : decodeRaw w = decScali w := by unfold decodeRaw; rw [h]; rfl
theorem raw3 (w : Nat) (h : w % 128 = 3) : decodeRaw w = decSclit w := by unfold decodeRaw; rw [h]; rfl
theorem raw4 (w : Nat) (h : w % 128 = 4) : decodeRaw w = decScmul w := by unfold decodeRaw; rw [h]; rfl
theorem raw5 (w : Nat) (h : w % 128 = 5) : decodeRaw w = decScfp w := by unfold decodeRaw; rw [h]; rfl
theorem raw6 (w : Nat) (h : w % 128 = 6) : decodeRaw w = decScupp w := by unfold decodeRaw; rw [h]; rfl
theorem raw8 (w : Nat) (h : w % 128 = 8) : decodeRaw w = decScld w := by unfold decodeRaw; rw [h]; rfl
theorem raw9 (w : Nat) (h : w % 128 = 9) : decodeRaw w = decScst w := by unfold decodeRaw; rw [h]; rfl
theorem raw10 (w : Nat) (h : w % 128 = 10) : decodeRaw w = decScsyn w := by unfold decodeRaw; rw [h]; rfl
theorem raw12 (w : Nat) (h : w % 128 = 12) : decodeRaw w = decBr w := by unfold decodeRaw; rw [h]; rfl
theorem raw13 (w : Nat) (h : w % 128 = 13) : decodeRaw w = decJmp w := by unfold decodeRaw; rw [h]; rfl
theorem raw14 (w : Nat) (h : w % 128 = 14) : decodeRaw w = decJreg w := by unfold decodeRaw; rw [h]; rfl
theorem raw16 (w : Nat) (h : w % 128 = 16) : decodeRaw w = decLoop w := by unfold decodeRaw; rw [h]; rfl
theorem raw17 (w : Nat) (h : w % 128 = 17) : decodeRaw w = decCreg w := by unfold decodeRaw; rw [h]; rfl
theorem raw18 (w : Nat) (h : w % 128 = 18) : decodeRaw w = decSys w := by unfold decodeRaw; rw [h]; rfl
theorem raw20 (w : Nat) (h : w % 128 = 20) : decodeRaw w = decSync w := by unfold decodeRaw; rw [h]; rfl
theorem raw21 (w : Nat) (h : w % 128 = 21) : decodeRaw w = decTask w := by unfold decodeRaw; rw [h]; rfl
theorem raw22 (w : Nat) (h : w % 128 = 22) : decodeRaw w = decQueue w := by unfold decodeRaw; rw [h]; rfl
theorem raw24 (w : Nat) (h : w % 128 = 24) : decodeRaw w = decPriv w := by unfold decodeRaw; rw [h]; rfl
theorem raw32 (w : Nat) (h : w % 128 = 32) : decodeRaw w = decRow w := by unfold decodeRaw; rw [h]; rfl
theorem raw34 (w : Nat) (h : w % 128 = 34) : decodeRaw w = decCrown w := by unfold decodeRaw; rw [h]; rfl
theorem raw35 (w : Nat) (h : w % 128 = 35) : decodeRaw w = decRowl w := by unfold decodeRaw; rw [h]; rfl
theorem raw48 (w : Nat) (h : w % 128 = 48) : decodeRaw w = decVarith w := by unfold decodeRaw; rw [h]; rfl
theorem raw49 (w : Nat) (h : w % 128 = 49) : decodeRaw w = decVscal w := by unfold decodeRaw; rw [h]; rfl
theorem raw50 (w : Nat) (h : w % 128 = 50) : decodeRaw w = decVimm w := by unfold decodeRaw; rw [h]; rfl
theorem raw51 (w : Nat) (h : w % 128 = 51) : decodeRaw w = decVext w := by unfold decodeRaw; rw [h]; rfl
theorem raw52 (w : Nat) (h : w % 128 = 52) : decodeRaw w = decVcmp w := by unfold decodeRaw; rw [h]; rfl
theorem raw53 (w : Nat) (h : w % 128 = 53) : decodeRaw w = decVlog w := by unfold decodeRaw; rw [h]; rfl
theorem raw54 (w : Nat) (h : w % 128 = 54) : decodeRaw w = decVconf w := by unfold decodeRaw; rw [h]; rfl
theorem raw55 (w : Nat) (h : w % 128 = 55) : decodeRaw w = decVmath w := by unfold decodeRaw; rw [h]; rfl
theorem raw56 (w : Nat) (h : w % 128 = 56) : decodeRaw w = decVperm w := by unfold decodeRaw; rw [h]; rfl
theorem raw57 (w : Nat) (h : w % 128 = 57) : decodeRaw w = decVred w := by unfold decodeRaw; rw [h]; rfl
theorem raw58 (w : Nat) (h : w % 128 = 58) : decodeRaw w = decVmask w := by unfold decodeRaw; rw [h]; rfl
theorem raw59 (w : Nat) (h : w % 128 = 59) : decodeRaw w = decVtab w := by unfold decodeRaw; rw [h]; rfl
theorem raw60 (w : Nat) (h : w % 128 = 60) : decodeRaw w = decVplane w := by unfold decodeRaw; rw [h]; rfl
theorem raw64 (w : Nat) (h : w % 128 = 64) : decodeRaw w = decMat w := by unfold decodeRaw; rw [h]; rfl
theorem raw67 (w : Nat) (h : w % 128 = 67) : decodeRaw w = decPin w := by unfold decodeRaw; rw [h]; rfl
theorem raw80 (w : Nat) (h : w % 128 = 80) : decodeRaw w = decGal w := by unfold decodeRaw; rw [h]; rfl
theorem raw81 (w : Nat) (h : w % 128 = 81) : decodeRaw w = decCmaint w := by unfold decodeRaw; rw [h]; rfl
theorem raw83 (w : Nat) (h : w % 128 = 83) : decodeRaw w = decFar w := by unfold decodeRaw; rw [h]; rfl
theorem raw87 (w : Nat) (h : w % 128 = 87) : decodeRaw w = decFatom w := by unfold decodeRaw; rw [h]; rfl
theorem raw112 (w : Nat) (h : w % 128 = 112) : decodeRaw w = decHint70 w := by unfold decodeRaw; rw [h]; rfl

theorem illegalInstruction (bits : Word) : Statement (.illegalInstruction bits) := nofun
theorem complementPair (i : Instr) (j : Instr) : Statement (.complementPair i j) := nofun
theorem act (k t : Fin 16) (r : BitVec 12) : Statement (.act k t r) :=
  of_lay 0x20 [(7, 4), (11, 4), (15, 12)] [(27, 5, 0)] [k.val, t.val, r.toNat] raw32 rfl (by decide)
    ⟨k.isLt, t.isLt, r.isLt, trivial⟩ fun w ⟨g0, _⟩ ⟨h0, h1, h2, _⟩ => by
      simp [decRow, g0, fnum_of h0, fnum_of h1, fbv_of h2]
theorem actIndexed (k t : Fin 16) (x : Fin 32) (i : BitVec 7) : Statement (.actIndexed k t x i) :=
  of_lay 0x8000020 [(7, 4), (11, 4), (15, 5), (20, 7)] [(27, 5, 1)] [k.val, t.val, x.val, i.toNat] raw32 rfl (by decide)
    ⟨k.isLt, t.isLt, x.isLt, i.isLt, trivial⟩ fun w ⟨g0, _⟩ ⟨h0, h1, h2, h3, _⟩ => by
      simp [decRow, g0, fnum_of h0, fnum_of h1, fnum_of h2, fbv_of h3]
theorem wbk (k : Fin 16) : Statement (.wbk k) :=
  of_lay 0x10000020 [(7, 4)] [(11, 16, 0), (27, 5, 2)] [k.val] raw32 rfl (by decide)
    ⟨k.isLt, trivial⟩ fun w ⟨g0, g1, _⟩ ⟨h0, _⟩ => by
      simp [decRow, needZero, g0, g1, fnum_of h0]
theorem pre (k : Fin 16) : Statement (.pre k) :=
  of_lay 0x20000020 [(7, 4)] [(11, 16, 0), (27, 5, 4)] [k.val] raw32 rfl (by decide)
    ⟨k.isLt, trivial⟩ fun w ⟨g0, g1, _⟩ ⟨h0, _⟩ => by
      simp [decRow, needZero, g0, g1, fnum_of h0]
theorem preD (k : Fin 16) : Statement (.preD k) :=
  of_lay 0x30000020 [(7, 4)] [(11, 16, 0), (27, 5, 6)] [k.val] raw32 rfl (by decide)
    ⟨k.isLt, trivial⟩ fun w ⟨g0, g1, _⟩ ⟨h0, _⟩ => by
      simp [decRow, needZero, g0, g1, fnum_of h0]
theorem ref (k : Fin 16) : Statement (.ref k) :=
  of_lay 0x50000020 [(7, 4)] [(11, 16, 0), (27, 5, 10)] [k.val] raw32 rfl (by decide)
    ⟨k.isLt, trivial⟩ fun w ⟨g0, g1, _⟩ ⟨h0, _⟩ => by
      simp [decRow, needZero, g0, g1, fnum_of h0]
theorem refQ (d : Fin 32) (k : Fin 16) : Statement (.refQ d k) :=
  of_lay 0x60000020 [(15, 5), (7, 4)] [(11, 4, 0), (20, 7, 0), (27, 5, 12)] [d.val, k.val] raw32 rfl (by decide)
    ⟨d.isLt, k.isLt, trivial⟩ fun w ⟨g0, g1, g2, _⟩ ⟨h0, h1, _⟩ => by
      simp [decRow, needZero, g0, g1, g2, fnum_of h0, fnum_of h1]
theorem rstat (d : Fin 32) (k : Fin 16) : Statement (.rstat d k) :=
  of_lay 0x70000020 [(15, 5), (7, 4)] [(11, 4, 0), (20, 7, 0), (27, 5, 14)] [d.val, k.val] raw32 rfl (by decide)
    ⟨d.isLt, k.isLt, trivial⟩ fun w ⟨g0, g1, g2, _⟩ ⟨h0, h1, _⟩ => by
      simp [decRow, needZero, g0, g1, g2, fnum_of h0, fnum_of h1]
theorem rclone (k : Fin 16) (xd : Bool) (rowd : BitVec 12) (xs : Bool) (rows : BitVec 12) : Statement (.rclone k xd rowd xs rows) :=
  of_lay 0x23 [(7, 4), (27, 1), (15, 12), (63, 1), (51, 12)] [(11, 4, 0), (28, 4, 0), (32, 19, 0)] [k.val, bnat xd, rowd.toNat, bnat xs, rows.toNat] raw35 rfl (by decide)
    ⟨k.isLt, bnat_lt xd, rowd.isLt, bnat_lt xs, rows.isLt, trivial⟩ fun w ⟨g0, g1, g2, _⟩ ⟨h0, h1, h2, h3, h4, _⟩ => by
      simp [decRowl, needZero, g0, g1, g2, fnum_of h0, fbit_of h1, fbv_of h2, fbit_of h3, fbv_of h4]
theorem rzero (k : Fin 16) (xd : Bool) (rowd : BitVec 12) : Statement (.rzero k xd rowd) :=
  of_lay 0x10000023 [(7, 4), (27, 1), (15, 12)] [(11, 4, 0), (28, 4, 1), (32, 32, 0)] [k.val, bnat xd, rowd.toNat] raw35 rfl (by decide)
    ⟨k.isLt, bnat_lt xd, rowd.isLt, trivial⟩ fun w ⟨g0, g1, g2, _⟩ ⟨h0, h1, h2, _⟩ => by
      simp [decRowl, needZero, g0, g1, g2, fnum_of h0, fbit_of h1, fbv_of h2]
theorem cld (d : Fin 16) (b : Fin 32) (m : Fin 16) : Statement (.cld d b m) :=
  of_lay 0x22 [(7, 4), (15, 5), (20, 4)] [(11, 4, 0), (24, 1, 0), (25, 7, 0)] [d.val, b.val, m.val] raw34 rfl (by decide)
    ⟨d.isLt, b.isLt, m.isLt, trivial⟩ fun w ⟨g0, g1, g2, _⟩ ⟨h0, h1, h2, _⟩ => by
      simp [decCrown, needZero, g0, g1, g2, fnum_of h0, fnum_of h1, fnum_of h2]
theorem cst (s : Fin 16) (b : Fin 32) (m : Fin 16) : Statement (.cst s b m) :=
  of_lay 0x2000022 [(7, 4), (15, 5), (20, 4)] [(11, 4, 0), (24, 1, 0), (25, 7, 1)] [s.val, b.val, m.val] raw34 rfl (by decide)
    ⟨s.isLt, b.isLt, m.isLt, trivial⟩ fun w ⟨g0, g1, g2, _⟩ ⟨h0, h1, h2, _⟩ => by
      simp [decCrown, needZero, g0, g1, g2, fnum_of h0, fnum_of h1, fnum_of h2]
theorem vaddVV (d a b m : Fin 16) (cp : Bool) : Statement (.vaddVV d a b m cp) :=
  of_lay 0x30 [(7, 4), (11, 4), (15, 4), (19, 4), (23, 1)] [(24, 8, 0)] [d.val, a.val, b.val, m.val, bnat cp] raw48 rfl (by decide)
    ⟨d.isLt, a.isLt, b.isLt, m.isLt, bnat_lt cp, trivial⟩ fun w ⟨g0, _⟩ ⟨h0, h1, h2, h3, h4, _⟩ => by
      simp [decVarith, g0, fnum_of h0, fnum_of h1, fnum_of h2, fnum_of h3, fbit_of h4]
theorem vsubVV (d a b m : Fin 16) (cp : Bool) : Statement (.vsubVV d a b m cp) :=
  of_lay 0x1000030 [(7, 4), (11, 4), (15, 4), (19, 4), (23, 1)] [(24, 8, 1)] [d.val, a.val, b.val, m.val, bnat cp] raw48 rfl (by decide)
    ⟨d.isLt, a.isLt, b.isLt, m.isLt, bnat_lt cp, trivial⟩ fun w ⟨g0, _⟩ ⟨h0, h1, h2, h3, h4, _⟩ => by
      simp [decVarith, g0, fnum_of h0, fnum_of h1, fnum_of h2, fnum_of h3, fbit_of h4]
theorem vmulVV (d a b m : Fin 16) (cp : Bool) : Statement (.vmulVV d a b m cp) :=
  of_lay 0x2000030 [(7, 4), (11, 4), (15, 4), (19, 4), (23, 1)] [(24, 8, 2)] [d.val, a.val, b.val, m.val, bnat cp] raw48 rfl (by decide)
    ⟨d.isLt, a.isLt, b.isLt, m.isLt, bnat_lt cp, trivial⟩ fun w ⟨g0, _⟩ ⟨h0, h1, h2, h3, h4, _⟩ => by
      simp [decVarith, g0, fnum_of h0, fnum_of h1, fnum_of h2, fnum_of h3, fbit_of h4]
theorem vminVV (d a b m : Fin 16) (cp : Bool) : Statement (.vminVV d a b m cp) :=
  of_lay 0x3000030 [(7, 4), (11, 4), (15, 4), (19, 4), (23, 1)] [(24, 8, 3)] [d.val, a.val, b.val, m.val, bnat cp] raw48 rfl (by decide)
    ⟨d.isLt, a.isLt, b.isLt, m.isLt, bnat_lt cp, trivial⟩ fun w ⟨g0, _⟩ ⟨h0, h1, h2, h3, h4, _⟩ => by
      simp [decVarith, g0, fnum_of h0, fnum_of h1, fnum_of h2, fnum_of h3, fbit_of h4]
theorem vmaxVV (d a b m : Fin 16) (cp : Bool) : Statement (.vmaxVV d a b m cp) :=
  of_lay 0x4000030 [(7, 4), (11, 4), (15, 4), (19, 4), (23, 1)] [(24, 8, 4)] [d.val, a.val, b.val, m.val, bnat cp] raw48 rfl (by decide)
    ⟨d.isLt, a.isLt, b.isLt, m.isLt, bnat_lt cp, trivial⟩ fun w ⟨g0, _⟩ ⟨h0, h1, h2, h3, h4, _⟩ => by
      simp [decVarith, g0, fnum_of h0, fnum_of h1, fnum_of h2, fnum_of h3, fbit_of h4]
theorem vabs (d a m : Fin 16) (cp : Bool) : Statement (.vabs d a m cp) :=
  of_lay 0x5000030 [(7, 4), (11, 4), (19, 4), (23, 1)] [(15, 4, 0), (24, 8, 5)] [d.val, a.val, m.val, bnat cp] raw48 rfl (by decide)
    ⟨d.isLt, a.isLt, m.isLt, bnat_lt cp, trivial⟩ fun w ⟨g0, g1, _⟩ ⟨h0, h1, h2, h3, _⟩ => by
      simp [decVarith, needZero, g0, g1, fnum_of h0, fnum_of h1, fnum_of h2, fbit_of h3]
theorem vneg (d a m : Fin 16) (cp : Bool) : Statement (.vneg d a m cp) :=
  of_lay 0x6000030 [(7, 4), (11, 4), (19, 4), (23, 1)] [(15, 4, 0), (24, 8, 6)] [d.val, a.val, m.val, bnat cp] raw48 rfl (by decide)
    ⟨d.isLt, a.isLt, m.isLt, bnat_lt cp, trivial⟩ fun w ⟨g0, g1, _⟩ ⟨h0, h1, h2, h3, _⟩ => by
      simp [decVarith, needZero, g0, g1, fnum_of h0, fnum_of h1, fnum_of h2, fbit_of h3]
theorem vaddSVV (d a b m : Fin 16) (cp : Bool) : Statement (.vaddSVV d a b m cp) :=
  of_lay 0x7000030 [(7, 4), (11, 4), (15, 4), (19, 4), (23, 1)] [(24, 8, 7)] [d.val, a.val, b.val, m.val, bnat cp] raw48 rfl (by decide)
    ⟨d.isLt, a.isLt, b.isLt, m.isLt, bnat_lt cp, trivial⟩ fun w ⟨g0, _⟩ ⟨h0, h1, h2, h3, h4, _⟩ => by
      simp [decVarith, g0, fnum_of h0, fnum_of h1, fnum_of h2, fnum_of h3, fbit_of h4]
theorem vsubSVV (d a b m : Fin 16) (cp : Bool) : Statement (.vsubSVV d a b m cp) :=
  of_lay 0x8000030 [(7, 4), (11, 4), (15, 4), (19, 4), (23, 1)] [(24, 8, 8)] [d.val, a.val, b.val, m.val, bnat cp] raw48 rfl (by decide)
    ⟨d.isLt, a.isLt, b.isLt, m.isLt, bnat_lt cp, trivial⟩ fun w ⟨g0, _⟩ ⟨h0, h1, h2, h3, h4, _⟩ => by
      simp [decVarith, g0, fnum_of h0, fnum_of h1, fnum_of h2, fnum_of h3, fbit_of h4]
theorem vaddVX (d a : Fin 16) (x : Fin 32) (m : Fin 16) (cp : Bool) : Statement (.vaddVX d a x m cp) :=
  of_lay 0x31 [(7, 4), (11, 4), (15, 5), (20, 4), (24, 1)] [(25, 7, 0)] [d.val, a.val, x.val, m.val, bnat cp] raw49 rfl (by decide)
    ⟨d.isLt, a.isLt, x.isLt, m.isLt, bnat_lt cp, trivial⟩ fun w ⟨g0, _⟩ ⟨h0, h1, h2, h3, h4, _⟩ => by
      simp [decVscal, g0, fnum_of h0, fnum_of h1, fnum_of h2, fnum_of h3, fbit_of h4]
theorem vsubVX (d a : Fin 16) (x : Fin 32) (m : Fin 16) (cp : Bool) : Statement (.vsubVX d a x m cp) :=
  of_lay 0x2000031 [(7, 4), (11, 4), (15, 5), (20, 4), (24, 1)] [(25, 7, 1)] [d.val, a.val, x.val, m.val, bnat cp] raw49 rfl (by decide)
    ⟨d.isLt, a.isLt, x.isLt, m.isLt, bnat_lt cp, trivial⟩ fun w ⟨g0, _⟩ ⟨h0, h1, h2, h3, h4, _⟩ => by
      simp [decVscal, g0, fnum_of h0, fnum_of h1, fnum_of h2, fnum_of h3, fbit_of h4]
theorem vmulVX (d a : Fin 16) (x : Fin 32) (m : Fin 16) (cp : Bool) : Statement (.vmulVX d a x m cp) :=
  of_lay 0x4000031 [(7, 4), (11, 4), (15, 5), (20, 4), (24, 1)] [(25, 7, 2)] [d.val, a.val, x.val, m.val, bnat cp] raw49 rfl (by decide)
    ⟨d.isLt, a.isLt, x.isLt, m.isLt, bnat_lt cp, trivial⟩ fun w ⟨g0, _⟩ ⟨h0, h1, h2, h3, h4, _⟩ => by
      simp [decVscal, g0, fnum_of h0, fnum_of h1, fnum_of h2, fnum_of h3, fbit_of h4]
theorem vminVX (d a : Fin 16) (x : Fin 32) (m : Fin 16) (cp : Bool) : Statement (.vminVX d a x m cp) :=
  of_lay 0x6000031 [(7, 4), (11, 4), (15, 5), (20, 4), (24, 1)] [(25, 7, 3)] [d.val, a.val, x.val, m.val, bnat cp] raw49 rfl (by decide)
    ⟨d.isLt, a.isLt, x.isLt, m.isLt, bnat_lt cp, trivial⟩ fun w ⟨g0, _⟩ ⟨h0, h1, h2, h3, h4, _⟩ => by
      simp [decVscal, g0, fnum_of h0, fnum_of h1, fnum_of h2, fnum_of h3, fbit_of h4]
theorem vmaxVX (d a : Fin 16) (x : Fin 32) (m : Fin 16) (cp : Bool) : Statement (.vmaxVX d a x m cp) :=
  of_lay 0x8000031 [(7, 4), (11, 4), (15, 5), (20, 4), (24, 1)] [(25, 7, 4)] [d.val, a.val, x.val, m.val, bnat cp] raw49 rfl (by decide)
    ⟨d.isLt, a.isLt, x.isLt, m.isLt, bnat_lt cp, trivial⟩ fun w ⟨g0, _⟩ ⟨h0, h1, h2, h3, h4, _⟩ => by
      simp [decVscal, g0, fnum_of h0, fnum_of h1, fnum_of h2, fnum_of h3, fbit_of h4]
theorem vaddSVX (d a : Fin 16) (x : Fin 32) (m : Fin 16) (cp : Bool) : Statement (.vaddSVX d a x m cp) :=
  of_lay 0xe000031 [(7, 4), (11, 4), (15, 5), (20, 4), (24, 1)] [(25, 7, 7)] [d.val, a.val, x.val, m.val, bnat cp] raw49 rfl (by decide)
    ⟨d.isLt, a.isLt, x.isLt, m.isLt, bnat_lt cp, trivial⟩ fun w ⟨g0, _⟩ ⟨h0, h1, h2, h3, h4, _⟩ => by
      simp [decVscal, g0, fnum_of h0, fnum_of h1, fnum_of h2, fnum_of h3, fbit_of h4]
theorem vsubSVX (d a : Fin 16) (x : Fin 32) (m : Fin 16) (cp : Bool) : Statement (.vsubSVX d a x m cp) :=
  of_lay 0x10000031 [(7, 4), (11, 4), (15, 5), (20, 4), (24, 1)] [(25, 7, 8)] [d.val, a.val, x.val, m.val, bnat cp] raw49 rfl (by decide)
    ⟨d.isLt, a.isLt, x.isLt, m.isLt, bnat_lt cp, trivial⟩ fun w ⟨g0, _⟩ ⟨h0, h1, h2, h3, h4, _⟩ => by
      simp [decVscal, g0, fnum_of h0, fnum_of h1, fnum_of h2, fnum_of h3, fbit_of h4]
theorem vaddVI (d a : Fin 16) (i : BitVec 8) (m : Fin 16) (cp : Bool) : Statement (.vaddVI d a i m cp) :=
  of_lay 0x32 [(7, 4), (11, 4), (15, 8), (23, 4), (27, 1)] [(28, 4, 0)] [d.val, a.val, i.toNat, m.val, bnat cp] raw50 rfl (by decide)
    ⟨d.isLt, a.isLt, i.isLt, m.isLt, bnat_lt cp, trivial⟩ fun w ⟨g0, _⟩ ⟨h0, h1, h2, h3, h4, _⟩ => by
      simp [decVimm, g0, fnum_of h0, fnum_of h1, fbv_of h2, fnum_of h3, fbit_of h4]
theorem vsubVI (d a : Fin 16) (i : BitVec 8) (m : Fin 16) (cp : Bool) : Statement (.vsubVI d a i m cp) :=
  of_lay 0x10000032 [(7, 4), (11, 4), (15, 8), (23, 4), (27, 1)] [(28, 4, 1)] [d.val, a.val, i.toNat, m.val, bnat cp] raw50 rfl (by decide)
    ⟨d.isLt, a.isLt, i.isLt, m.isLt, bnat_lt cp, trivial⟩ fun w ⟨g0, _⟩ ⟨h0, h1, h2, h3, h4, _⟩ => by
      simp [decVimm, g0, fnum_of h0, fnum_of h1, fbv_of h2, fnum_of h3, fbit_of h4]
theorem vrsub (d a : Fin 16) (i : BitVec 8) (m : Fin 16) (cp : Bool) : Statement (.vrsub d a i m cp) :=
  of_lay 0x20000032 [(7, 4), (11, 4), (15, 8), (23, 4), (27, 1)] [(28, 4, 2)] [d.val, a.val, i.toNat, m.val, bnat cp] raw50 rfl (by decide)
    ⟨d.isLt, a.isLt, i.isLt, m.isLt, bnat_lt cp, trivial⟩ fun w ⟨g0, _⟩ ⟨h0, h1, h2, h3, h4, _⟩ => by
      simp [decVimm, g0, fnum_of h0, fnum_of h1, fbv_of h2, fnum_of h3, fbit_of h4]
theorem vmulVI (d a : Fin 16) (i : BitVec 8) (m : Fin 16) (cp : Bool) : Statement (.vmulVI d a i m cp) :=
  of_lay 0x30000032 [(7, 4), (11, 4), (15, 8), (23, 4), (27, 1)] [(28, 4, 3)] [d.val, a.val, i.toNat, m.val, bnat cp] raw50 rfl (by decide)
    ⟨d.isLt, a.isLt, i.isLt, m.isLt, bnat_lt cp, trivial⟩ fun w ⟨g0, _⟩ ⟨h0, h1, h2, h3, h4, _⟩ => by
      simp [decVimm, g0, fnum_of h0, fnum_of h1, fbv_of h2, fnum_of h3, fbit_of h4]
theorem vminVI (d a : Fin 16) (i : BitVec 8) (m : Fin 16) (cp : Bool) : Statement (.vminVI d a i m cp) :=
  of_lay 0x40000032 [(7, 4), (11, 4), (15, 8), (23, 4), (27, 1)] [(28, 4, 4)] [d.val, a.val, i.toNat, m.val, bnat cp] raw50 rfl (by decide)
    ⟨d.isLt, a.isLt, i.isLt, m.isLt, bnat_lt cp, trivial⟩ fun w ⟨g0, _⟩ ⟨h0, h1, h2, h3, h4, _⟩ => by
      simp [decVimm, g0, fnum_of h0, fnum_of h1, fbv_of h2, fnum_of h3, fbit_of h4]
theorem vmaxVI (d a : Fin 16) (i : BitVec 8) (m : Fin 16) (cp : Bool) : Statement (.vmaxVI d a i m cp) :=
  of_lay 0x50000032 [(7, 4), (11, 4), (15, 8), (23, 4), (27, 1)] [(28, 4, 5)] [d.val, a.val, i.toNat, m.val, bnat cp] raw50 rfl (by decide)
    ⟨d.isLt, a.isLt, i.isLt, m.isLt, bnat_lt cp, trivial⟩ fun w ⟨g0, _⟩ ⟨h0, h1, h2, h3, h4, _⟩ => by
      simp [decVimm, g0, fnum_of h0, fnum_of h1, fbv_of h2, fnum_of h3, fbit_of h4]
theorem vsllVI (d a : Fin 16) (i : BitVec 8) (m : Fin 16) (cp : Bool) : Statement (.vsllVI d a i m cp) :=
  of_lay 0x60000032 [(7, 4), (11, 4), (15, 8), (23, 4), (27, 1)] [(28, 4, 6)] [d.val, a.val, i.toNat, m.val, bnat cp] raw50 rfl (by decide)
    ⟨d.isLt, a.isLt, i.isLt, m.isLt, bnat_lt cp, trivial⟩ fun w ⟨g0, _⟩ ⟨h0, h1, h2, h3, h4, _⟩ => by
      simp [decVimm, g0, fnum_of h0, fnum_of h1, fbv_of h2, fnum_of h3, fbit_of h4]
theorem vsrlVI (d a : Fin 16) (i : BitVec 8) (m : Fin 16) (cp : Bool) : Statement (.vsrlVI d a i m cp) :=
  of_lay 0x70000032 [(7, 4), (11, 4), (15, 8), (23, 4), (27, 1)] [(28, 4, 7)] [d.val, a.val, i.toNat, m.val, bnat cp] raw50 rfl (by decide)
    ⟨d.isLt, a.isLt, i.isLt, m.isLt, bnat_lt cp, trivial⟩ fun w ⟨g0, _⟩ ⟨h0, h1, h2, h3, h4, _⟩ => by
      simp [decVimm, g0, fnum_of h0, fnum_of h1, fbv_of h2, fnum_of h3, fbit_of h4]
theorem vsraVI (d a : Fin 16) (i : BitVec 8) (m : Fin 16) (cp : Bool) : Statement (.vsraVI d a i m cp) :=
  of_lay 0x80000032 [(7, 4), (11, 4), (15, 8), (23, 4), (27, 1)] [(28, 4, 8)] [d.val, a.val, i.toNat, m.val, bnat cp] raw50 rfl (by decide)
    ⟨d.isLt, a.isLt, i.isLt, m.isLt, bnat_lt cp, trivial⟩ fun w ⟨g0, _⟩ ⟨h0, h1, h2, h3, h4, _⟩ => by
      simp [decVimm, g0, fnum_of h0, fnum_of h1, fbv_of h2, fnum_of h3, fbit_of h4]
theorem vandVI (d a : Fin 16) (i : BitVec 8) (m : Fin 16) (cp : Bool) : Statement (.vandVI d a i m cp) :=
  of_lay 0x90000032 [(7, 4), (11, 4), (15, 8), (23, 4), (27, 1)] [(28, 4, 9)] [d.val, a.val, i.toNat, m.val, bnat cp] raw50 rfl (by decide)
    ⟨d.isLt, a.isLt, i.isLt, m.isLt, bnat_lt cp, trivial⟩ fun w ⟨g0, _⟩ ⟨h0, h1, h2, h3, h4, _⟩ => by
      simp [decVimm, g0, fnum_of h0, fnum_of h1, fbv_of h2, fnum_of h3, fbit_of h4]
theorem vorVI (d a : Fin 16) (i : BitVec 8) (m : Fin 16) (cp : Bool) : Statement (.vorVI d a i m cp) :=
  of_lay 0xa0000032 [(7, 4), (11, 4), (15, 8), (23, 4), (27, 1)] [(28, 4, 10)] [d.val, a.val, i.toNat, m.val, bnat cp] raw50 rfl (by decide)
    ⟨d.isLt, a.isLt, i.isLt, m.isLt, bnat_lt cp, trivial⟩ fun w ⟨g0, _⟩ ⟨h0, h1, h2, h3, h4, _⟩ => by
      simp [decVimm, g0, fnum_of h0, fnum_of h1, fbv_of h2, fnum_of h3, fbit_of h4]
theorem vxorVI (d a : Fin 16) (i : BitVec 8) (m : Fin 16) (cp : Bool) : Statement (.vxorVI d a i m cp) :=
  of_lay 0xb0000032 [(7, 4), (11, 4), (15, 8), (23, 4), (27, 1)] [(28, 4, 11)] [d.val, a.val, i.toNat, m.val, bnat cp] raw50 rfl (by decide)
    ⟨d.isLt, a.isLt, i.isLt, m.isLt, bnat_lt cp, trivial⟩ fun w ⟨g0, _⟩ ⟨h0, h1, h2, h3, h4, _⟩ => by
      simp [decVimm, g0, fnum_of h0, fnum_of h1, fbv_of h2, fnum_of h3, fbit_of h4]
theorem vfma (d a b c : Fin 16) (rm : Fin 8) (m : Fin 16) (cp : Bool) : Statement (.vfma d a b c rm m cp) :=
  of_lay 0x33 [(7, 4), (11, 4), (15, 4), (43, 4), (48, 3), (19, 4), (23, 1)] [(24, 8, 0), (32, 11, 0), (47, 1, 0), (51, 13, 0)] [d.val, a.val, b.val, c.val, rm.val, m.val, bnat cp] raw51 rfl (by decide)
    ⟨d.isLt, a.isLt, b.isLt, c.isLt, rm.isLt, m.isLt, bnat_lt cp, trivial⟩ fun w ⟨g0, g1, g2, g3, _⟩ ⟨h0, h1, h2, h3, h4, h5, h6, _⟩ => by
      simp [decVext, needZero, g0, g1, g2, g3, fnum_of h0, fnum_of h1, fnum_of h2, fnum_of h3, fnum_of h4, fnum_of h5, fbit_of h6]
theorem vfms (d a b c : Fin 16) (rm : Fin 8) (m : Fin 16) (cp : Bool) : Statement (.vfms d a b c rm m cp) :=
  of_lay 0x1000033 [(7, 4), (11, 4), (15, 4), (43, 4), (48, 3), (19, 4), (23, 1)] [(24, 8, 1), (32, 11, 0), (47, 1, 0), (51, 13, 0)] [d.val, a.val, b.val, c.val, rm.val, m.val, bnat cp] raw51 rfl (by decide)
    ⟨d.isLt, a.isLt, b.isLt, c.isLt, rm.isLt, m.isLt, bnat_lt cp, trivial⟩ fun w ⟨g0, g1, g2, g3, _⟩ ⟨h0, h1, h2, h3, h4, h5, h6, _⟩ => by
      simp [decVext, needZero, g0, g1, g2, g3, fnum_of h0, fnum_of h1, fnum_of h2, fnum_of h3, fnum_of h4, fnum_of h5, fbit_of h6]
theorem vfmaX (d a : Fin 16) (x : Fin 32) (c : Fin 16) (rm : Fin 8) (m : Fin 16) (cp : Bool) : Statement (.vfmaX d a x c rm m cp) :=
  of_lay 0x2000033 [(7, 4), (11, 4), (51, 5), (43, 4), (48, 3), (19, 4), (23, 1)] [(15, 4, 0), (24, 8, 2), (32, 11, 0), (47, 1, 0), (56, 8, 0)] [d.val, a.val, x.val, c.val, rm.val, m.val, bnat cp] raw51 rfl (by decide)
    ⟨d.isLt, a.isLt, x.isLt, c.isLt, rm.isLt, m.isLt, bnat_lt cp, trivial⟩ fun w ⟨g0, g1, g2, g3, g4, _⟩ ⟨h0, h1, h2, h3, h4, h5, h6, _⟩ => by
      simp [decVext, needZero, g0, g1, g2, g3, g4, fnum_of h0, fnum_of h1, fnum_of h2, fnum_of h3, fnum_of h4, fnum_of h5, fbit_of h6]
theorem vfmsX (d a : Fin 16) (x : Fin 32) (c : Fin 16) (rm : Fin 8) (m : Fin 16) (cp : Bool) : Statement (.vfmsX d a x c rm m cp) :=
  of_lay 0x3000033 [(7, 4), (11, 4), (51, 5), (43, 4), (48, 3), (19, 4), (23, 1)] [(15, 4, 0), (24, 8, 3), (32, 11, 0), (47, 1, 0), (56, 8, 0)] [d.val, a.val, x.val, c.val, rm.val, m.val, bnat cp] raw51 rfl (by decide)
    ⟨d.isLt, a.isLt, x.isLt, c.isLt, rm.isLt, m.isLt, bnat_lt cp, trivial⟩ fun w ⟨g0, g1, g2, g3, g4, _⟩ ⟨h0, h1, h2, h3, h4, h5, h6, _⟩ => by
      simp [decVext, needZero, g0, g1, g2, g3, g4, fnum_of h0, fnum_of h1, fnum_of h2, fnum_of h3, fnum_of h4, fnum_of h5, fbit_of h6]
theorem vcvt (d a : Fin 16) (i : BitVec 8) (rm : Fin 8) (sat : Bool) (m : Fin 16) (cp : Bool) : Statement (.vcvt d a i rm sat m cp) :=
  of_lay 0x20000033 [(7, 4), (11, 4), (56, 8), (48, 3), (47, 1), (19, 4), (23, 1)] [(15, 4, 0), (24, 8, 32), (32, 15, 0), (51, 5, 0)] [d.val, a.val, i.toNat, rm.val, bnat sat, m.val, bnat cp] raw51 rfl (by decide)
    ⟨d.isLt, a.isLt, i.isLt, rm.isLt, bnat_lt sat, m.isLt, bnat_lt cp, trivial⟩ fun w ⟨g0, g1, g2, g3, _⟩ ⟨h0, h1, h2, h3, h4, h5, h6, _⟩ => by
      simp [decVext, needZero, g0, g1, g2, g3, fnum_of h0, fnum_of h1, fbv_of h2, fnum_of h3, fbit_of h4, fnum_of h5, fbit_of h6]
theorem vcvtMX (d a b : Fin 16) (i : BitVec 8) (rm : Fin 8) (sat : Bool) (m : Fin 16) (cp : Bool) : Statement (.vcvtMX d a b i rm sat m cp) :=
  of_lay 0x21000033 [(7, 4), (11, 4), (15, 4), (56, 8), (48, 3), (47, 1), (19, 4), (23, 1)] [(24, 8, 33), (32, 15, 0), (51, 5, 0)] [d.val, a.val, b.val, i.toNat, rm.val, bnat sat, m.val, bnat cp] raw51 rfl (by decide)
    ⟨d.isLt, a.isLt, b.isLt, i.isLt, rm.isLt, bnat_lt sat, m.isLt, bnat_lt cp, trivial⟩ fun w ⟨g0, g1, g2, _⟩ ⟨h0, h1, h2, h3, h4, h5, h6, h7, _⟩ => by
      simp [decVext, needZero, g0, g1, g2, fnum_of h0, fnum_of h1, fnum_of h2, fbv_of h3, fnum_of h4, fbit_of h5, fnum_of h6, fbit_of h7]
theorem vqntMX (d a b : Fin 16) (i : BitVec 8) (rm : Fin 8) (sat : Bool) (m : Fin 16) (cp : Bool) : Statement (.vqntMX d a b i rm sat m cp) :=
  of_lay 0x22000033 [(7, 4), (11, 4), (15, 4), (56, 8), (48, 3), (47, 1), (19, 4), (23, 1)] [(24, 8, 34), (32, 15, 0), (51, 5, 0)] [d.val, a.val, b.val, i.toNat, rm.val, bnat sat, m.val, bnat cp] raw51 rfl (by decide)
    ⟨d.isLt, a.isLt, b.isLt, i.isLt, rm.isLt, bnat_lt sat, m.isLt, bnat_lt cp, trivial⟩ fun w ⟨g0, g1, g2, _⟩ ⟨h0, h1, h2, h3, h4, h5, h6, h7, _⟩ => by
      simp [decVext, needZero, g0, g1, g2, fnum_of h0, fnum_of h1, fnum_of h2, fbv_of h3, fnum_of h4, fbit_of h5, fnum_of h6, fbit_of h7]
theorem vaddRm (d a b : Fin 16) (rm : Fin 8) (m : Fin 16) (cp : Bool) : Statement (.vaddRm d a b rm m cp) :=
  of_lay 0x40000033 [(7, 4), (11, 4), (15, 4), (48, 3), (19, 4), (23, 1)] [(24, 8, 64), (32, 16, 0), (51, 13, 0)] [d.val, a.val, b.val, rm.val, m.val, bnat cp] raw51 rfl (by decide)
    ⟨d.isLt, a.isLt, b.isLt, rm.isLt, m.isLt, bnat_lt cp, trivial⟩ fun w ⟨g0, g1, g2, _⟩ ⟨h0, h1, h2, h3, h4, h5, _⟩ => by
      simp [decVext, needZero, g0, g1, g2, fnum_of h0, fnum_of h1, fnum_of h2, fnum_of h3, fnum_of h4, fbit_of h5]
theorem vsubRm (d a b : Fin 16) (rm : Fin 8) (m : Fin 16) (cp : Bool) : Statement (.vsubRm d a b rm m cp) :=
  of_lay 0x41000033 [(7, 4), (11, 4), (15, 4), (48, 3), (19, 4), (23, 1)] [(24, 8, 65), (32, 16, 0), (51, 13, 0)] [d.val, a.val, b.val, rm.val, m.val, bnat cp] raw51 rfl (by decide)
    ⟨d.isLt, a.isLt, b.isLt, rm.isLt, m.isLt, bnat_lt cp, trivial⟩ fun w ⟨g0, g1, g2, _⟩ ⟨h0, h1, h2, h3, h4, h5, _⟩ => by
      simp [decVext, needZero, g0, g1, g2, fnum_of h0, fnum_of h1, fnum_of h2, fnum_of h3, fnum_of h4, fbit_of h5]
theorem vmulRm (d a b : Fin 16) (rm : Fin 8) (m : Fin 16) (cp : Bool) : Statement (.vmulRm d a b rm m cp) :=
  of_lay 0x42000033 [(7, 4), (11, 4), (15, 4), (48, 3), (19, 4), (23, 1)] [(24, 8, 66), (32, 16, 0), (51, 13, 0)] [d.val, a.val, b.val, rm.val, m.val, bnat cp] raw51 rfl (by decide)
    ⟨d.isLt, a.isLt, b.isLt, rm.isLt, m.isLt, bnat_lt cp, trivial⟩ fun w ⟨g0, g1, g2, _⟩ ⟨h0, h1, h2, h3, h4, h5, _⟩ => by
      simp [decVext, needZero, g0, g1, g2, fnum_of h0, fnum_of h1, fnum_of h2, fnum_of h3, fnum_of h4, fbit_of h5]
theorem vcmpEq (d a b m : Fin 16) : Statement (.vcmpEq d a b m) :=
  of_lay 0x34 [(7, 4), (11, 4), (15, 4), (19, 4)] [(23, 1, 0), (24, 8, 0)] [d.val, a.val, b.val, m.val] raw52 rfl (by decide)
    ⟨d.isLt, a.isLt, b.isLt, m.isLt, trivial⟩ fun w ⟨g0, g1, _⟩ ⟨h0, h1, h2, h3, _⟩ => by
      simp [decVcmp, needZero, g0, g1, fnum_of h0, fnum_of h1, fnum_of h2, fnum_of h3]
theorem vcmpNe (d a b m : Fin 16) : Statement (.vcmpNe d a b m) :=
  of_lay 0x1000034 [(7, 4), (11, 4), (15, 4), (19, 4)] [(23, 1, 0), (24, 8, 1)] [d.val, a.val, b.val, m.val] raw52 rfl (by decide)
    ⟨d.isLt, a.isLt, b.isLt, m.isLt, trivial⟩ fun w ⟨g0, g1, _⟩ ⟨h0, h1, h2, h3, _⟩ => by
      simp [decVcmp, needZero, g0, g1, fnum_of h0, fnum_of h1, fnum_of h2, fnum_of h3]
theorem vcmpLt (d a b m : Fin 16) : Statement (.vcmpLt d a b m) :=
  of_lay 0x2000034 [(7, 4), (11, 4), (15, 4), (19, 4)] [(23, 1, 0), (24, 8, 2)] [d.val, a.val, b.val, m.val] raw52 rfl (by decide)
    ⟨d.isLt, a.isLt, b.isLt, m.isLt, trivial⟩ fun w ⟨g0, g1, _⟩ ⟨h0, h1, h2, h3, _⟩ => by
      simp [decVcmp, needZero, g0, g1, fnum_of h0, fnum_of h1, fnum_of h2, fnum_of h3]
theorem vcmpLe (d a b m : Fin 16) : Statement (.vcmpLe d a b m) :=
  of_lay 0x3000034 [(7, 4), (11, 4), (15, 4), (19, 4)] [(23, 1, 0), (24, 8, 3)] [d.val, a.val, b.val, m.val] raw52 rfl (by decide)
    ⟨d.isLt, a.isLt, b.isLt, m.isLt, trivial⟩ fun w ⟨g0, g1, _⟩ ⟨h0, h1, h2, h3, _⟩ => by
      simp [decVcmp, needZero, g0, g1, fnum_of h0, fnum_of h1, fnum_of h2, fnum_of h3]
theorem vcmpGt (d a b m : Fin 16) : Statement (.vcmpGt d a b m) :=
  of_lay 0x4000034 [(7, 4), (11, 4), (15, 4), (19, 4)] [(23, 1, 0), (24, 8, 4)] [d.val, a.val, b.val, m.val] raw52 rfl (by decide)
    ⟨d.isLt, a.isLt, b.isLt, m.isLt, trivial⟩ fun w ⟨g0, g1, _⟩ ⟨h0, h1, h2, h3, _⟩ => by
      simp [decVcmp, needZero, g0, g1, fnum_of h0, fnum_of h1, fnum_of h2, fnum_of h3]
theorem vcmpGe (d a b m : Fin 16) : Statement (.vcmpGe d a b m) :=
  of_lay 0x5000034 [(7, 4), (11, 4), (15, 4), (19, 4)] [(23, 1, 0), (24, 8, 5)] [d.val, a.val, b.val, m.val] raw52 rfl (by decide)
    ⟨d.isLt, a.isLt, b.isLt, m.isLt, trivial⟩ fun w ⟨g0, g1, _⟩ ⟨h0, h1, h2, h3, _⟩ => by
      simp [decVcmp, needZero, g0, g1, fnum_of h0, fnum_of h1, fnum_of h2, fnum_of h3]
theorem vcmpUn (d a b m : Fin 16) : Statement (.vcmpUn d a b m) :=
  of_lay 0x6000034 [(7, 4), (11, 4), (15, 4), (19, 4)] [(23, 1, 0), (24, 8, 6)] [d.val, a.val, b.val, m.val] raw52 rfl (by decide)
    ⟨d.isLt, a.isLt, b.isLt, m.isLt, trivial⟩ fun w ⟨g0, g1, _⟩ ⟨h0, h1, h2, h3, _⟩ => by
      simp [decVcmp, needZero, g0, g1, fnum_of h0, fnum_of h1, fnum_of h2, fnum_of h3]
theorem vcmpOr (d a b m : Fin 16) : Statement (.vcmpOr d a b m) :=
  of_lay 0x7000034 [(7, 4), (11, 4), (15, 4), (19, 4)] [(23, 1, 0), (24, 8, 7)] [d.val, a.val, b.val, m.val] raw52 rfl (by decide)
    ⟨d.isLt, a.isLt, b.isLt, m.isLt, trivial⟩ fun w ⟨g0, g1, _⟩ ⟨h0, h1, h2, h3, _⟩ => by
      simp [decVcmp, needZero, g0, g1, fnum_of h0, fnum_of h1, fnum_of h2, fnum_of h3]
theorem vandVV (d a b m : Fin 16) (cp : Bool) : Statement (.vandVV d a b m cp) :=
  of_lay 0x35 [(7, 4), (11, 4), (15, 4), (19, 4), (23, 1)] [(24, 8, 0)] [d.val, a.val, b.val, m.val, bnat cp] raw53 rfl (by decide)
    ⟨d.isLt, a.isLt, b.isLt, m.isLt, bnat_lt cp, trivial⟩ fun w ⟨g0, _⟩ ⟨h0, h1, h2, h3, h4, _⟩ => by
      simp [decVlog, g0, fnum_of h0, fnum_of h1, fnum_of h2, fnum_of h3, fbit_of h4]
theorem vorVV (d a b m : Fin 16) (cp : Bool) : Statement (.vorVV d a b m cp) :=
  of_lay 0x1000035 [(7, 4), (11, 4), (15, 4), (19, 4), (23, 1)] [(24, 8, 1)] [d.val, a.val, b.val, m.val, bnat cp] raw53 rfl (by decide)
    ⟨d.isLt, a.isLt, b.isLt, m.isLt, bnat_lt cp, trivial⟩ fun w ⟨g0, _⟩ ⟨h0, h1, h2, h3, h4, _⟩ => by
      simp [decVlog, g0, fnum_of h0, fnum_of h1, fnum_of h2, fnum_of h3, fbit_of h4]
theorem vxorVV (d a b m : Fin 16) (cp : Bool) : Statement (.vxorVV d a b m cp) :=
  of_lay 0x2000035 [(7, 4), (11, 4), (15, 4), (19, 4), (23, 1)] [(24, 8, 2)] [d.val, a.val, b.val, m.val, bnat cp] raw53 rfl (by decide)
    ⟨d.isLt, a.isLt, b.isLt, m.isLt, bnat_lt cp, trivial⟩ fun w ⟨g0, _⟩ ⟨h0, h1, h2, h3, h4, _⟩ => by
      simp [decVlog, g0, fnum_of h0, fnum_of h1, fnum_of h2, fnum_of h3, fbit_of h4]
theorem vandn (d a b m : Fin 16) (cp : Bool) : Statement (.vandn d a b m cp) :=
  of_lay 0x3000035 [(7, 4), (11, 4), (15, 4), (19, 4), (23, 1)] [(24, 8, 3)] [d.val, a.val, b.val, m.val, bnat cp] raw53 rfl (by decide)
    ⟨d.isLt, a.isLt, b.isLt, m.isLt, bnat_lt cp, trivial⟩ fun w ⟨g0, _⟩ ⟨h0, h1, h2, h3, h4, _⟩ => by
      simp [decVlog, g0, fnum_of h0, fnum_of h1, fnum_of h2, fnum_of h3, fbit_of h4]
theorem vnot (d a m : Fin 16) (cp : Bool) : Statement (.vnot d a m cp) :=
  of_lay 0x4000035 [(7, 4), (11, 4), (19, 4), (23, 1)] [(15, 4, 0), (24, 8, 4)] [d.val, a.val, m.val, bnat cp] raw53 rfl (by decide)
    ⟨d.isLt, a.isLt, m.isLt, bnat_lt cp, trivial⟩ fun w ⟨g0, g1, _⟩ ⟨h0, h1, h2, h3, _⟩ => by
      simp [decVlog, needZero, g0, g1, fnum_of h0, fnum_of h1, fnum_of h2, fbit_of h3]
theorem vsllVV (d a b m : Fin 16) (cp : Bool) : Statement (.vsllVV d a b m cp) :=
  of_lay 0x8000035 [(7, 4), (11, 4), (15, 4), (19, 4), (23, 1)] [(24, 8, 8)] [d.val, a.val, b.val, m.val, bnat cp] raw53 rfl (by decide)
    ⟨d.isLt, a.isLt, b.isLt, m.isLt, bnat_lt cp, trivial⟩ fun w ⟨g0, _⟩ ⟨h0, h1, h2, h3, h4, _⟩ => by
      simp [decVlog, g0, fnum_of h0, fnum_of h1, fnum_of h2, fnum_of h3, fbit_of h4]
theorem vsrlVV (d a b m : Fin 16) (cp : Bool) : Statement (.vsrlVV d a b m cp) :=
  of_lay 0x9000035 [(7, 4), (11, 4), (15, 4), (19, 4), (23, 1)] [(24, 8, 9)] [d.val, a.val, b.val, m.val, bnat cp] raw53 rfl (by decide)
    ⟨d.isLt, a.isLt, b.isLt, m.isLt, bnat_lt cp, trivial⟩ fun w ⟨g0, _⟩ ⟨h0, h1, h2, h3, h4, _⟩ => by
      simp [decVlog, g0, fnum_of h0, fnum_of h1, fnum_of h2, fnum_of h3, fbit_of h4]
theorem vsraVV (d a b m : Fin 16) (cp : Bool) : Statement (.vsraVV d a b m cp) :=
  of_lay 0xa000035 [(7, 4), (11, 4), (15, 4), (19, 4), (23, 1)] [(24, 8, 10)] [d.val, a.val, b.val, m.val, bnat cp] raw53 rfl (by decide)
    ⟨d.isLt, a.isLt, b.isLt, m.isLt, bnat_lt cp, trivial⟩ fun w ⟨g0, _⟩ ⟨h0, h1, h2, h3, h4, _⟩ => by
      simp [decVlog, g0, fnum_of h0, fnum_of h1, fnum_of h2, fnum_of h3, fbit_of h4]
theorem vsel (d a b m : Fin 16) : Statement (.vsel d a b m) :=
  of_lay 0x10000035 [(7, 4), (11, 4), (15, 4), (19, 4)] [(23, 1, 0), (24, 8, 16)] [d.val, a.val, b.val, m.val] raw53 rfl (by decide)
    ⟨d.isLt, a.isLt, b.isLt, m.isLt, trivial⟩ fun w ⟨g0, g1, _⟩ ⟨h0, h1, h2, h3, _⟩ => by
      simp [decVlog, needZero, g0, g1, fnum_of h0, fnum_of h1, fnum_of h2, fnum_of h3]
theorem setvl (d : Fin 64) (k : Fin 32) (t : Fin 16) (a : Fin 64) : Statement (.setvl d k t a) :=
  of_lay 0x36 [(7, 6), (23, 5), (19, 4), (13, 6)] [(28, 4, 0)] [d.val, k.val, t.val, a.val] raw54 rfl (by decide)
    ⟨d.isLt, k.isLt, t.isLt, a.isLt, trivial⟩ fun w ⟨g0, _⟩ ⟨h0, h1, h2, h3, _⟩ => by
      simp [decVconf, g0, fnum_of h0, fnum_of h1, fnum_of h2, fnum_of h3]
theorem vcfg (d t : Fin 16) : Statement (.vcfg d t) :=
  of_lay 0x10000036 [(7, 4), (19, 4)] [(11, 8, 0), (23, 5, 0), (28, 4, 1)] [d.val, t.val] raw54 rfl (by decide)
    ⟨d.isLt, t.isLt, trivial⟩ fun w ⟨g0, g1, g2, _⟩ ⟨h0, h1, _⟩ => by
      simp [decVconf, needZero, g0, g1, g2, fnum_of h0, fnum_of h1]
theorem vsplat (d : Fin 16) (a : Fin 64) : Statement (.vsplat d a) :=
  of_lay 0x20000036 [(7, 4), (13, 6)] [(11, 2, 0), (19, 9, 0), (28, 4, 2)] [d.val, a.val] raw54 rfl (by decide)
    ⟨d.isLt, a.isLt, trivial⟩ fun w ⟨g0, g1, g2, _⟩ ⟨h0, h1, _⟩ => by
      simp [decVconf, needZero, g0, g1, g2, fnum_of h0, fnum_of h1]
theorem viota (d : Fin 16) (a : Fin 64) : Statement (.viota d a) :=
  of_lay 0x30000036 [(7, 4), (13, 6)] [(11, 2, 0), (19, 9, 0), (28, 4, 3)] [d.val, a.val] raw54 rfl (by decide)
    ⟨d.isLt, a.isLt, trivial⟩ fun w ⟨g0, g1, g2, _⟩ ⟨h0, h1, _⟩ => by
      simp [decVconf, needZero, g0, g1, g2, fnum_of h0, fnum_of h1]
theorem vmovms (d : Fin 64) (o : BitVec 5) (m : Fin 16) : Statement (.vmovms d o m) :=
  of_lay 0x40000036 [(7, 6), (23, 5), (13, 4)] [(17, 6, 0), (28, 4, 4)] [d.val, o.toNat, m.val] raw54 rfl (by decide)
    ⟨d.isLt, o.isLt, m.isLt, trivial⟩ fun w ⟨g0, g1, _⟩ ⟨h0, h1, h2, _⟩ => by
      simp [decVconf, needZero, g0, g1, fnum_of h0, fbv_of h1, fnum_of h2]
theorem vmovsm (a : Fin 64) (m : Fin 16) : Statement (.vmovsm a m) :=
  of_lay 0x50000036 [(13, 6), (7, 4)] [(11, 2, 0), (19, 9, 0), (28, 4, 5)] [a.val, m.val] raw54 rfl (by decide)
    ⟨a.isLt, m.isLt, trivial⟩ fun w ⟨g0, g1, g2, _⟩ ⟨h0, h1, _⟩ => by
      simp [decVconf, needZero, g0, g1, g2, fnum_of h0, fnum_of h1]
theorem vdiv (d a b : Fin 16) (rm : Fin 8) (m : Fin 16) : Statement (.vdiv d a b rm m) :=
  of_lay 0x37 [(7, 4), (11, 4), (15, 4), (48, 3), (19, 4)] [(23, 1, 0), (24, 8, 0), (32, 16, 0), (51, 13, 0)] [d.val, a.val, b.val, rm.val, m.val] raw55 rfl (by decide)
    ⟨d.isLt, a.isLt, b.isLt, rm.isLt, m.isLt, trivial⟩ fun w ⟨g0, g1, g2, g3, _⟩ ⟨h0, h1, h2, h3, h4, _⟩ => by
      simp [decVmath, needZero, g0, g1, g2, g3, fnum_of h0, fnum_of h1, fnum_of h2, fnum_of h3, fnum_of h4]
theorem vrem (d a b m : Fin 16) : Statement (.vrem d a b m) :=
  of_lay 0x1000037 [(7, 4), (11, 4), (15, 4), (19, 4)] [(23, 1, 0), (24, 8, 1), (32, 32, 0)] [d.val, a.val, b.val, m.val] raw55 rfl (by decide)
    ⟨d.isLt, a.isLt, b.isLt, m.isLt, trivial⟩ fun w ⟨g0, g1, g2, _⟩ ⟨h0, h1, h2, h3, _⟩ => by
      simp [decVmath, needZero, g0, g1, g2, fnum_of h0, fnum_of h1, fnum_of h2, fnum_of h3]
theorem vsqrt (d a : Fin 16) (rm : Fin 8) (m : Fin 16) : Statement (.vsqrt d a rm m) :=
  of_lay 0x2000037 [(7, 4), (11, 4), (48, 3), (19, 4)] [(15, 4, 0), (23, 1, 0), (24, 8, 2), (32, 16, 0), (51, 13, 0)] [d.val, a.val, rm.val, m.val] raw55 rfl (by decide)
    ⟨d.isLt, a.isLt, rm.isLt, m.isLt, trivial⟩ fun w ⟨g0, g1, g2, g3, g4, _⟩ ⟨h0, h1, h2, h3, _⟩ => by
      simp [decVmath, needZero, g0, g1, g2, g3, g4, fnum_of h0, fnum_of h1, fnum_of h2, fnum_of h3]
theorem vrsqrte (d a m : Fin 16) : Statement (.vrsqrte d a m) :=
  of_lay 0x3000037 [(7, 4), (11, 4), (19, 4)] [(15, 4, 0), (23, 1, 0), (24, 8, 3), (32, 32, 0)] [d.val, a.val, m.val] raw55 rfl (by decide)
    ⟨d.isLt, a.isLt, m.isLt, trivial⟩ fun w ⟨g0, g1, g2, g3, _⟩ ⟨h0, h1, h2, _⟩ => by
      simp [decVmath, needZero, g0, g1, g2, g3, fnum_of h0, fnum_of h1, fnum_of h2]
theorem vexp2e (d a m : Fin 16) : Statement (.vexp2e d a m) :=
  of_lay 0x4000037 [(7, 4), (11, 4), (19, 4)] [(15, 4, 0), (23, 1, 0), (24, 8, 4), (32, 32, 0)] [d.val, a.val, m.val] raw55 rfl (by decide)
    ⟨d.isLt, a.isLt, m.isLt, trivial⟩ fun w ⟨g0, g1, g2, g3, _⟩ ⟨h0, h1, h2, _⟩ => by
      simp [decVmath, needZero, g0, g1, g2, g3, fnum_of h0, fnum_of h1, fnum_of h2]
theorem vpick (d a b m : Fin 16) : Statement (.vpick d a b m) :=
  of_lay 0x38 [(7, 4), (11, 4), (15, 4), (19, 4)] [(23, 1, 0), (24, 8, 0)] [d.val, a.val, b.val, m.val] raw56 rfl (by decide)
    ⟨d.isLt, a.isLt, b.isLt, m.isLt, trivial⟩ fun w ⟨g0, g1, _⟩ ⟨h0, h1, h2, h3, _⟩ => by
      simp [decVperm, needZero, g0, g1, fnum_of h0, fnum_of h1, fnum_of h2, fnum_of h3]
theorem vpack (d a m : Fin 16) : Statement (.vpack d a m) :=
  of_lay 0x1000038 [(7, 4), (11, 4), (19, 4)] [(15, 4, 0), (23, 1, 0), (24, 8, 1)] [d.val, a.val, m.val] raw56 rfl (by decide)
    ⟨d.isLt, a.isLt, m.isLt, trivial⟩ fun w ⟨g0, g1, g2, _⟩ ⟨h0, h1, h2, _⟩ => by
      simp [decVperm, needZero, g0, g1, g2, fnum_of h0, fnum_of h1, fnum_of h2]
theorem vspread (d a m : Fin 16) : Statement (.vspread d a m) :=
  of_lay 0x2000038 [(7, 4), (11, 4), (19, 4)] [(15, 4, 0), (23, 1, 0), (24, 8, 2)] [d.val, a.val, m.val] raw56 rfl (by decide)
    ⟨d.isLt, a.isLt, m.isLt, trivial⟩ fun w ⟨g0, g1, g2, _⟩ ⟨h0, h1, h2, _⟩ => by
      simp [decVperm, needZero, g0, g1, g2, fnum_of h0, fnum_of h1, fnum_of h2]
theorem vmovup (d a x m : Fin 16) : Statement (.vmovup d a x m) :=
  of_lay 0x8000038 [(7, 4), (11, 4), (15, 4), (19, 4)] [(23, 1, 0), (24, 8, 8)] [d.val, a.val, x.val, m.val] raw56 rfl (by decide)
    ⟨d.isLt, a.isLt, x.isLt, m.isLt, trivial⟩ fun w ⟨g0, g1, _⟩ ⟨h0, h1, h2, h3, _⟩ => by
      simp [decVperm, needZero, g0, g1, fnum_of h0, fnum_of h1, fnum_of h2, fnum_of h3]
theorem vmovdn (d a x m : Fin 16) : Statement (.vmovdn d a x m) :=
  of_lay 0x9000038 [(7, 4), (11, 4), (15, 4), (19, 4)] [(23, 1, 0), (24, 8, 9)] [d.val, a.val, x.val, m.val] raw56 rfl (by decide)
    ⟨d.isLt, a.isLt, x.isLt, m.isLt, trivial⟩ fun w ⟨g0, g1, _⟩ ⟨h0, h1, h2, h3, _⟩ => by
      simp [decVperm, needZero, g0, g1, fnum_of h0, fnum_of h1, fnum_of h2, fnum_of h3]
theorem vpushlo (d a x m : Fin 16) : Statement (.vpushlo d a x m) :=
  of_lay 0xa000038 [(7, 4), (11, 4), (15, 4), (19, 4)] [(23, 1, 0), (24, 8, 10)] [d.val, a.val, x.val, m.val] raw56 rfl (by decide)
    ⟨d.isLt, a.isLt, x.isLt, m.isLt, trivial⟩ fun w ⟨g0, g1, _⟩ ⟨h0, h1, h2, h3, _⟩ => by
      simp [decVperm, needZero, g0, g1, fnum_of h0, fnum_of h1, fnum_of h2, fnum_of h3]
theorem vpushhi (d a x m : Fin 16) : Statement (.vpushhi d a x m) :=
  of_lay 0xb000038 [(7, 4), (11, 4), (15, 4), (19, 4)] [(23, 1, 0), (24, 8, 11)] [d.val, a.val, x.val, m.val] raw56 rfl (by decide)
    ⟨d.isLt, a.isLt, x.isLt, m.isLt, trivial⟩ fun w ⟨g0, g1, _⟩ ⟨h0, h1, h2, h3, _⟩ => by
      simp [decVperm, needZero, g0, g1, fnum_of h0, fnum_of h1, fnum_of h2, fnum_of h3]
theorem vtotal (d a m : Fin 16) : Statement (.vtotal d a m) :=
  of_lay 0x39 [(7, 4), (11, 4), (19, 4)] [(15, 4, 0), (23, 1, 0), (24, 8, 0)] [d.val, a.val, m.val] raw57 rfl (by decide)
    ⟨d.isLt, a.isLt, m.isLt, trivial⟩ fun w ⟨g0, g1, g2, _⟩ ⟨h0, h1, h2, _⟩ => by
      simp [decVred, needZero, g0, g1, g2, fnum_of h0, fnum_of h1, fnum_of h2]
theorem vtotalSeq (d a m : Fin 16) : Statement (.vtotalSeq d a m) :=
  of_lay 0x1000039 [(7, 4), (11, 4), (19, 4)] [(15, 4, 0), (23, 1, 0), (24, 8, 1)] [d.val, a.val, m.val] raw57 rfl (by decide)
    ⟨d.isLt, a.isLt, m.isLt, trivial⟩ fun w ⟨g0, g1, g2, _⟩ ⟨h0, h1, h2, _⟩ => by
      simp [decVred, needZero, g0, g1, g2, fnum_of h0, fnum_of h1, fnum_of h2]
theorem vleast (d a m : Fin 16) : Statement (.vleast d a m) :=
  of_lay 0x2000039 [(7, 4), (11, 4), (19, 4)] [(15, 4, 0), (23, 1, 0), (24, 8, 2)] [d.val, a.val, m.val] raw57 rfl (by decide)
    ⟨d.isLt, a.isLt, m.isLt, trivial⟩ fun w ⟨g0, g1, g2, _⟩ ⟨h0, h1, h2, _⟩ => by
      simp [decVred, needZero, g0, g1, g2, fnum_of h0, fnum_of h1, fnum_of h2]
theorem vmost (d a m : Fin 16) : Statement (.vmost d a m) :=
  of_lay 0x3000039 [(7, 4), (11, 4), (19, 4)] [(15, 4, 0), (23, 1, 0), (24, 8, 3)] [d.val, a.val, m.val] raw57 rfl (by decide)
    ⟨d.isLt, a.isLt, m.isLt, trivial⟩ fun w ⟨g0, g1, g2, _⟩ ⟨h0, h1, h2, _⟩ => by
      simp [decVred, needZero, g0, g1, g2, fnum_of h0, fnum_of h1, fnum_of h2]
theorem vband (d a m : Fin 16) : Statement (.vband d a m) :=
  of_lay 0x4000039 [(7, 4), (11, 4), (19, 4)] [(15, 4, 0), (23, 1, 0), (24, 8, 4)] [d.val, a.val, m.val] raw57 rfl (by decide)
    ⟨d.isLt, a.isLt, m.isLt, trivial⟩ fun w ⟨g0, g1, g2, _⟩ ⟨h0, h1, h2, _⟩ => by
      simp [decVred, needZero, g0, g1, g2, fnum_of h0, fnum_of h1, fnum_of h2]
theorem vbor (d a m : Fin 16) : Statement (.vbor d a m) :=
  of_lay 0x5000039 [(7, 4), (11, 4), (19, 4)] [(15, 4, 0), (23, 1, 0), (24, 8, 5)] [d.val, a.val, m.val] raw57 rfl (by decide)
    ⟨d.isLt, a.isLt, m.isLt, trivial⟩ fun w ⟨g0, g1, g2, _⟩ ⟨h0, h1, h2, _⟩ => by
      simp [decVred, needZero, g0, g1, g2, fnum_of h0, fnum_of h1, fnum_of h2]
theorem vbxor (d a m : Fin 16) : Statement (.vbxor d a m) :=
  of_lay 0x6000039 [(7, 4), (11, 4), (19, 4)] [(15, 4, 0), (23, 1, 0), (24, 8, 6)] [d.val, a.val, m.val] raw57 rfl (by decide)
    ⟨d.isLt, a.isLt, m.isLt, trivial⟩ fun w ⟨g0, g1, g2, _⟩ ⟨h0, h1, h2, _⟩ => by
      simp [decVred, needZero, g0, g1, g2, fnum_of h0, fnum_of h1, fnum_of h2]
theorem vtotalMX (d a b m : Fin 16) : Statement (.vtotalMX d a b m) :=
  of_lay 0x8000039 [(7, 4), (11, 4), (15, 4), (19, 4)] [(23, 1, 0), (24, 8, 8)] [d.val, a.val, b.val, m.val] raw57 rfl (by decide)
    ⟨d.isLt, a.isLt, b.isLt, m.isLt, trivial⟩ fun w ⟨g0, g1, _⟩ ⟨h0, h1, h2, h3, _⟩ => by
      simp [decVred, needZero, g0, g1, fnum_of h0, fnum_of h1, fnum_of h2, fnum_of h3]
theorem mkand (d a b : Fin 16) : Statement (.mkand d a b) :=
  of_lay 0x3a [(7, 4), (11, 4), (15, 4)] [(19, 5, 0), (24, 8, 0)] [d.val, a.val, b.val] raw58 rfl (by decide)
    ⟨d.isLt, a.isLt, b.isLt, trivial⟩ fun w ⟨g0, g1, _⟩ ⟨h0, h1, h2, _⟩ => by
      simp [decVmask, needZero, g0, g1, fnum_of h0, fnum_of h1, fnum_of h2]
theorem mkor (d a b : Fin 16) : Statement (.mkor d a b) :=
  of_lay 0x100003a [(7, 4), (11, 4), (15, 4)] [(19, 5, 0), (24, 8, 1)] [d.val, a.val, b.val] raw58 rfl (by decide)
    ⟨d.isLt, a.isLt, b.isLt, trivial⟩ fun w ⟨g0, g1, _⟩ ⟨h0, h1, h2, _⟩ => by
      simp [decVmask, needZero, g0, g1, fnum_of h0, fnum_of h1, fnum_of h2]
theorem mkxor (d a b : Fin 16) : Statement (.mkxor d a b) :=
  of_lay 0x200003a [(7, 4), (11, 4), (15, 4)] [(19, 5, 0), (24, 8, 2)] [d.val, a.val, b.val] raw58 rfl (by decide)
    ⟨d.isLt, a.isLt, b.isLt, trivial⟩ fun w ⟨g0, g1, _⟩ ⟨h0, h1, h2, _⟩ => by
      simp [decVmask, needZero, g0, g1, fnum_of h0, fnum_of h1, fnum_of h2]
theorem mkandn (d a b : Fin 16) : Statement (.mkandn d a b) :=
  of_lay 0x300003a [(7, 4), (11, 4), (15, 4)] [(19, 5, 0), (24, 8, 3)] [d.val, a.val, b.val] raw58 rfl (by decide)
    ⟨d.isLt, a.isLt, b.isLt, trivial⟩ fun w ⟨g0, g1, _⟩ ⟨h0, h1, h2, _⟩ => by
      simp [decVmask, needZero, g0, g1, fnum_of h0, fnum_of h1, fnum_of h2]
theorem mknot (d a : Fin 16) : Statement (.mknot d a) :=
  of_lay 0x400003a [(7, 4), (11, 4)] [(15, 9, 0), (24, 8, 4)] [d.val, a.val] raw58 rfl (by decide)
    ⟨d.isLt, a.isLt, trivial⟩ fun w ⟨g0, g1, _⟩ ⟨h0, h1, _⟩ => by
      simp [decVmask, needZero, g0, g1, fnum_of h0, fnum_of h1]
theorem mkbelow (d a : Fin 16) : Statement (.mkbelow d a) :=
  of_lay 0x800003a [(7, 4), (11, 4)] [(15, 9, 0), (24, 8, 8)] [d.val, a.val] raw58 rfl (by decide)
    ⟨d.isLt, a.isLt, trivial⟩ fun w ⟨g0, g1, _⟩ ⟨h0, h1, _⟩ => by
      simp [decVmask, needZero, g0, g1, fnum_of h0, fnum_of h1]
theorem mkupto (d a : Fin 16) : Statement (.mkupto d a) :=
  of_lay 0x900003a [(7, 4), (11, 4)] [(15, 9, 0), (24, 8, 9)] [d.val, a.val] raw58 rfl (by decide)
    ⟨d.isLt, a.isLt, trivial⟩ fun w ⟨g0, g1, _⟩ ⟨h0, h1, _⟩ => by
      simp [decVmask, needZero, g0, g1, fnum_of h0, fnum_of h1]
theorem mkfirst (d a : Fin 16) : Statement (.mkfirst d a) :=
  of_lay 0xa00003a [(7, 4), (11, 4)] [(15, 9, 0), (24, 8, 10)] [d.val, a.val] raw58 rfl (by decide)
    ⟨d.isLt, a.isLt, trivial⟩ fun w ⟨g0, g1, _⟩ ⟨h0, h1, _⟩ => by
      simp [decVmask, needZero, g0, g1, fnum_of h0, fnum_of h1]
theorem vlut (d a b : Fin 16) (i : BitVec 8) (m : Fin 16) : Statement (.vlut d a b i m) :=
  of_lay 0x3b [(7, 4), (11, 4), (15, 4), (56, 8), (19, 4)] [(23, 1, 0), (24, 8, 0), (32, 24, 0)] [d.val, a.val, b.val, i.toNat, m.val] raw59 rfl (by decide)
    ⟨d.isLt, a.isLt, b.isLt, i.isLt, m.isLt, trivial⟩ fun w ⟨g0, g1, g2, _⟩ ⟨h0, h1, h2, h3, h4, _⟩ => by
      simp [decVtab, needZero, g0, g1, g2, fnum_of h0, fnum_of h1, fnum_of h2, fbv_of h3, fnum_of h4]
theorem vhad (d a : Fin 16) (i : BitVec 8) (p : Fin 16) (rm : Fin 8) (sat : Bool) (m : Fin 16) : Statement (.vhad d a i p rm sat m) :=
  of_lay 0x100003b [(7, 4), (11, 4), (56, 8), (43, 4), (48, 3), (47, 1), (19, 4)] [(15, 4, 0), (23, 1, 0), (24, 8, 1), (32, 11, 0), (51, 5, 0)] [d.val, a.val, i.toNat, p.val, rm.val, bnat sat, m.val] raw59 rfl (by decide)
    ⟨d.isLt, a.isLt, i.isLt, p.isLt, rm.isLt, bnat_lt sat, m.isLt, trivial⟩ fun w ⟨g0, g1, g2, g3, g4, _⟩ ⟨h0, h1, h2, h3, h4, h5, h6, _⟩ => by
      simp [decVtab, needZero, g0, g1, g2, g3, g4, fnum_of h0, fnum_of h1, fbv_of h2, fnum_of h3, fnum_of h4, fbit_of h5, fnum_of h6]
theorem vpcfg (d a b : Fin 16) (sgn : Bool) : Statement (.vpcfg d a b sgn) :=
  of_lay 0x3c [(7, 4), (11, 4), (15, 4), (19, 1)] [(20, 4, 0), (24, 8, 0)] [d.val, a.val, b.val, bnat sgn] raw60 rfl (by decide)
    ⟨d.isLt, a.isLt, b.isLt, bnat_lt sgn, trivial⟩ fun w ⟨g0, g1, _⟩ ⟨h0, h1, h2, h3, _⟩ => by
      simp [decVplane, needZero, g0, g1, fnum_of h0, fnum_of h1, fnum_of h2, fbit_of h3]
theorem vpadd (d a b m : Fin 16) : Statement (.vpadd d a b m) :=
  of_lay 0x100003c [(7, 4), (11, 4), (15, 4), (19, 4)] [(23, 1, 0), (24, 8, 1)] [d.val, a.val, b.val, m.val] raw60 rfl (by decide)
    ⟨d.isLt, a.isLt, b.isLt, m.isLt, trivial⟩ fun w ⟨g0, g1, _⟩ ⟨h0, h1, h2, h3, _⟩ => by
      simp [decVplane, needZero, g0, g1, fnum_of h0, fnum_of h1, fnum_of h2, fnum_of h3]
theorem vpsub (d a b m : Fin 16) : Statement (.vpsub d a b m) :=
  of_lay 0x200003c [(7, 4), (11, 4), (15, 4), (19, 4)] [(23, 1, 0), (24, 8, 2)] [d.val, a.val, b.val, m.val] raw60 rfl (by decide)
    ⟨d.isLt, a.isLt, b.isLt, m.isLt, trivial⟩ fun w ⟨g0, g1, _⟩ ⟨h0, h1, h2, h3, _⟩ => by
      simp [decVplane, needZero, g0, g1, fnum_of h0, fnum_of h1, fnum_of h2, fnum_of h3]
theorem vpmul (d a b m : Fin 16) : Statement (.vpmul d a b m) :=
  of_lay 0x300003c [(7, 4), (11, 4), (15, 4), (19, 4)] [(23, 1, 0), (24, 8, 3)] [d.val, a.val, b.val, m.val] raw60 rfl (by decide)
    ⟨d.isLt, a.isLt, b.isLt, m.isLt, trivial⟩ fun w ⟨g0, g1, _⟩ ⟨h0, h1, h2, h3, _⟩ => by
      simp [decVplane, needZero, g0, g1, fnum_of h0, fnum_of h1, fnum_of h2, fnum_of h3]
theorem vpcmpEq (d a b m : Fin 16) : Statement (.vpcmpEq d a b m) :=
  of_lay 0x400003c [(7, 4), (11, 4), (15, 4), (19, 4)] [(23, 1, 0), (24, 8, 4)] [d.val, a.val, b.val, m.val] raw60 rfl (by decide)
    ⟨d.isLt, a.isLt, b.isLt, m.isLt, trivial⟩ fun w ⟨g0, g1, _⟩ ⟨h0, h1, h2, h3, _⟩ => by
      simp [decVplane, needZero, g0, g1, fnum_of h0, fnum_of h1, fnum_of h2, fnum_of h3]
theorem vpcmpNe (d a b m : Fin 16) : Statement (.vpcmpNe d a b m) :=
  of_lay 0x500003c [(7, 4), (11, 4), (15, 4), (19, 4)] [(23, 1, 0), (24, 8, 5)] [d.val, a.val, b.val, m.val] raw60 rfl (by decide)
    ⟨d.isLt, a.isLt, b.isLt, m.isLt, trivial⟩ fun w ⟨g0, g1, _⟩ ⟨h0, h1, h2, h3, _⟩ => by
      simp [decVplane, needZero, g0, g1, fnum_of h0, fnum_of h1, fnum_of h2, fnum_of h3]
theorem vpcmpLt (d a b m : Fin 16) : Statement (.vpcmpLt d a b m) :=
  of_lay 0x600003c [(7, 4), (11, 4), (15, 4), (19, 4)] [(23, 1, 0), (24, 8, 6)] [d.val, a.val, b.val, m.val] raw60 rfl (by decide)
    ⟨d.isLt, a.isLt, b.isLt, m.isLt, trivial⟩ fun w ⟨g0, g1, _⟩ ⟨h0, h1, h2, h3, _⟩ => by
      simp [decVplane, needZero, g0, g1, fnum_of h0, fnum_of h1, fnum_of h2, fnum_of h3]
theorem vpcmpLe (d a b m : Fin 16) : Statement (.vpcmpLe d a b m) :=
  of_lay 0x700003c [(7, 4), (11, 4), (15, 4), (19, 4)] [(23, 1, 0), (24, 8, 7)] [d.val, a.val, b.val, m.val] raw60 rfl (by decide)
    ⟨d.isLt, a.isLt, b.isLt, m.isLt, trivial⟩ fun w ⟨g0, g1, _⟩ ⟨h0, h1, h2, h3, _⟩ => by
      simp [decVplane, needZero, g0, g1, fnum_of h0, fnum_of h1, fnum_of h2, fnum_of h3]
theorem vpcmpGt (d a b m : Fin 16) : Statement (.vpcmpGt d a b m) :=
  of_lay 0x800003c [(7, 4), (11, 4), (15, 4), (19, 4)] [(23, 1, 0), (24, 8, 8)] [d.val, a.val, b.val, m.val] raw60 rfl (by decide)
    ⟨d.isLt, a.isLt, b.isLt, m.isLt, trivial⟩ fun w ⟨g0, g1, _⟩ ⟨h0, h1, h2, h3, _⟩ => by
      simp [decVplane, needZero, g0, g1, fnum_of h0, fnum_of h1, fnum_of h2, fnum_of h3]
theorem vpcmpGe (d a b m : Fin 16) : Statement (.vpcmpGe d a b m) :=
  of_lay 0x900003c [(7, 4), (11, 4), (15, 4), (19, 4)] [(23, 1, 0), (24, 8, 9)] [d.val, a.val, b.val, m.val] raw60 rfl (by decide)
    ⟨d.isLt, a.isLt, b.isLt, m.isLt, trivial⟩ fun w ⟨g0, g1, _⟩ ⟨h0, h1, h2, h3, _⟩ => by
      simp [decVplane, needZero, g0, g1, fnum_of h0, fnum_of h1, fnum_of h2, fnum_of h3]
theorem vpsll (d a c m : Fin 16) : Statement (.vpsll d a c m) :=
  of_lay 0xa00003c [(7, 4), (11, 4), (15, 4), (19, 4)] [(23, 1, 0), (24, 8, 10)] [d.val, a.val, c.val, m.val] raw60 rfl (by decide)
    ⟨d.isLt, a.isLt, c.isLt, m.isLt, trivial⟩ fun w ⟨g0, g1, _⟩ ⟨h0, h1, h2, h3, _⟩ => by
      simp [decVplane, needZero, g0, g1, fnum_of h0, fnum_of h1, fnum_of h2, fnum_of h3]
theorem vpsrl (d a c m : Fin 16) : Statement (.vpsrl d a c m) :=
  of_lay 0xb00003c [(7, 4), (11, 4), (15, 4), (19, 4)] [(23, 1, 0), (24, 8, 11)] [d.val, a.val, c.val, m.val] raw60 rfl (by decide)
    ⟨d.isLt, a.isLt, c.isLt, m.isLt, trivial⟩ fun w ⟨g0, g1, _⟩ ⟨h0, h1, h2, h3, _⟩ => by
      simp [decVplane, needZero, g0, g1, fnum_of h0, fnum_of h1, fnum_of h2, fnum_of h3]
theorem vpsra (d a c m : Fin 16) : Statement (.vpsra d a c m) :=
  of_lay 0xc00003c [(7, 4), (11, 4), (15, 4), (19, 4)] [(23, 1, 0), (24, 8, 12)] [d.val, a.val, c.val, m.val] raw60 rfl (by decide)
    ⟨d.isLt, a.isLt, c.isLt, m.isLt, trivial⟩ fun w ⟨g0, g1, _⟩ ⟨h0, h1, h2, h3, _⟩ => by
      simp [decVplane, needZero, g0, g1, fnum_of h0, fnum_of h1, fnum_of h2, fnum_of h3]
theorem vpcnt (d a m : Fin 16) : Statement (.vpcnt d a m) :=
  of_lay 0xd00003c [(7, 4), (11, 4), (19, 4)] [(15, 4, 0), (23, 1, 0), (24, 8, 13)] [d.val, a.val, m.val] raw60 rfl (by decide)
    ⟨d.isLt, a.isLt, m.isLt, trivial⟩ fun w ⟨g0, g1, g2, _⟩ ⟨h0, h1, h2, _⟩ => by
      simp [decVplane, needZero, g0, g1, g2, fnum_of h0, fnum_of h1, fnum_of h2]
theorem vtrp (d a p m : Fin 16) : Statement (.vtrp d a p m) :=
  of_lay 0x1000003c [(7, 4), (11, 4), (15, 4), (19, 4)] [(23, 1, 0), (24, 8, 16)] [d.val, a.val, p.val, m.val] raw60 rfl (by decide)
    ⟨d.isLt, a.isLt, p.isLt, m.isLt, trivial⟩ fun w ⟨g0, g1, _⟩ ⟨h0, h1, h2, h3, _⟩ => by
      simp [decVplane, needZero, g0, g1, fnum_of h0, fnum_of h1, fnum_of h2, fnum_of h3]
theorem vtrw (d a p m : Fin 16) : Statement (.vtrw d a p m) :=
  of_lay 0x1100003c [(7, 4), (11, 4), (15, 4), (19, 4)] [(23, 1, 0), (24, 8, 17)] [d.val, a.val, p.val, m.val] raw60 rfl (by decide)
    ⟨d.isLt, a.isLt, p.isLt, m.isLt, trivial⟩ fun w ⟨g0, g1, _⟩ ⟨h0, h1, h2, h3, _⟩ => by
      simp [decVplane, needZero, g0, g1, fnum_of h0, fnum_of h1, fnum_of h2, fnum_of h3]
theorem mzero (t : Fin 4) : Statement (.mzero t) :=
  of_lay 0x40 [(7, 2)] [(9, 15, 0), (24, 8, 0)] [t.val] raw64 rfl (by decide)
    ⟨t.isLt, trivial⟩ fun w ⟨g0, g1, _⟩ ⟨h0, _⟩ => by
      simp [decMat, needZero, g0, g1, fnum_of h0]
theorem mopa (t : Fin 4) (a b m : Fin 16) (ck : Bool) : Statement (.mopa t a b m ck) :=
  of_lay 0x1000040 [(7, 2), (11, 4), (15, 4), (19, 4), (23, 1)] [(9, 2, 0), (24, 8, 1)] [t.val, a.val, b.val, m.val, bnat ck] raw64 rfl (by decide)
    ⟨t.isLt, a.isLt, b.isLt, m.isLt, bnat_lt ck, trivial⟩ fun w ⟨g0, g1, _⟩ ⟨h0, h1, h2, h3, h4, _⟩ => by
      simp [decMat, needZero, g0, g1, fnum_of h0, fnum_of h1, fnum_of h2, fnum_of h3, fbit_of h4]
theorem mops (t : Fin 4) (a b m : Fin 16) (ck : Bool) : Statement (.mops t a b m ck) :=
  of_lay 0x2000040 [(7, 2), (11, 4), (15, 4), (19, 4), (23, 1)] [(9, 2, 0), (24, 8, 2)] [t.val, a.val, b.val, m.val, bnat ck] raw64 rfl (by decide)
    ⟨t.isLt, a.isLt, b.isLt, m.isLt, bnat_lt ck, trivial⟩ fun w ⟨g0, g1, _⟩ ⟨h0, h1, h2, h3, h4, _⟩ => by
      simp [decMat, needZero, g0, g1, fnum_of h0, fnum_of h1, fnum_of h2, fnum_of h3, fbit_of h4]
theorem mopaMX (s : Fin 16) (t : Fin 4) (a b : Fin 16) : Statement (.mopaMX s t a b) :=
  of_lay 0x3000040 [(19, 4), (7, 2), (11, 4), (15, 4)] [(9, 2, 0), (23, 1, 0), (24, 8, 3)] [s.val, t.val, a.val, b.val] raw64 rfl (by decide)
    ⟨s.isLt, t.isLt, a.isLt, b.isLt, trivial⟩ fun w ⟨g0, g1, g2, _⟩ ⟨h0, h1, h2, h3, _⟩ => by
      simp [decMat, needZero, g0, g1, g2, fnum_of h0, fnum_of h1, fnum_of h2, fnum_of h3]
theorem mopsMX (s : Fin 16) (t : Fin 4) (a b : Fin 16) : Statement (.mopsMX s t a b) :=
  of_lay 0x4000040 [(19, 4), (7, 2), (11, 4), (15, 4)] [(9, 2, 0), (23, 1, 0), (24, 8, 4)] [s.val, t.val, a.val, b.val] raw64 rfl (by decide)
    ⟨s.isLt, t.isLt, a.isLt, b.isLt, trivial⟩ fun w ⟨g0, g1, g2, _⟩ ⟨h0, h1, h2, h3, _⟩ => by
      simp [decMat, needZero, g0, g1, g2, fnum_of h0, fnum_of h1, fnum_of h2, fnum_of h3]
theorem mld (t : Fin 4) (a b : Fin 16) : Statement (.mld t a b) :=
  of_lay 0x8000040 [(7, 2), (11, 4), (15, 4)] [(9, 2, 0), (19, 5, 0), (24, 8, 8)] [t.val, a.val, b.val] raw64 rfl (by decide)
    ⟨t.isLt, a.isLt, b.isLt, trivial⟩ fun w ⟨g0, g1, g2, _⟩ ⟨h0, h1, h2, _⟩ => by
      simp [decMat, needZero, g0, g1, g2, fnum_of h0, fnum_of h1, fnum_of h2]
theorem mldP (t : Fin 4) (a b : Fin 16) : Statement (.mldP t a b) :=
  of_lay 0x9000040 [(7, 2), (11, 4), (15, 4)] [(9, 2, 0), (19, 5, 0), (24, 8, 9)] [t.val, a.val, b.val] raw64 rfl (by decide)
    ⟨t.isLt, a.isLt, b.isLt, trivial⟩ fun w ⟨g0, g1, g2, _⟩ ⟨h0, h1, h2, _⟩ => by
      simp [decMat, needZero, g0, g1, g2, fnum_of h0, fnum_of h1, fnum_of h2]
theorem mst (t : Fin 4) (a b : Fin 16) : Statement (.mst t a b) :=
  of_lay 0xa000040 [(9, 2), (11, 4), (15, 4)] [(7, 2, 0), (19, 5, 0), (24, 8, 10)] [t.val, a.val, b.val] raw64 rfl (by decide)
    ⟨t.isLt, a.isLt, b.isLt, trivial⟩ fun w ⟨g0, g1, g2, _⟩ ⟨h0, h1, h2, _⟩ => by
      simp [decMat, needZero, g0, g1, g2, fnum_of h0, fnum_of h1, fnum_of h2]
theorem mstP (t : Fin 4) (a b : Fin 16) : Statement (.mstP t a b) :=
  of_lay 0xb000040 [(9, 2), (11, 4), (15, 4)] [(7, 2, 0), (19, 5, 0), (24, 8, 11)] [t.val, a.val, b.val] raw64 rfl (by decide)
    ⟨t.isLt, a.isLt, b.isLt, trivial⟩ fun w ⟨g0, g1, g2, _⟩ ⟨h0, h1, h2, _⟩ => by
      simp [decMat, needZero, g0, g1, g2, fnum_of h0, fnum_of h1, fnum_of h2]
theorem mscale (t : Fin 4) (a : Fin 16) : Statement (.mscale t a) :=
  of_lay 0x10000040 [(7, 2), (11, 4)] [(9, 2, 0), (15, 9, 0), (24, 8, 16)] [t.val, a.val] raw64 rfl (by decide)
    ⟨t.isLt, a.isLt, trivial⟩ fun w ⟨g0, g1, g2, _⟩ ⟨h0, h1, _⟩ => by
      simp [decMat, needZero, g0, g1, g2, fnum_of h0, fnum_of h1]
theorem mchk (t : Fin 4) : Statement (.mchk t) :=
  of_lay 0x11000040 [(7, 2)] [(9, 15, 0), (24, 8, 17)] [t.val] raw64 rfl (by decide)
    ⟨t.isLt, trivial⟩ fun w ⟨g0, g1, _⟩ ⟨h0, _⟩ => by
      simp [decMat, needZero, g0, g1, fnum_of h0]
theorem pexp (d a : Fin 16) (i : BitVec 8) (S : Fin 8) (m : Fin 16) : Statement (.pexp d a i S m) :=
  of_lay 0x43 [(7, 4), (11, 4), (56, 8), (53, 3), (19, 4)] [(15, 4, 0), (23, 1, 0), (24, 8, 0), (32, 21, 0)] [d.val, a.val, i.toNat, S.val, m.val] raw67 rfl (by decide)
    ⟨d.isLt, a.isLt, i.isLt, S.isLt, m.isLt, trivial⟩ fun w ⟨g0, g1, g2, g3, _⟩ ⟨h0, h1, h2, h3, h4, _⟩ => by
      simp [decPin, needZero, g0, g1, g2, g3, fnum_of h0, fnum_of h1, fbv_of h2, fnum_of h3, fnum_of h4]
theorem psplit (d a c : Fin 16) (i : BitVec 8) (S : Fin 8) (m : Fin 16) : Statement (.psplit d a c i S m) :=
  of_lay 0x1000043 [(7, 4), (11, 4), (44, 4), (56, 8), (53, 3), (19, 4)] [(15, 4, 0), (23, 1, 0), (24, 8, 1), (32, 12, 0), (48, 5, 0)] [d.val, a.val, c.val, i.toNat, S.val, m.val] raw67 rfl (by decide)
    ⟨d.isLt, a.isLt, c.isLt, i.isLt, S.isLt, m.isLt, trivial⟩ fun w ⟨g0, g1, g2, g3, g4, _⟩ ⟨h0, h1, h2, h3, h4, h5, _⟩ => by
      simp [decPin, needZero, g0, g1, g2, g3, g4, fnum_of h0, fnum_of h1, fnum_of h2, fbv_of h3, fnum_of h4, fnum_of h5]
theorem pmma (tp : Bool) (ti : Fin 4) (a b c e : Fin 16) (S : Fin 8) (full ck : Bool) (m : Fin 16) : Statement (.pmma tp ti a b c e S full ck m) :=
  of_lay 0x2000043 [(51, 1), (48, 2), (11, 4), (15, 4), (44, 4), (40, 4), (53, 3), (52, 1), (23, 1), (19, 4)] [(7, 4, 0), (24, 8, 2), (32, 8, 0), (50, 1, 0), (56, 8, 0)] [bnat tp, ti.val, a.val, b.val, c.val, e.val, S.val, bnat full, bnat ck, m.val] raw67 rfl (by decide)
    ⟨bnat_lt tp, ti.isLt, a.isLt, b.isLt, c.isLt, e.isLt, S.isLt, bnat_lt full, bnat_lt ck, m.isLt, trivial⟩ fun w ⟨g0, g1, g2, g3, g4, _⟩ ⟨h0, h1, h2, h3, h4, h5, h6, h7, h8, h9, _⟩ => by
      simp [decPin, needZero, g0, g1, g2, g3, g4, fbit_of h0, fnum_of h1, fnum_of h2, fnum_of h3, fnum_of h4, fnum_of h5, fnum_of h6, fbit_of h7, fbit_of h8, fnum_of h9]
theorem pfold (tp : Bool) (ti : Fin 4) (c e : Fin 16) (i : BitVec 8) : Statement (.pfold tp ti c e i) :=
  of_lay 0x3000043 [(51, 1), (48, 2), (44, 4), (40, 4), (56, 8)] [(7, 17, 0), (24, 8, 3), (32, 8, 0), (50, 1, 0), (52, 4, 0)] [bnat tp, ti.val, c.val, e.val, i.toNat] raw67 rfl (by decide)
    ⟨bnat_lt tp, ti.isLt, c.isLt, e.isLt, i.isLt, trivial⟩ fun w ⟨g0, g1, g2, g3, g4, _⟩ ⟨h0, h1, h2, h3, h4, _⟩ => by
      simp [decPin, needZero, g0, g1, g2, g3, g4, fbit_of h0, fnum_of h1, fnum_of h2, fnum_of h3, fbv_of h4]
theorem grot (d a : Fin 16) (n : BitVec 8) (m : Fin 16) : Statement (.grot d a n m) :=
  of_lay 0x50 [(7, 4), (11, 4), (15, 8), (23, 4)] [(27, 1, 0), (28, 4, 0)] [d.val, a.val, n.toNat, m.val] raw80 rfl (by decide)
    ⟨d.isLt, a.isLt, n.isLt, m.isLt, trivial⟩ fun w ⟨g0, g1, _⟩ ⟨h0, h1, h2, h3, _⟩ => by
      simp [decGal, needZero, g0, g1, fnum_of h0, fnum_of h1, fbv_of h2, fnum_of h3]
theorem gbcast (d a : Fin 16) (q : BitVec 8) (m : Fin 16) : Statement (.gbcast d a q m) :=
  of_lay 0x10000050 [(7, 4), (11, 4), (15, 8), (23, 4)] [(27, 1, 0), (28, 4, 1)] [d.val, a.val, q.toNat, m.val] raw80 rfl (by decide)
    ⟨d.isLt, a.isLt, q.isLt, m.isLt, trivial⟩ fun w ⟨g0, g1, _⟩ ⟨h0, h1, h2, h3, _⟩ => by
      simp [decGal, needZero, g0, g1, fnum_of h0, fnum_of h1, fbv_of h2, fnum_of h3]
theorem gperm (d a : Fin 16) (x : Fin 32) (m : Fin 16) : Statement (.gperm d a x m) :=
  of_lay 0x20000050 [(7, 4), (11, 4), (15, 5), (23, 4)] [(20, 3, 0), (27, 1, 0), (28, 4, 2)] [d.val, a.val, x.val, m.val] raw80 rfl (by decide)
    ⟨d.isLt, a.isLt, x.isLt, m.isLt, trivial⟩ fun w ⟨g0, g1, g2, _⟩ ⟨h0, h1, h2, h3, _⟩ => by
      simp [decGal, needZero, g0, g1, g2, fnum_of h0, fnum_of h1, fnum_of h2, fnum_of h3]
theorem gxch (d a : Fin 16) (n : BitVec 8) (m : Fin 16) : Statement (.gxch d a n m) :=
  of_lay 0x30000050 [(7, 4), (11, 4), (15, 8), (23, 4)] [(27, 1, 0), (28, 4, 3)] [d.val, a.val, n.toNat, m.val] raw80 rfl (by decide)
    ⟨d.isLt, a.isLt, n.isLt, m.isLt, trivial⟩ fun w ⟨g0, g1, _⟩ ⟨h0, h1, h2, h3, _⟩ => by
      simp [decGal, needZero, g0, g1, fnum_of h0, fnum_of h1, fbv_of h2, fnum_of h3]
theorem gredSum (d a m : Fin 16) : Statement (.gredSum d a m) :=
  of_lay 0x40000050 [(7, 4), (11, 4), (23, 4)] [(15, 8, 0), (27, 1, 0), (28, 4, 4)] [d.val, a.val, m.val] raw80 rfl (by decide)
    ⟨d.isLt, a.isLt, m.isLt, trivial⟩ fun w ⟨g0, g1, g2, _⟩ ⟨h0, h1, h2, _⟩ => by
      simp [decGal, needZero, g0, g1, g2, fnum_of h0, fnum_of h1, fnum_of h2]
theorem gredMin (d a m : Fin 16) : Statement (.gredMin d a m) :=
  of_lay 0x40008050 [(7, 4), (11, 4), (23, 4)] [(15, 8, 1), (27, 1, 0), (28, 4, 4)] [d.val, a.val, m.val] raw80 rfl (by decide)
    ⟨d.isLt, a.isLt, m.isLt, trivial⟩ fun w ⟨g0, g1, g2, _⟩ ⟨h0, h1, h2, _⟩ => by
      simp [decGal, needZero, g0, g1, g2, fnum_of h0, fnum_of h1, fnum_of h2]
theorem gredMax (d a m : Fin 16) : Statement (.gredMax d a m) :=
  of_lay 0x40010050 [(7, 4), (11, 4), (23, 4)] [(15, 8, 2), (27, 1, 0), (28, 4, 4)] [d.val, a.val, m.val] raw80 rfl (by decide)
    ⟨d.isLt, a.isLt, m.isLt, trivial⟩ fun w ⟨g0, g1, g2, _⟩ ⟨h0, h1, h2, _⟩ => by
      simp [decGal, needZero, g0, g1, g2, fnum_of h0, fnum_of h1, fnum_of h2]
theorem gredAnd (d a m : Fin 16) : Statement (.gredAnd d a m) :=
  of_lay 0x40018050 [(7, 4), (11, 4), (23, 4)] [(15, 8, 3), (27, 1, 0), (28, 4, 4)] [d.val, a.val, m.val] raw80 rfl (by decide)
    ⟨d.isLt, a.isLt, m.isLt, trivial⟩ fun w ⟨g0, g1, g2, _⟩ ⟨h0, h1, h2, _⟩ => by
      simp [decGal, needZero, g0, g1, g2, fnum_of h0, fnum_of h1, fnum_of h2]
theorem gredOr (d a m : Fin 16) : Statement (.gredOr d a m) :=
  of_lay 0x40020050 [(7, 4), (11, 4), (23, 4)] [(15, 8, 4), (27, 1, 0), (28, 4, 4)] [d.val, a.val, m.val] raw80 rfl (by decide)
    ⟨d.isLt, a.isLt, m.isLt, trivial⟩ fun w ⟨g0, g1, g2, _⟩ ⟨h0, h1, h2, _⟩ => by
      simp [decGal, needZero, g0, g1, g2, fnum_of h0, fnum_of h1, fnum_of h2]
theorem gredXor (d a m : Fin 16) : Statement (.gredXor d a m) :=
  of_lay 0x40028050 [(7, 4), (11, 4), (23, 4)] [(15, 8, 5), (27, 1, 0), (28, 4, 4)] [d.val, a.val, m.val] raw80 rfl (by decide)
    ⟨d.isLt, a.isLt, m.isLt, trivial⟩ fun w ⟨g0, g1, g2, _⟩ ⟨h0, h1, h2, _⟩ => by
      simp [decGal, needZero, g0, g1, g2, fnum_of h0, fnum_of h1, fnum_of h2]
theorem cwb (a b : Fin 64) : Statement (.cwb a b) :=
  of_lay 0x51 [(13, 6), (19, 6)] [(7, 6, 0), (25, 7, 0)] [a.val, b.val] raw81 rfl (by decide)
    ⟨a.isLt, b.isLt, trivial⟩ fun w ⟨g0, g1, _⟩ ⟨h0, h1, _⟩ => by
      simp [decCmaint, needZero, g0, g1, fnum_of h0, fnum_of h1]
theorem cwbi (a b : Fin 64) : Statement (.cwbi a b) :=
  of_lay 0x2000051 [(13, 6), (19, 6)] [(7, 6, 0), (25, 7, 1)] [a.val, b.val] raw81 rfl (by decide)
    ⟨a.isLt, b.isLt, trivial⟩ fun w ⟨g0, g1, _⟩ ⟨h0, h1, _⟩ => by
      simp [decCmaint, needZero, g0, g1, fnum_of h0, fnum_of h1]
theorem cinv (a b : Fin 64) : Statement (.cinv a b) :=
  of_lay 0x4000051 [(13, 6), (19, 6)] [(7, 6, 0), (25, 7, 2)] [a.val, b.val] raw81 rfl (by decide)
    ⟨a.isLt, b.isLt, trivial⟩ fun w ⟨g0, g1, _⟩ ⟨h0, h1, _⟩ => by
      simp [decCmaint, needZero, g0, g1, fnum_of h0, fnum_of h1]
theorem farLd (d : Fin 16) (x : Fin 32) (off : BitVec 20) (esz ord : Fin 4) (sc : Fin 8) (m : Fin 16) : Statement (.farLd d x off esz ord sc m) :=
  of_lay 0x53 [(7, 4), (59, 5), (32, 20), (52, 2), (54, 2), (56, 3), (19, 4)] [(11, 8, 0), (23, 1, 0), (24, 8, 0)] [d.val, x.val, off.toNat, esz.val, ord.val, sc.val, m.val] raw83 rfl (by decide)
    ⟨d.isLt, x.isLt, off.isLt, esz.isLt, ord.isLt, sc.isLt, m.isLt, trivial⟩ fun w ⟨g0, g1, g2, _⟩ ⟨h0, h1, h2, h3, h4, h5, h6, _⟩ => by
      simp [decFar, needZero, g0, g1, g2, fnum_of h0, fnum_of h1, fbv_of h2, fnum_of h3, fnum_of h4, fnum_of h5, fnum_of h6]
theorem farSt (a : Fin 16) (x : Fin 32) (off : BitVec 20) (esz ord : Fin 4) (sc : Fin 8) (nr : Bool) (m : Fin 16) : Statement (.farSt a x off esz ord sc nr m) :=
  of_lay 0x1000053 [(11, 4), (59, 5), (32, 20), (52, 2), (54, 2), (56, 3), (23, 1), (19, 4)] [(7, 4, 0), (15, 4, 0), (24, 8, 1)] [a.val, x.val, off.toNat, esz.val, ord.val, sc.val, bnat nr, m.val] raw83 rfl (by decide)
    ⟨a.isLt, x.isLt, off.isLt, esz.isLt, ord.isLt, sc.isLt, bnat_lt nr, m.isLt, trivial⟩ fun w ⟨g0, g1, g2, _⟩ ⟨h0, h1, h2, h3, h4, h5, h6, h7, _⟩ => by
      simp [decFar, needZero, g0, g1, g2, fnum_of h0, fnum_of h1, fbv_of h2, fnum_of h3, fnum_of h4, fnum_of h5, fbit_of h6, fnum_of h7]
theorem farGather (d : Fin 16) (x : Fin 32) (off : BitVec 20) (b : Fin 16) (esz ord : Fin 4) (sc : Fin 8) (m : Fin 16) : Statement (.farGather d x off b esz ord sc m) :=
  of_lay 0x2000053 [(7, 4), (59, 5), (32, 20), (15, 4), (52, 2), (54, 2), (56, 3), (19, 4)] [(11, 4, 0), (23, 1, 0), (24, 8, 2)] [d.val, x.val, off.toNat, b.val, esz.val, ord.val, sc.val, m.val] raw83 rfl (by decide)
    ⟨d.isLt, x.isLt, off.isLt, b.isLt, esz.isLt, ord.isLt, sc.isLt, m.isLt, trivial⟩ fun w ⟨g0, g1, g2, _⟩ ⟨h0, h1, h2, h3, h4, h5, h6, h7, _⟩ => by
      simp [decFar, needZero, g0, g1, g2, fnum_of h0, fnum_of h1, fbv_of h2, fnum_of h3, fnum_of h4, fnum_of h5, fnum_of h6, fnum_of h7]
theorem farScatter (a : Fin 16) (x : Fin 32) (off : BitVec 20) (b : Fin 16) (esz ord : Fin 4) (sc : Fin 8) (nr : Bool) (m : Fin 16) : Statement (.farScatter a x off b esz ord sc nr m) :=
  of_lay 0x3000053 [(11, 4), (59, 5), (32, 20), (15, 4), (52, 2), (54, 2), (56, 3), (23, 1), (19, 4)] [(7, 4, 0), (24, 8, 3)] [a.val, x.val, off.toNat, b.val, esz.val, ord.val, sc.val, bnat nr, m.val] raw83 rfl (by decide)
    ⟨a.isLt, x.isLt, off.isLt, b.isLt, esz.isLt, ord.isLt, sc.isLt, bnat_lt nr, m.isLt, trivial⟩ fun w ⟨g0, g1, _⟩ ⟨h0, h1, h2, h3, h4, h5, h6, h7, h8, _⟩ => by
      simp [decFar, needZero, g0, g1, fnum_of h0, fnum_of h1, fbv_of h2, fnum_of h3, fnum_of h4, fnum_of h5, fnum_of h6, fbit_of h7, fnum_of h8]
theorem farScadd (a : Fin 16) (x : Fin 32) (off : BitVec 20) (b : Fin 16) (esz ord : Fin 4) (sc : Fin 8) (nr : Bool) (m : Fin 16) : Statement (.farScadd a x off b esz ord sc nr m) :=
  of_lay 0x4000053 [(11, 4), (59, 5), (32, 20), (15, 4), (52, 2), (54, 2), (56, 3), (23, 1), (19, 4)] [(7, 4, 0), (24, 8, 4)] [a.val, x.val, off.toNat, b.val, esz.val, ord.val, sc.val, bnat nr, m.val] raw83 rfl (by decide)
    ⟨a.isLt, x.isLt, off.isLt, b.isLt, esz.isLt, ord.isLt, sc.isLt, bnat_lt nr, m.isLt, trivial⟩ fun w ⟨g0, g1, _⟩ ⟨h0, h1, h2, h3, h4, h5, h6, h7, h8, _⟩ => by
      simp [decFar, needZero, g0, g1, fnum_of h0, fnum_of h1, fbv_of h2, fnum_of h3, fnum_of h4, fnum_of h5, fnum_of h6, fbit_of h7, fnum_of h8]
theorem farAdd (d a : Fin 16) (x : Fin 32) (off : BitVec 20) (b : Fin 16) (esz ord : Fin 4) (sc : Fin 8) (nr : Bool) (m : Fin 16) : Statement (.farAdd d a x off b esz ord sc nr m) :=
  of_lay 0x57 [(7, 4), (11, 4), (59, 5), (32, 20), (15, 4), (52, 2), (54, 2), (56, 3), (23, 1), (19, 4)] [(24, 8, 0)] [d.val, a.val, x.val, off.toNat, b.val, esz.val, ord.val, sc.val, bnat nr, m.val] raw87 rfl (by decide)
    ⟨d.isLt, a.isLt, x.isLt, off.isLt, b.isLt, esz.isLt, ord.isLt, sc.isLt, bnat_lt nr, m.isLt, trivial⟩ fun w ⟨g0, _⟩ ⟨h0, h1, h2, h3, h4, h5, h6, h7, h8, h9, _⟩ => by
      simp [decFatom, g0, fnum_of h0, fnum_of h1, fnum_of h2, fbv_of h3, fnum_of h4, fnum_of h5, fnum_of h6, fnum_of h7, fbit_of h8, fnum_of h9]
theorem farFadd (d a : Fin 16) (x : Fin 32) (off : BitVec 20) (b : Fin 16) (esz ord : Fin 4) (sc : Fin 8) (nr : Bool) (m : Fin 16) : Statement (.farFadd d a x off b esz ord sc nr m) :=
  of_lay 0x1000057 [(7, 4), (11, 4), (59, 5), (32, 20), (15, 4), (52, 2), (54, 2), (56, 3), (23, 1), (19, 4)] [(24, 8, 1)] [d.val, a.val, x.val, off.toNat, b.val, esz.val, ord.val, sc.val, bnat nr, m.val] raw87 rfl (by decide)
    ⟨d.isLt, a.isLt, x.isLt, off.isLt, b.isLt, esz.isLt, ord.isLt, sc.isLt, bnat_lt nr, m.isLt, trivial⟩ fun w ⟨g0, _⟩ ⟨h0, h1, h2, h3, h4, h5, h6, h7, h8, h9, _⟩ => by
      simp [decFatom, g0, fnum_of h0, fnum_of h1, fnum_of h2, fbv_of h3, fnum_of h4, fnum_of h5, fnum_of h6, fnum_of h7, fbit_of h8, fnum_of h9]
theorem farMin (d a : Fin 16) (x : Fin 32) (off : BitVec 20) (b : Fin 16) (esz ord : Fin 4) (sc : Fin 8) (nr : Bool) (m : Fin 16) : Statement (.farMin d a x off b esz ord sc nr m) :=
  of_lay 0x2000057 [(7, 4), (11, 4), (59, 5), (32, 20), (15, 4), (52, 2), (54, 2), (56, 3), (23, 1), (19, 4)] [(24, 8, 2)] [d.val, a.val, x.val, off.toNat, b.val, esz.val, ord.val, sc.val, bnat nr, m.val] raw87 rfl (by decide)
    ⟨d.isLt, a.isLt, x.isLt, off.isLt, b.isLt, esz.isLt, ord.isLt, sc.isLt, bnat_lt nr, m.isLt, trivial⟩ fun w ⟨g0, _⟩ ⟨h0, h1, h2, h3, h4, h5, h6, h7, h8, h9, _⟩ => by
      simp [decFatom, g0, fnum_of h0, fnum_of h1, fnum_of h2, fbv_of h3, fnum_of h4, fnum_of h5, fnum_of h6, fnum_of h7, fbit_of h8, fnum_of h9]
theorem farMax (d a : Fin 16) (x : Fin 32) (off : BitVec 20) (b : Fin 16) (esz ord : Fin 4) (sc : Fin 8) (nr : Bool) (m : Fin 16) : Statement (.farMax d a x off b esz ord sc nr m) :=
  of_lay 0x3000057 [(7, 4), (11, 4), (59, 5), (32, 20), (15, 4), (52, 2), (54, 2), (56, 3), (23, 1), (19, 4)] [(24, 8, 3)] [d.val, a.val, x.val, off.toNat, b.val, esz.val, ord.val, sc.val, bnat nr, m.val] raw87 rfl (by decide)
    ⟨d.isLt, a.isLt, x.isLt, off.isLt, b.isLt, esz.isLt, ord.isLt, sc.isLt, bnat_lt nr, m.isLt, trivial⟩ fun w ⟨g0, _⟩ ⟨h0, h1, h2, h3, h4, h5, h6, h7, h8, h9, _⟩ => by
      simp [decFatom, g0, fnum_of h0, fnum_of h1, fnum_of h2, fbv_of h3, fnum_of h4, fnum_of h5, fnum_of h6, fnum_of h7, fbit_of h8, fnum_of h9]
theorem farMinu (d a : Fin 16) (x : Fin 32) (off : BitVec 20) (b : Fin 16) (esz ord : Fin 4) (sc : Fin 8) (nr : Bool) (m : Fin 16) : Statement (.farMinu d a x off b esz ord sc nr m) :=
  of_lay 0x4000057 [(7, 4), (11, 4), (59, 5), (32, 20), (15, 4), (52, 2), (54, 2), (56, 3), (23, 1), (19, 4)] [(24, 8, 4)] [d.val, a.val, x.val, off.toNat, b.val, esz.val, ord.val, sc.val, bnat nr, m.val] raw87 rfl (by decide)
    ⟨d.isLt, a.isLt, x.isLt, off.isLt, b.isLt, esz.isLt, ord.isLt, sc.isLt, bnat_lt nr, m.isLt, trivial⟩ fun w ⟨g0, _⟩ ⟨h0, h1, h2, h3, h4, h5, h6, h7, h8, h9, _⟩ => by
      simp [decFatom, g0, fnum_of h0, fnum_of h1, fnum_of h2, fbv_of h3, fnum_of h4, fnum_of h5, fnum_of h6, fnum_of h7, fbit_of h8, fnum_of h9]
theorem farMaxu (d a : Fin 16) (x : Fin 32) (off : BitVec 20) (b : Fin 16) (esz ord : Fin 4) (sc : Fin 8) (nr : Bool) (m : Fin 16) : Statement (.farMaxu d a x off b esz ord sc nr m) :=
  of_lay 0x5000057 [(7, 4), (11, 4), (59, 5), (32, 20), (15, 4), (52, 2), (54, 2), (56, 3), (23, 1), (19, 4)] [(24, 8, 5)] [d.val, a.val, x.val, off.toNat, b.val, esz.val, ord.val, sc.val, bnat nr, m.val] raw87 rfl (by decide)
    ⟨d.isLt, a.isLt, x.isLt, off.isLt, b.isLt, esz.isLt, ord.isLt, sc.isLt, bnat_lt nr, m.isLt, trivial⟩ fun w ⟨g0, _⟩ ⟨h0, h1, h2, h3, h4, h5, h6, h7, h8, h9, _⟩ => by
      simp [decFatom, g0, fnum_of h0, fnum_of h1, fnum_of h2, fbv_of h3, fnum_of h4, fnum_of h5, fnum_of h6, fnum_of h7, fbit_of h8, fnum_of h9]
theorem farAnd (d a : Fin 16) (x : Fin 32) (off : BitVec 20) (b : Fin 16) (esz ord : Fin 4) (sc : Fin 8) (nr : Bool) (m : Fin 16) : Statement (.farAnd d a x off b esz ord sc nr m) :=
  of_lay 0x6000057 [(7, 4), (11, 4), (59, 5), (32, 20), (15, 4), (52, 2), (54, 2), (56, 3), (23, 1), (19, 4)] [(24, 8, 6)] [d.val, a.val, x.val, off.toNat, b.val, esz.val, ord.val, sc.val, bnat nr, m.val] raw87 rfl (by decide)
    ⟨d.isLt, a.isLt, x.isLt, off.isLt, b.isLt, esz.isLt, ord.isLt, sc.isLt, bnat_lt nr, m.isLt, trivial⟩ fun w ⟨g0, _⟩ ⟨h0, h1, h2, h3, h4, h5, h6, h7, h8, h9, _⟩ => by
      simp [decFatom, g0, fnum_of h0, fnum_of h1, fnum_of h2, fbv_of h3, fnum_of h4, fnum_of h5, fnum_of h6, fnum_of h7, fbit_of h8, fnum_of h9]
theorem farOr (d a : Fin 16) (x : Fin 32) (off : BitVec 20) (b : Fin 16) (esz ord : Fin 4) (sc : Fin 8) (nr : Bool) (m : Fin 16) : Statement (.farOr d a x off b esz ord sc nr m) :=
  of_lay 0x7000057 [(7, 4), (11, 4), (59, 5), (32, 20), (15, 4), (52, 2), (54, 2), (56, 3), (23, 1), (19, 4)] [(24, 8, 7)] [d.val, a.val, x.val, off.toNat, b.val, esz.val, ord.val, sc.val, bnat nr, m.val] raw87 rfl (by decide)
    ⟨d.isLt, a.isLt, x.isLt, off.isLt, b.isLt, esz.isLt, ord.isLt, sc.isLt, bnat_lt nr, m.isLt, trivial⟩ fun w ⟨g0, _⟩ ⟨h0, h1, h2, h3, h4, h5, h6, h7, h8, h9, _⟩ => by
      simp [decFatom, g0, fnum_of h0, fnum_of h1, fnum_of h2, fbv_of h3, fnum_of h4, fnum_of h5, fnum_of h6, fnum_of h7, fbit_of h8, fnum_of h9]
theorem farXor (d a : Fin 16) (x : Fin 32) (off : BitVec 20) (b : Fin 16) (esz ord : Fin 4) (sc : Fin 8) (nr : Bool) (m : Fin 16) : Statement (.farXor d a x off b esz ord sc nr m) :=
  of_lay 0x8000057 [(7, 4), (11, 4), (59, 5), (32, 20), (15, 4), (52, 2), (54, 2), (56, 3), (23, 1), (19, 4)] [(24, 8, 8)] [d.val, a.val, x.val, off.toNat, b.val, esz.val, ord.val, sc.val, bnat nr, m.val] raw87 rfl (by decide)
    ⟨d.isLt, a.isLt, x.isLt, off.isLt, b.isLt, esz.isLt, ord.isLt, sc.isLt, bnat_lt nr, m.isLt, trivial⟩ fun w ⟨g0, _⟩ ⟨h0, h1, h2, h3, h4, h5, h6, h7, h8, h9, _⟩ => by
      simp [decFatom, g0, fnum_of h0, fnum_of h1, fnum_of h2, fbv_of h3, fnum_of h4, fnum_of h5, fnum_of h6, fnum_of h7, fbit_of h8, fnum_of h9]
theorem farSwap (d a : Fin 16) (x : Fin 32) (off : BitVec 20) (b : Fin 16) (esz ord : Fin 4) (sc : Fin 8) (nr : Bool) (m : Fin 16) : Statement (.farSwap d a x off b esz ord sc nr m) :=
  of_lay 0x9000057 [(7, 4), (11, 4), (59, 5), (32, 20), (15, 4), (52, 2), (54, 2), (56, 3), (23, 1), (19, 4)] [(24, 8, 9)] [d.val, a.val, x.val, off.toNat, b.val, esz.val, ord.val, sc.val, bnat nr, m.val] raw87 rfl (by decide)
    ⟨d.isLt, a.isLt, x.isLt, off.isLt, b.isLt, esz.isLt, ord.isLt, sc.isLt, bnat_lt nr, m.isLt, trivial⟩ fun w ⟨g0, _⟩ ⟨h0, h1, h2, h3, h4, h5, h6, h7, h8, h9, _⟩ => by
      simp [decFatom, g0, fnum_of h0, fnum_of h1, fnum_of h2, fbv_of h3, fnum_of h4, fnum_of h5, fnum_of h6, fnum_of h7, fbit_of h8, fnum_of h9]
theorem farCas (d a : Fin 16) (x : Fin 32) (off : BitVec 20) (b : Fin 16) (esz ord : Fin 4) (sc : Fin 8) (nr : Bool) (m : Fin 16) : Statement (.farCas d a x off b esz ord sc nr m) :=
  of_lay 0xa000057 [(7, 4), (11, 4), (59, 5), (32, 20), (15, 4), (52, 2), (54, 2), (56, 3), (23, 1), (19, 4)] [(24, 8, 10)] [d.val, a.val, x.val, off.toNat, b.val, esz.val, ord.val, sc.val, bnat nr, m.val] raw87 rfl (by decide)
    ⟨d.isLt, a.isLt, x.isLt, off.isLt, b.isLt, esz.isLt, ord.isLt, sc.isLt, bnat_lt nr, m.isLt, trivial⟩ fun w ⟨g0, _⟩ ⟨h0, h1, h2, h3, h4, h5, h6, h7, h8, h9, _⟩ => by
      simp [decFatom, g0, fnum_of h0, fnum_of h1, fnum_of h2, fbv_of h3, fnum_of h4, fnum_of h5, fnum_of h6, fnum_of h7, fbit_of h8, fnum_of h9]
theorem add (d a b : Fin 64) : Statement (.add d a b) :=
  of_lay 0x1 [(7, 6), (13, 6), (19, 6)] [(25, 7, 0)] [d.val, a.val, b.val] raw1 rfl (by decide)
    ⟨d.isLt, a.isLt, b.isLt, trivial⟩ fun w ⟨g0, _⟩ ⟨h0, h1, h2, _⟩ => by
      simp [decScalu, g0, fnum_of h0, fnum_of h1, fnum_of h2]
theorem sub (d a b : Fin 64) : Statement (.sub d a b) :=
  of_lay 0x2000001 [(7, 6), (13, 6), (19, 6)] [(25, 7, 1)] [d.val, a.val, b.val] raw1 rfl (by decide)
    ⟨d.isLt, a.isLt, b.isLt, trivial⟩ fun w ⟨g0, _⟩ ⟨h0, h1, h2, _⟩ => by
      simp [decScalu, g0, fnum_of h0, fnum_of h1, fnum_of h2]
theorem and (d a b : Fin 64) : Statement (.and d a b) :=
  of_lay 0x4000001 [(7, 6), (13, 6), (19, 6)] [(25, 7, 2)] [d.val, a.val, b.val] raw1 rfl (by decide)
    ⟨d.isLt, a.isLt, b.isLt, trivial⟩ fun w ⟨g0, _⟩ ⟨h0, h1, h2, _⟩ => by
      simp [decScalu, g0, fnum_of h0, fnum_of h1, fnum_of h2]
theorem or (d a b : Fin 64) : Statement (.or d a b) :=
  of_lay 0x6000001 [(7, 6), (13, 6), (19, 6)] [(25, 7, 3)] [d.val, a.val, b.val] raw1 rfl (by decide)
    ⟨d.isLt, a.isLt, b.isLt, trivial⟩ fun w ⟨g0, _⟩ ⟨h0, h1, h2, _⟩ => by
      simp [decScalu, g0, fnum_of h0, fnum_of h1, fnum_of h2]
theorem xor (d a b : Fin 64) : Statement (.xor d a b) :=
  of_lay 0x8000001 [(7, 6), (13, 6), (19, 6)] [(25, 7, 4)] [d.val, a.val, b.val] raw1 rfl (by decide)
    ⟨d.isLt, a.isLt, b.isLt, trivial⟩ fun w ⟨g0, _⟩ ⟨h0, h1, h2, _⟩ => by
      simp [decScalu, g0, fnum_of h0, fnum_of h1, fnum_of h2]
theorem andn (d a b : Fin 64) : Statement (.andn d a b) :=
  of_lay 0xa000001 [(7, 6), (13, 6), (19, 6)] [(25, 7, 5)] [d.val, a.val, b.val] raw1 rfl (by decide)
    ⟨d.isLt, a.isLt, b.isLt, trivial⟩ fun w ⟨g0, _⟩ ⟨h0, h1, h2, _⟩ => by
      simp [decScalu, g0, fnum_of h0, fnum_of h1, fnum_of h2]
theorem sll (d a b : Fin 64) : Statement (.sll d a b) :=
  of_lay 0xc000001 [(7, 6), (13, 6), (19, 6)] [(25, 7, 6)] [d.val, a.val, b.val] raw1 rfl (by decide)
    ⟨d.isLt, a.isLt, b.isLt, trivial⟩ fun w ⟨g0, _⟩ ⟨h0, h1, h2, _⟩ => by
      simp [decScalu, g0, fnum_of h0, fnum_of h1, fnum_of h2]
theorem srl (d a b : Fin 64) : Statement (.srl d a b) :=
  of_lay 0xe000001 [(7, 6), (13, 6), (19, 6)] [(25, 7, 7)] [d.val, a.val, b.val] raw1 rfl (by decide)
    ⟨d.isLt, a.isLt, b.isLt, trivial⟩ fun w ⟨g0, _⟩ ⟨h0, h1, h2, _⟩ => by
      simp [decScalu, g0, fnum_of h0, fnum_of h1, fnum_of h2]
theorem sra (d a b : Fin 64) : Statement (.sra d a b) :=
  of_lay 0x10000001 [(7, 6), (13, 6), (19, 6)] [(25, 7, 8)] [d.val, a.val, b.val] raw1 rfl (by decide)
    ⟨d.isLt, a.isLt, b.isLt, trivial⟩ fun w ⟨g0, _⟩ ⟨h0, h1, h2, _⟩ => by
      simp [decScalu, g0, fnum_of h0, fnum_of h1, fnum_of h2]
theorem ror (d a b : Fin 64) : Statement (.ror d a b) :=
  of_lay 0x12000001 [(7, 6), (13, 6), (19, 6)] [(25, 7, 9)] [d.val, a.val, b.val] raw1 rfl (by decide)
    ⟨d.isLt, a.isLt, b.isLt, trivial⟩ fun w ⟨g0, _⟩ ⟨h0, h1, h2, _⟩ => by
      simp [decScalu, g0, fnum_of h0, fnum_of h1, fnum_of h2]
theorem min (d a b : Fin 64) : Statement (.min d a b) :=
  of_lay 0x14000001 [(7, 6), (13, 6), (19, 6)] [(25, 7, 10)] [d.val, a.val, b.val] raw1 rfl (by decide)
    ⟨d.isLt, a.isLt, b.isLt, trivial⟩ fun w ⟨g0, _⟩ ⟨h0, h1, h2, _⟩ => by
      simp [decScalu, g0, fnum_of h0, fnum_of h1, fnum_of h2]
theorem max (d a b : Fin 64) : Statement (.max d a b) :=
  of_lay 0x16000001 [(7, 6), (13, 6), (19, 6)] [(25, 7, 11)] [d.val, a.val, b.val] raw1 rfl (by decide)
    ⟨d.isLt, a.isLt, b.isLt, trivial⟩ fun w ⟨g0, _⟩ ⟨h0, h1, h2, _⟩ => by
      simp [decScalu, g0, fnum_of h0, fnum_of h1, fnum_of h2]
theorem minu (d a b : Fin 64) : Statement (.minu d a b) :=
  of_lay 0x18000001 [(7, 6), (13, 6), (19, 6)] [(25, 7, 12)] [d.val, a.val, b.val] raw1 rfl (by decide)
    ⟨d.isLt, a.isLt, b.isLt, trivial⟩ fun w ⟨g0, _⟩ ⟨h0, h1, h2, _⟩ => by
      simp [decScalu, g0, fnum_of h0, fnum_of h1, fnum_of h2]
theorem maxu (d a b : Fin 64) : Statement (.maxu d a b) :=
  of_lay 0x1a000001 [(7, 6), (13, 6), (19, 6)] [(25, 7, 13)] [d.val, a.val, b.val] raw1 rfl (by decide)
    ⟨d.isLt, a.isLt, b.isLt, trivial⟩ fun w ⟨g0, _⟩ ⟨h0, h1, h2, _⟩ => by
      simp [decScalu, g0, fnum_of h0, fnum_of h1, fnum_of h2]
theorem seq (d a b : Fin 64) : Statement (.seq d a b) :=
  of_lay 0x20000001 [(7, 6), (13, 6), (19, 6)] [(25, 7, 16)] [d.val, a.val, b.val] raw1 rfl (by decide)
    ⟨d.isLt, a.isLt, b.isLt, trivial⟩ fun w ⟨g0, _⟩ ⟨h0, h1, h2, _⟩ => by
      simp [decScalu, g0, fnum_of h0, fnum_of h1, fnum_of h2]
theorem sne (d a b : Fin 64) : Statement (.sne d a b) :=
  of_lay 0x22000001 [(7, 6), (13, 6), (19, 6)] [(25, 7, 17)] [d.val, a.val, b.val] raw1 rfl (by decide)
    ⟨d.isLt, a.isLt, b.isLt, trivial⟩ fun w ⟨g0, _⟩ ⟨h0, h1, h2, _⟩ => by
      simp [decScalu, g0, fnum_of h0, fnum_of h1, fnum_of h2]
theorem slt (d a b : Fin 64) : Statement (.slt d a b) :=
  of_lay 0x24000001 [(7, 6), (13, 6), (19, 6)] [(25, 7, 18)] [d.val, a.val, b.val] raw1 rfl (by decide)
    ⟨d.isLt, a.isLt, b.isLt, trivial⟩ fun w ⟨g0, _⟩ ⟨h0, h1, h2, _⟩ => by
      simp [decScalu, g0, fnum_of h0, fnum_of h1, fnum_of h2]
theorem sltu (d a b : Fin 64) : Statement (.sltu d a b) :=
  of_lay 0x26000001 [(7, 6), (13, 6), (19, 6)] [(25, 7, 19)] [d.val, a.val, b.val] raw1 rfl (by decide)
    ⟨d.isLt, a.isLt, b.isLt, trivial⟩ fun w ⟨g0, _⟩ ⟨h0, h1, h2, _⟩ => by
      simp [decScalu, g0, fnum_of h0, fnum_of h1, fnum_of h2]
theorem sge (d a b : Fin 64) : Statement (.sge d a b) :=
  of_lay 0x28000001 [(7, 6), (13, 6), (19, 6)] [(25, 7, 20)] [d.val, a.val, b.val] raw1 rfl (by decide)
    ⟨d.isLt, a.isLt, b.isLt, trivial⟩ fun w ⟨g0, _⟩ ⟨h0, h1, h2, _⟩ => by
      simp [decScalu, g0, fnum_of h0, fnum_of h1, fnum_of h2]
theorem sgeu (d a b : Fin 64) : Statement (.sgeu d a b) :=
  of_lay 0x2a000001 [(7, 6), (13, 6), (19, 6)] [(25, 7, 21)] [d.val, a.val, b.val] raw1 rfl (by decide)
    ⟨d.isLt, a.isLt, b.isLt, trivial⟩ fun w ⟨g0, _⟩ ⟨h0, h1, h2, _⟩ => by
      simp [decScalu, g0, fnum_of h0, fnum_of h1, fnum_of h2]
theorem addi (d a : Fin 64) (i : BitVec 10) : Statement (.addi d a i) :=
  of_lay 0x2 [(7, 6), (13, 6), (22, 10)] [(19, 3, 0)] [d.val, a.val, i.toNat] raw2 rfl (by decide)
    ⟨d.isLt, a.isLt, i.isLt, trivial⟩ fun w ⟨g0, _⟩ ⟨h0, h1, h2, _⟩ => by
      simp [decScali, g0, fnum_of h0, fnum_of h1, fbv_of h2]
theorem andi (d a : Fin 64) (i : BitVec 10) : Statement (.andi d a i) :=
  of_lay 0x80002 [(7, 6), (13, 6), (22, 10)] [(19, 3, 1)] [d.val, a.val, i.toNat] raw2 rfl (by decide)
    ⟨d.isLt, a.isLt, i.isLt, trivial⟩ fun w ⟨g0, _⟩ ⟨h0, h1, h2, _⟩ => by
      simp [decScali, g0, fnum_of h0, fnum_of h1, fbv_of h2]
theorem ori (d a : Fin 64) (i : BitVec 10) : Statement (.ori d a i) :=
  of_lay 0x100002 [(7, 6), (13, 6), (22, 10)] [(19, 3, 2)] [d.val, a.val, i.toNat] raw2 rfl (by decide)
    ⟨d.isLt, a.isLt, i.isLt, trivial⟩ fun w ⟨g0, _⟩ ⟨h0, h1, h2, _⟩ => by
      simp [decScali, g0, fnum_of h0, fnum_of h1, fbv_of h2]
theorem xori (d a : Fin 64) (i : BitVec 10) : Statement (.xori d a i) :=
  of_lay 0x180002 [(7, 6), (13, 6), (22, 10)] [(19, 3, 3)] [d.val, a.val, i.toNat] raw2 rfl (by decide)
    ⟨d.isLt, a.isLt, i.isLt, trivial⟩ fun w ⟨g0, _⟩ ⟨h0, h1, h2, _⟩ => by
      simp [decScali, g0, fnum_of h0, fnum_of h1, fbv_of h2]
theorem slli (d a : Fin 64) (i : BitVec 6) : Statement (.slli d a i) :=
  of_lay 0x200002 [(7, 6), (13, 6), (22, 6)] [(19, 3, 4), (28, 4, 0)] [d.val, a.val, i.toNat] raw2 rfl (by decide)
    ⟨d.isLt, a.isLt, i.isLt, trivial⟩ fun w ⟨g0, g1, _⟩ ⟨h0, h1, h2, _⟩ => by
      simp [decScali, needZero, g0, g1, fnum_of h0, fnum_of h1, fbv_of h2]
theorem srli (d a : Fin 64) (i : BitVec 6) : Statement (.srli d a i) :=
  of_lay 0x280002 [(7, 6), (13, 6), (22, 6)] [(19, 3, 5), (28, 4, 0)] [d.val, a.val, i.toNat] raw2 rfl (by decide)
    ⟨d.isLt, a.isLt, i.isLt, trivial⟩ fun w ⟨g0, g1, _⟩ ⟨h0, h1, h2, _⟩ => by
      simp [decScali, needZero, g0, g1, fnum_of h0, fnum_of h1, fbv_of h2]
theorem srai (d a : Fin 64) (i : BitVec 6) : Statement (.srai d a i) :=
  of_lay 0x300002 [(7, 6), (13, 6), (22, 6)] [(19, 3, 6), (28, 4, 0)] [d.val, a.val, i.toNat] raw2 rfl (by decide)
    ⟨d.isLt, a.isLt, i.isLt, trivial⟩ fun w ⟨g0, g1, _⟩ ⟨h0, h1, h2, _⟩ => by
      simp [decScali, needZero, g0, g1, fnum_of h0, fnum_of h1, fbv_of h2]
theorem slti (d a : Fin 64) (i : BitVec 10) : Statement (.slti d a i) :=
  of_lay 0x380002 [(7, 6), (13, 6), (22, 10)] [(19, 3, 7)] [d.val, a.val, i.toNat] raw2 rfl (by decide)
    ⟨d.isLt, a.isLt, i.isLt, trivial⟩ fun w ⟨g0, _⟩ ⟨h0, h1, h2, _⟩ => by
      simp [decScali, g0, fnum_of h0, fnum_of h1, fbv_of h2]
theorem li (d : Fin 64) (imm : BitVec 32) : Statement (.li d imm) :=
  of_lay 0x3 [(7, 6), (32, 32)] [(13, 16, 0), (29, 3, 0)] [d.val, imm.toNat] raw3 rfl (by decide)
    ⟨d.isLt, imm.isLt, trivial⟩ fun w ⟨g0, g1, _⟩ ⟨h0, h1, _⟩ => by
      simp [decSclit, needZero, g0, g1, fnum_of h0, fbv_of h1]
theorem liu (d : Fin 64) (imm : BitVec 32) : Statement (.liu d imm) :=
  of_lay 0x20000003 [(7, 6), (32, 32)] [(13, 16, 0), (29, 3, 1)] [d.val, imm.toNat] raw3 rfl (by decide)
    ⟨d.isLt, imm.isLt, trivial⟩ fun w ⟨g0, g1, _⟩ ⟨h0, h1, _⟩ => by
      simp [decSclit, needZero, g0, g1, fnum_of h0, fbv_of h1]
theorem lih (d : Fin 64) (imm : BitVec 32) : Statement (.lih d imm) :=
  of_lay 0x40000003 [(7, 6), (32, 32)] [(13, 16, 0), (29, 3, 2)] [d.val, imm.toNat] raw3 rfl (by decide)
    ⟨d.isLt, imm.isLt, trivial⟩ fun w ⟨g0, g1, _⟩ ⟨h0, h1, _⟩ => by
      simp [decSclit, needZero, g0, g1, fnum_of h0, fbv_of h1]
theorem addil (d : Fin 64) (imm : BitVec 32) : Statement (.addil d imm) :=
  of_lay 0x60000003 [(7, 6), (32, 32)] [(13, 16, 0), (29, 3, 3)] [d.val, imm.toNat] raw3 rfl (by decide)
    ⟨d.isLt, imm.isLt, trivial⟩ fun w ⟨g0, g1, _⟩ ⟨h0, h1, _⟩ => by
      simp [decSclit, needZero, g0, g1, fnum_of h0, fbv_of h1]
theorem lea (d : Fin 64) (i : BitVec 19) : Statement (.lea d i) :=
  of_lay 0x6 [(7, 6), (13, 19)] [] [d.val, i.toNat] raw6 rfl (by decide)
    ⟨d.isLt, i.isLt, trivial⟩ fun w _ ⟨h0, h1, _⟩ => by
      simp [decScupp, fnum_of h0, fbv_of h1]
theorem mul (d a b : Fin 64) : Statement (.mul d a b) :=
  of_lay 0x4 [(7, 6), (13, 6), (19, 6)] [(25, 7, 0)] [d.val, a.val, b.val] raw4 rfl (by decide)
    ⟨d.isLt, a.isLt, b.isLt, trivial⟩ fun w ⟨g0, _⟩ ⟨h0, h1, h2, _⟩ => by
      simp [decScmul, g0, fnum_of h0, fnum_of h1, fnum_of h2]
theorem mulh (d a b : Fin 64) : Statement (.mulh d a b) :=
  of_lay 0x2000004 [(7, 6), (13, 6), (19, 6)] [(25, 7, 1)] [d.val, a.val, b.val] raw4 rfl (by decide)
    ⟨d.isLt, a.isLt, b.isLt, trivial⟩ fun w ⟨g0, _⟩ ⟨h0, h1, h2, _⟩ => by
      simp [decScmul, g0, fnum_of h0, fnum_of h1, fnum_of h2]
theorem mulhu (d a b : Fin 64) : Statement (.mulhu d a b) :=
  of_lay 0x4000004 [(7, 6), (13, 6), (19, 6)] [(25, 7, 2)] [d.val, a.val, b.val] raw4 rfl (by decide)
    ⟨d.isLt, a.isLt, b.isLt, trivial⟩ fun w ⟨g0, _⟩ ⟨h0, h1, h2, _⟩ => by
      simp [decScmul, g0, fnum_of h0, fnum_of h1, fnum_of h2]
theorem div (d a b : Fin 64) : Statement (.div d a b) :=
  of_lay 0x8000004 [(7, 6), (13, 6), (19, 6)] [(25, 7, 4)] [d.val, a.val, b.val] raw4 rfl (by decide)
    ⟨d.isLt, a.isLt, b.isLt, trivial⟩ fun w ⟨g0, _⟩ ⟨h0, h1, h2, _⟩ => by
      simp [decScmul, g0, fnum_of h0, fnum_of h1, fnum_of h2]
theorem divu (d a b : Fin 64) : Statement (.divu d a b) :=
  of_lay 0xa000004 [(7, 6), (13, 6), (19, 6)] [(25, 7, 5)] [d.val, a.val, b.val] raw4 rfl (by decide)
    ⟨d.isLt, a.isLt, b.isLt, trivial⟩ fun w ⟨g0, _⟩ ⟨h0, h1, h2, _⟩ => by
      simp [decScmul, g0, fnum_of h0, fnum_of h1, fnum_of h2]
theorem rem (d a b : Fin 64) : Statement (.rem d a b) :=
  of_lay 0xc000004 [(7, 6), (13, 6), (19, 6)] [(25, 7, 6)] [d.val, a.val, b.val] raw4 rfl (by decide)
    ⟨d.isLt, a.isLt, b.isLt, trivial⟩ fun w ⟨g0, _⟩ ⟨h0, h1, h2, _⟩ => by
      simp [decScmul, g0, fnum_of h0, fnum_of h1, fnum_of h2]
theorem remu (d a b : Fin 64) : Statement (.remu d a b) :=
  of_lay 0xe000004 [(7, 6), (13, 6), (19, 6)] [(25, 7, 7)] [d.val, a.val, b.val] raw4 rfl (by decide)
    ⟨d.isLt, a.isLt, b.isLt, trivial⟩ fun w ⟨g0, _⟩ ⟨h0, h1, h2, _⟩ => by
      simp [decScmul, g0, fnum_of h0, fnum_of h1, fnum_of h2]
theorem clz (d a : Fin 64) : Statement (.clz d a) :=
  of_lay 0x20000004 [(7, 6), (13, 6)] [(19, 6, 0), (25, 7, 16)] [d.val, a.val] raw4 rfl (by decide)
    ⟨d.isLt, a.isLt, trivial⟩ fun w ⟨g0, g1, _⟩ ⟨h0, h1, _⟩ => by
      simp [decScmul, needZero, g0, g1, fnum_of h0, fnum_of h1]
theorem ctz (d a : Fin 64) : Statement (.ctz d a) :=
  of_lay 0x22000004 [(7, 6), (13, 6)] [(19, 6, 0), (25, 7, 17)] [d.val, a.val] raw4 rfl (by decide)
    ⟨d.isLt, a.isLt, trivial⟩ fun w ⟨g0, g1, _⟩ ⟨h0, h1, _⟩ => by
      simp [decScmul, needZero, g0, g1, fnum_of h0, fnum_of h1]
theorem popc (d a : Fin 64) : Statement (.popc d a) :=
  of_lay 0x24000004 [(7, 6), (13, 6)] [(19, 6, 0), (25, 7, 18)] [d.val, a.val] raw4 rfl (by decide)
    ⟨d.isLt, a.isLt, trivial⟩ fun w ⟨g0, g1, _⟩ ⟨h0, h1, _⟩ => by
      simp [decScmul, needZero, g0, g1, fnum_of h0, fnum_of h1]
theorem lb (d a : Fin 64) (i : BitVec 10) : Statement (.lb d a i) :=
  of_lay 0x8 [(7, 6), (13, 6), (22, 10)] [(19, 3, 0)] [d.val, a.val, i.toNat] raw8 rfl (by decide)
    ⟨d.isLt, a.isLt, i.isLt, trivial⟩ fun w ⟨g0, _⟩ ⟨h0, h1, h2, _⟩ => by
      simp [decScld, g0, fnum_of h0, fnum_of h1, fbv_of h2]
theorem lh (d a : Fin 64) (i : BitVec 10) : Statement (.lh d a i) :=
  of_lay 0x80008 [(7, 6), (13, 6), (22, 10)] [(19, 3, 1)] [d.val, a.val, i.toNat] raw8 rfl (by decide)
    ⟨d.isLt, a.isLt, i.isLt, trivial⟩ fun w ⟨g0, _⟩ ⟨h0, h1, h2, _⟩ => by
      simp [decScld, g0, fnum_of h0, fnum_of h1, fbv_of h2]
theorem lw (d a : Fin 64) (i : BitVec 10) : Statement (.lw d a i) :=
  of_lay 0x100008 [(7, 6), (13, 6), (22, 10)] [(19, 3, 2)] [d.val, a.val, i.toNat] raw8 rfl (by decide)
    ⟨d.isLt, a.isLt, i.isLt, trivial⟩ fun w ⟨g0, _⟩ ⟨h0, h1, h2, _⟩ => by
      simp [decScld, g0, fnum_of h0, fnum_of h1, fbv_of h2]
theorem ld (d a : Fin 64) (i : BitVec 10) : Statement (.ld d a i) :=
  of_lay 0x180008 [(7, 6), (13, 6), (22, 10)] [(19, 3, 3)] [d.val, a.val, i.toNat] raw8 rfl (by decide)
    ⟨d.isLt, a.isLt, i.isLt, trivial⟩ fun w ⟨g0, _⟩ ⟨h0, h1, h2, _⟩ => by
      simp [decScld, g0, fnum_of h0, fnum_of h1, fbv_of h2]
theorem lbu (d a : Fin 64) (i : BitVec 10) : Statement (.lbu d a i) :=
  of_lay 0x200008 [(7, 6), (13, 6), (22, 10)] [(19, 3, 4)] [d.val, a.val, i.toNat] raw8 rfl (by decide)
    ⟨d.isLt, a.isLt, i.isLt, trivial⟩ fun w ⟨g0, _⟩ ⟨h0, h1, h2, _⟩ => by
      simp [decScld, g0, fnum_of h0, fnum_of h1, fbv_of h2]
theorem lhu (d a : Fin 64) (i : BitVec 10) : Statement (.lhu d a i) :=
  of_lay 0x280008 [(7, 6), (13, 6), (22, 10)] [(19, 3, 5)] [d.val, a.val, i.toNat] raw8 rfl (by decide)
    ⟨d.isLt, a.isLt, i.isLt, trivial⟩ fun w ⟨g0, _⟩ ⟨h0, h1, h2, _⟩ => by
      simp [decScld, g0, fnum_of h0, fnum_of h1, fbv_of h2]
theorem lwu (d a : Fin 64) (i : BitVec 10) : Statement (.lwu d a i) :=
  of_lay 0x300008 [(7, 6), (13, 6), (22, 10)] [(19, 3, 6)] [d.val, a.val, i.toNat] raw8 rfl (by decide)
    ⟨d.isLt, a.isLt, i.isLt, trivial⟩ fun w ⟨g0, _⟩ ⟨h0, h1, h2, _⟩ => by
      simp [decScld, g0, fnum_of h0, fnum_of h1, fbv_of h2]
theorem sb (s a : Fin 64) (i : BitVec 10) : Statement (.sb s a i) :=
  of_lay 0x9 [(7, 6), (13, 6), (22, 10)] [(19, 3, 0)] [s.val, a.val, i.toNat] raw9 rfl (by decide)
    ⟨s.isLt, a.isLt, i.isLt, trivial⟩ fun w ⟨g0, _⟩ ⟨h0, h1, h2, _⟩ => by
      simp [decScst, g0, fnum_of h0, fnum_of h1, fbv_of h2]
theorem sh (s a : Fin 64) (i : BitVec 10) : Statement (.sh s a i) :=
  of_lay 0x80009 [(7, 6), (13, 6), (22, 10)] [(19, 3, 1)] [s.val, a.val, i.toNat] raw9 rfl (by decide)
    ⟨s.isLt, a.isLt, i.isLt, trivial⟩ fun w ⟨g0, _⟩ ⟨h0, h1, h2, _⟩ => by
      simp [decScst, g0, fnum_of h0, fnum_of h1, fbv_of h2]
theorem sw (s a : Fin 64) (i : BitVec 10) : Statement (.sw s a i) :=
  of_lay 0x100009 [(7, 6), (13, 6), (22, 10)] [(19, 3, 2)] [s.val, a.val, i.toNat] raw9 rfl (by decide)
    ⟨s.isLt, a.isLt, i.isLt, trivial⟩ fun w ⟨g0, _⟩ ⟨h0, h1, h2, _⟩ => by
      simp [decScst, g0, fnum_of h0, fnum_of h1, fbv_of h2]
theorem sd (s a : Fin 64) (i : BitVec 10) : Statement (.sd s a i) :=
  of_lay 0x180009 [(7, 6), (13, 6), (22, 10)] [(19, 3, 3)] [s.val, a.val, i.toNat] raw9 rfl (by decide)
    ⟨s.isLt, a.isLt, i.isLt, trivial⟩ fun w ⟨g0, _⟩ ⟨h0, h1, h2, _⟩ => by
      simp [decScst, g0, fnum_of h0, fnum_of h1, fbv_of h2]
theorem acqld (d a : Fin 64) (p : Fin 8) : Statement (.acqld d a p) :=
  of_lay 0xa [(7, 6), (13, 6), (25, 3)] [(19, 6, 0), (28, 4, 0)] [d.val, a.val, p.val] raw10 rfl (by decide)
    ⟨d.isLt, a.isLt, p.isLt, trivial⟩ fun w ⟨g0, g1, _⟩ ⟨h0, h1, h2, _⟩ => by
      simp [decScsyn, needZero, g0, g1, fnum_of h0, fnum_of h1, fnum_of h2]
theorem relst (a b : Fin 64) (p : Fin 8) : Statement (.relst a b p) :=
  of_lay 0x1000000a [(13, 6), (19, 6), (25, 3)] [(7, 6, 0), (28, 4, 1)] [a.val, b.val, p.val] raw10 rfl (by decide)
    ⟨a.isLt, b.isLt, p.isLt, trivial⟩ fun w ⟨g0, g1, _⟩ ⟨h0, h1, h2, _⟩ => by
      simp [decScsyn, needZero, g0, g1, fnum_of h0, fnum_of h1, fnum_of h2]
theorem rmwAdd (d a b : Fin 64) (p : Fin 8) : Statement (.rmwAdd d a b p) :=
  of_lay 0x2000000a [(7, 6), (13, 6), (19, 6), (25, 3)] [(28, 4, 2)] [d.val, a.val, b.val, p.val] raw10 rfl (by decide)
    ⟨d.isLt, a.isLt, b.isLt, p.isLt, trivial⟩ fun w ⟨g0, _⟩ ⟨h0, h1, h2, h3, _⟩ => by
      simp [decScsyn, g0, fnum_of h0, fnum_of h1, fnum_of h2, fnum_of h3]
theorem rmwSwap (d a b : Fin 64) (p : Fin 8) : Statement (.rmwSwap d a b p) :=
  of_lay 0x3000000a [(7, 6), (13, 6), (19, 6), (25, 3)] [(28, 4, 3)] [d.val, a.val, b.val, p.val] raw10 rfl (by decide)
    ⟨d.isLt, a.isLt, b.isLt, p.isLt, trivial⟩ fun w ⟨g0, _⟩ ⟨h0, h1, h2, h3, _⟩ => by
      simp [decScsyn, g0, fnum_of h0, fnum_of h1, fnum_of h2, fnum_of h3]
theorem rmwCas (d a b : Fin 64) (p : Fin 8) : Statement (.rmwCas d a b p) :=
  of_lay 0x4000000a [(7, 6), (13, 6), (19, 6), (25, 3)] [(28, 4, 4)] [d.val, a.val, b.val, p.val] raw10 rfl (by decide)
    ⟨d.isLt, a.isLt, b.isLt, p.isLt, trivial⟩ fun w ⟨g0, _⟩ ⟨h0, h1, h2, h3, _⟩ => by
      simp [decScsyn, g0, fnum_of h0, fnum_of h1, fnum_of h2, fnum_of h3]
theorem rmwAnd (d a b : Fin 64) (p : Fin 8) : Statement (.rmwAnd d a b p) :=
  of_lay 0x5000000a [(7, 6), (13, 6), (19, 6), (25, 3)] [(28, 4, 5)] [d.val, a.val, b.val, p.val] raw10 rfl (by decide)
    ⟨d.isLt, a.isLt, b.isLt, p.isLt, trivial⟩ fun w ⟨g0, _⟩ ⟨h0, h1, h2, h3, _⟩ => by
      simp [decScsyn, g0, fnum_of h0, fnum_of h1, fnum_of h2, fnum_of h3]
theorem rmwOr (d a b : Fin 64) (p : Fin 8) : Statement (.rmwOr d a b p) :=
  of_lay 0x6000000a [(7, 6), (13, 6), (19, 6), (25, 3)] [(28, 4, 6)] [d.val, a.val, b.val, p.val] raw10 rfl (by decide)
    ⟨d.isLt, a.isLt, b.isLt, p.isLt, trivial⟩ fun w ⟨g0, _⟩ ⟨h0, h1, h2, h3, _⟩ => by
      simp [decScsyn, g0, fnum_of h0, fnum_of h1, fnum_of h2, fnum_of h3]
theorem rmwXor (d a b : Fin 64) (p : Fin 8) : Statement (.rmwXor d a b p) :=
  of_lay 0x7000000a [(7, 6), (13, 6), (19, 6), (25, 3)] [(28, 4, 7)] [d.val, a.val, b.val, p.val] raw10 rfl (by decide)
    ⟨d.isLt, a.isLt, b.isLt, p.isLt, trivial⟩ fun w ⟨g0, _⟩ ⟨h0, h1, h2, h3, _⟩ => by
      simp [decScsyn, g0, fnum_of h0, fnum_of h1, fnum_of h2, fnum_of h3]
theorem rmwMin (d a b : Fin 64) (p : Fin 8) : Statement (.rmwMin d a b p) :=
  of_lay 0x8000000a [(7, 6), (13, 6), (19, 6), (25, 3)] [(28, 4, 8)] [d.val, a.val, b.val, p.val] raw10 rfl (by decide)
    ⟨d.isLt, a.isLt, b.isLt, p.isLt, trivial⟩ fun w ⟨g0, _⟩ ⟨h0, h1, h2, h3, _⟩ => by
      simp [decScsyn, g0, fnum_of h0, fnum_of h1, fnum_of h2, fnum_of h3]
theorem rmwMax (d a b : Fin 64) (p : Fin 8) : Statement (.rmwMax d a b p) :=
  of_lay 0x9000000a [(7, 6), (13, 6), (19, 6), (25, 3)] [(28, 4, 9)] [d.val, a.val, b.val, p.val] raw10 rfl (by decide)
    ⟨d.isLt, a.isLt, b.isLt, p.isLt, trivial⟩ fun w ⟨g0, _⟩ ⟨h0, h1, h2, h3, _⟩ => by
      simp [decScsyn, g0, fnum_of h0, fnum_of h1, fnum_of h2, fnum_of h3]
theorem rmwMinu (d a b : Fin 64) (p : Fin 8) : Statement (.rmwMinu d a b p) :=
  of_lay 0xa000000a [(7, 6), (13, 6), (19, 6), (25, 3)] [(28, 4, 10)] [d.val, a.val, b.val, p.val] raw10 rfl (by decide)
    ⟨d.isLt, a.isLt, b.isLt, p.isLt, trivial⟩ fun w ⟨g0, _⟩ ⟨h0, h1, h2, h3, _⟩ => by
      simp [decScsyn, g0, fnum_of h0, fnum_of h1, fnum_of h2, fnum_of h3]
theorem rmwMaxu (d a b : Fin 64) (p : Fin 8) : Statement (.rmwMaxu d a b p) :=
  of_lay 0xb000000a [(7, 6), (13, 6), (19, 6), (25, 3)] [(28, 4, 11)] [d.val, a.val, b.val, p.val] raw10 rfl (by decide)
    ⟨d.isLt, a.isLt, b.isLt, p.isLt, trivial⟩ fun w ⟨g0, _⟩ ⟨h0, h1, h2, h3, _⟩ => by
      simp [decScsyn, g0, fnum_of h0, fnum_of h1, fnum_of h2, fnum_of h3]
theorem beq (a b : Fin 64) (o : BitVec 10) : Statement (.beq a b o) :=
  of_lay 0xc [(7, 6), (13, 6), (22, 10)] [(19, 3, 0)] [a.val, b.val, o.toNat] raw12 rfl (by decide)
    ⟨a.isLt, b.isLt, o.isLt, trivial⟩ fun w ⟨g0, _⟩ ⟨h0, h1, h2, _⟩ => by
      simp [decBr, g0, fnum_of h0, fnum_of h1, fbv_of h2]
theorem bne (a b : Fin 64) (o : BitVec 10) : Statement (.bne a b o) :=
  of_lay 0x8000c [(7, 6), (13, 6), (22, 10)] [(19, 3, 1)] [a.val, b.val, o.toNat] raw12 rfl (by decide)
    ⟨a.isLt, b.isLt, o.isLt, trivial⟩ fun w ⟨g0, _⟩ ⟨h0, h1, h2, _⟩ => by
      simp [decBr, g0, fnum_of h0, fnum_of h1, fbv_of h2]
theorem blt (a b : Fin 64) (o : BitVec 10) : Statement (.blt a b o) :=
  of_lay 0x10000c [(7, 6), (13, 6), (22, 10)] [(19, 3, 2)] [a.val, b.val, o.toNat] raw12 rfl (by decide)
    ⟨a.isLt, b.isLt, o.isLt, trivial⟩ fun w ⟨g0, _⟩ ⟨h0, h1, h2, _⟩ => by
      simp [decBr, g0, fnum_of h0, fnum_of h1, fbv_of h2]
theorem bge (a b : Fin 64) (o : BitVec 10) : Statement (.bge a b o) :=
  of_lay 0x18000c [(7, 6), (13, 6), (22, 10)] [(19, 3, 3)] [a.val, b.val, o.toNat] raw12 rfl (by decide)
    ⟨a.isLt, b.isLt, o.isLt, trivial⟩ fun w ⟨g0, _⟩ ⟨h0, h1, h2, _⟩ => by
      simp [decBr, g0, fnum_of h0, fnum_of h1, fbv_of h2]
theorem bltu (a b : Fin 64) (o : BitVec 10) : Statement (.bltu a b o) :=
  of_lay 0x20000c [(7, 6), (13, 6), (22, 10)] [(19, 3, 4)] [a.val, b.val, o.toNat] raw12 rfl (by decide)
    ⟨a.isLt, b.isLt, o.isLt, trivial⟩ fun w ⟨g0, _⟩ ⟨h0, h1, h2, _⟩ => by
      simp [decBr, g0, fnum_of h0, fnum_of h1, fbv_of h2]
theorem bgeu (a b : Fin 64) (o : BitVec 10) : Statement (.bgeu a b o) :=
  of_lay 0x28000c [(7, 6), (13, 6), (22, 10)] [(19, 3, 5)] [a.val, b.val, o.toNat] raw12 rfl (by decide)
    ⟨a.isLt, b.isLt, o.isLt, trivial⟩ fun w ⟨g0, _⟩ ⟨h0, h1, h2, _⟩ => by
      simp [decBr, g0, fnum_of h0, fnum_of h1, fbv_of h2]
theorem jmp (d : Fin 64) (o : BitVec 19) : Statement (.jmp d o) :=
  of_lay 0xd [(7, 6), (13, 19)] [] [d.val, o.toNat] raw13 rfl (by decide)
    ⟨d.isLt, o.isLt, trivial⟩ fun w _ ⟨h0, h1, _⟩ => by
      simp [decJmp, fnum_of h0, fbv_of h1]
theorem jreg (d a : Fin 64) (i : BitVec 10) : Statement (.jreg d a i) :=
  of_lay 0xe [(7, 6), (13, 6), (22, 10)] [(19, 3, 0)] [d.val, a.val, i.toNat] raw14 rfl (by decide)
    ⟨d.isLt, a.isLt, i.isLt, trivial⟩ fun w ⟨g0, _⟩ ⟨h0, h1, h2, _⟩ => by
      simp [decJreg, g0, fnum_of h0, fnum_of h1, fbv_of h2]
theorem loop (c : Fin 64) (o : BitVec 19) : Statement (.loop c o) :=
  of_lay 0x10 [(7, 6), (13, 19)] [] [c.val, o.toNat] raw16 rfl (by decide)
    ⟨c.isLt, o.isLt, trivial⟩ fun w _ ⟨h0, h1, _⟩ => by
      simp [decLoop, fnum_of h0, fbv_of h1]
theorem crr (d : Fin 64) (r : BitVec 12) : Statement (.crr d r) :=
  of_lay 0x11 [(7, 6), (19, 12)] [(13, 6, 0), (31, 1, 0)] [d.val, r.toNat] raw17 rfl (by decide)
    ⟨d.isLt, r.isLt, trivial⟩ fun w ⟨g0, g1, _⟩ ⟨h0, h1, _⟩ => by
      simp [decCreg, needZero, g0, g1, fnum_of h0, fbv_of h1]
theorem crw (d a : Fin 64) (r : BitVec 12) : Statement (.crw d a r) :=
  of_lay 0x80000011 [(7, 6), (13, 6), (19, 12)] [(31, 1, 1)] [d.val, a.val, r.toNat] raw17 rfl (by decide)
    ⟨d.isLt, a.isLt, r.isLt, trivial⟩ fun w ⟨g0, _⟩ ⟨h0, h1, h2, _⟩ => by
      simp [decCreg, g0, fnum_of h0, fnum_of h1, fbv_of h2]
theorem wait (d a b : Fin 64) : Statement (.wait d a b) :=
  of_lay 0x2000012 [(7, 6), (13, 6), (19, 6)] [(25, 7, 1)] [d.val, a.val, b.val] raw18 rfl (by decide)
    ⟨d.isLt, a.isLt, b.isLt, trivial⟩ fun w ⟨g0, _⟩ ⟨h0, h1, h2, _⟩ => by
      simp [decSys, g0, fnum_of h0, fnum_of h1, fnum_of h2]
theorem pause (a : Fin 64) : Statement (.pause a) :=
  of_lay 0x4000012 [(13, 6)] [(7, 6, 0), (19, 6, 0), (25, 7, 2)] [a.val] raw18 rfl (by decide)
    ⟨a.isLt, trivial⟩ fun w ⟨g0, g1, g2, _⟩ ⟨h0, _⟩ => by
      simp [decSys, needZero, g0, g1, g2, fnum_of h0]
theorem trap (a : Fin 64) : Statement (.trap a) :=
  of_lay 0x6000012 [(13, 6)] [(7, 6, 0), (19, 6, 0), (25, 7, 3)] [a.val] raw18 rfl (by decide)
    ⟨a.isLt, trivial⟩ fun w ⟨g0, g1, g2, _⟩ ⟨h0, _⟩ => by
      simp [decSys, needZero, g0, g1, g2, fnum_of h0]
theorem fence (s : Fin 8) : Statement (.fence s) :=
  of_lay 0x14 [(25, 3)] [(7, 18, 0), (28, 4, 0)] [s.val] raw20 rfl (by decide)
    ⟨s.isLt, trivial⟩ fun w ⟨g0, g1, _⟩ ⟨h0, _⟩ => by
      simp [decSync, needZero, g0, g1, fnum_of h0]
theorem launch (d a : Fin 64) : Statement (.launch d a) :=
  of_lay 0x15 [(7, 6), (13, 6)] [(19, 6, 0), (25, 7, 0)] [d.val, a.val] raw21 rfl (by decide)
    ⟨d.isLt, a.isLt, trivial⟩ fun w ⟨g0, g1, _⟩ ⟨h0, h1, _⟩ => by
      simp [decTask, needZero, g0, g1, fnum_of h0, fnum_of h1]
theorem split (a : Fin 64) : Statement (.split a) :=
  of_lay 0x2000015 [(13, 6)] [(7, 6, 0), (19, 6, 0), (25, 7, 1)] [a.val] raw21 rfl (by decide)
    ⟨a.isLt, trivial⟩ fun w ⟨g0, g1, g2, _⟩ ⟨h0, _⟩ => by
      simp [decTask, needZero, g0, g1, g2, fnum_of h0]
theorem vfetch (a b : Fin 64) : Statement (.vfetch a b) :=
  of_lay 0x6000015 [(13, 6), (19, 6)] [(7, 6, 0), (25, 7, 3)] [a.val, b.val] raw21 rfl (by decide)
    ⟨a.isLt, b.isLt, trivial⟩ fun w ⟨g0, g1, _⟩ ⟨h0, h1, _⟩ => by
      simp [decTask, needZero, g0, g1, fnum_of h0, fnum_of h1]
theorem tlbiVA (a b : Fin 64) : Statement (.tlbiVA a b) :=
  of_lay 0x18 [(13, 6), (19, 6)] [(7, 6, 0), (25, 7, 0)] [a.val, b.val] raw24 rfl (by decide)
    ⟨a.isLt, b.isLt, trivial⟩ fun w ⟨g0, g1, _⟩ ⟨h0, h1, _⟩ => by
      simp [decPriv, needZero, g0, g1, fnum_of h0, fnum_of h1]
theorem tlbiAS (a : Fin 64) : Statement (.tlbiAS a) :=
  of_lay 0x2000018 [(13, 6)] [(7, 6, 0), (19, 6, 0), (25, 7, 1)] [a.val] raw24 rfl (by decide)
    ⟨a.isLt, trivial⟩ fun w ⟨g0, g1, g2, _⟩ ⟨h0, _⟩ => by
      simp [decPriv, needZero, g0, g1, g2, fnum_of h0]
theorem wayset (d a : Fin 64) : Statement (.wayset d a) :=
  of_lay 0x10000018 [(7, 6), (13, 6)] [(19, 6, 0), (25, 7, 8)] [d.val, a.val] raw24 rfl (by decide)
    ⟨d.isLt, a.isLt, trivial⟩ fun w ⟨g0, g1, _⟩ ⟨h0, h1, _⟩ => by
      simp [decPriv, needZero, g0, g1, fnum_of h0, fnum_of h1]
theorem qpush (a : Fin 64) (q : Bool) : Statement (.qpush a q) :=
  of_lay 0x16 [(13, 6), (25, 1)] [(7, 6, 0), (19, 6, 0), (26, 6, 0)] [a.val, bnat q] raw22 rfl (by decide)
    ⟨a.isLt, bnat_lt q, trivial⟩ fun w ⟨g0, g1, g2, _⟩ ⟨h0, h1, _⟩ => by
      simp [decQueue, needZero, g0, g1, g2, fnum_of h0, fbit_of h1]
theorem qpop (d : Fin 64) (q : Bool) : Statement (.qpop d q) :=
  of_lay 0x4000016 [(7, 6), (25, 1)] [(13, 12, 0), (26, 6, 1)] [d.val, bnat q] raw22 rfl (by decide)
    ⟨d.isLt, bnat_lt q, trivial⟩ fun w ⟨g0, g1, _⟩ ⟨h0, h1, _⟩ => by
      simp [decQueue, needZero, g0, g1, fnum_of h0, fbit_of h1]
theorem qpopNB (d : Fin 64) (q : Bool) : Statement (.qpopNB d q) :=
  of_lay 0x8000016 [(7, 6), (25, 1)] [(13, 12, 0), (26, 6, 2)] [d.val, bnat q] raw22 rfl (by decide)
    ⟨d.isLt, bnat_lt q, trivial⟩ fun w ⟨g0, g1, _⟩ ⟨h0, h1, _⟩ => by
      simp [decQueue, needZero, g0, g1, fnum_of h0, fbit_of h1]
theorem qstat (d : Fin 64) (q : Bool) : Statement (.qstat d q) :=
  of_lay 0xc000016 [(7, 6), (25, 1)] [(13, 12, 0), (26, 6, 3)] [d.val, bnat q] raw22 rfl (by decide)
    ⟨d.isLt, bnat_lt q, trivial⟩ fun w ⟨g0, g1, _⟩ ⟨h0, h1, _⟩ => by
      simp [decQueue, needZero, g0, g1, fnum_of h0, fbit_of h1]
theorem sfaddF32 (d a b : Fin 64) : Statement (.sfaddF32 d a b) :=
  of_lay 0x5 [(7, 6), (13, 6), (19, 6)] [(25, 7, 0)] [d.val, a.val, b.val] raw5 rfl (by decide)
    ⟨d.isLt, a.isLt, b.isLt, trivial⟩ fun w ⟨g0, _⟩ ⟨h0, h1, h2, _⟩ => by
      simp [decScfp, g0, fnum_of h0, fnum_of h1, fnum_of h2]
theorem sfsubF32 (d a b : Fin 64) : Statement (.sfsubF32 d a b) :=
  of_lay 0x2000005 [(7, 6), (13, 6), (19, 6)] [(25, 7, 1)] [d.val, a.val, b.val] raw5 rfl (by decide)
    ⟨d.isLt, a.isLt, b.isLt, trivial⟩ fun w ⟨g0, _⟩ ⟨h0, h1, h2, _⟩ => by
      simp [decScfp, g0, fnum_of h0, fnum_of h1, fnum_of h2]
theorem sfmulF32 (d a b : Fin 64) : Statement (.sfmulF32 d a b) :=
  of_lay 0x4000005 [(7, 6), (13, 6), (19, 6)] [(25, 7, 2)] [d.val, a.val, b.val] raw5 rfl (by decide)
    ⟨d.isLt, a.isLt, b.isLt, trivial⟩ fun w ⟨g0, _⟩ ⟨h0, h1, h2, _⟩ => by
      simp [decScfp, g0, fnum_of h0, fnum_of h1, fnum_of h2]
theorem sfdivF32 (d a b : Fin 64) : Statement (.sfdivF32 d a b) :=
  of_lay 0x6000005 [(7, 6), (13, 6), (19, 6)] [(25, 7, 3)] [d.val, a.val, b.val] raw5 rfl (by decide)
    ⟨d.isLt, a.isLt, b.isLt, trivial⟩ fun w ⟨g0, _⟩ ⟨h0, h1, h2, _⟩ => by
      simp [decScfp, g0, fnum_of h0, fnum_of h1, fnum_of h2]
theorem sfsqrtF32 (d a : Fin 64) : Statement (.sfsqrtF32 d a) :=
  of_lay 0x8000005 [(7, 6), (13, 6)] [(19, 6, 0), (25, 7, 4)] [d.val, a.val] raw5 rfl (by decide)
    ⟨d.isLt, a.isLt, trivial⟩ fun w ⟨g0, g1, _⟩ ⟨h0, h1, _⟩ => by
      simp [decScfp, needZero, g0, g1, fnum_of h0, fnum_of h1]
theorem sfminF32 (d a b : Fin 64) : Statement (.sfminF32 d a b) :=
  of_lay 0xa000005 [(7, 6), (13, 6), (19, 6)] [(25, 7, 5)] [d.val, a.val, b.val] raw5 rfl (by decide)
    ⟨d.isLt, a.isLt, b.isLt, trivial⟩ fun w ⟨g0, _⟩ ⟨h0, h1, h2, _⟩ => by
      simp [decScfp, g0, fnum_of h0, fnum_of h1, fnum_of h2]
theorem sfmaxF32 (d a b : Fin 64) : Statement (.sfmaxF32 d a b) :=
  of_lay 0xc000005 [(7, 6), (13, 6), (19, 6)] [(25, 7, 6)] [d.val, a.val, b.val] raw5 rfl (by decide)
    ⟨d.isLt, a.isLt, b.isLt, trivial⟩ fun w ⟨g0, _⟩ ⟨h0, h1, h2, _⟩ => by
      simp [decScfp, g0, fnum_of h0, fnum_of h1, fnum_of h2]
theorem sfcmpEqF32 (d a b : Fin 64) : Statement (.sfcmpEqF32 d a b) :=
  of_lay 0xe000005 [(7, 6), (13, 6), (19, 6)] [(25, 7, 7)] [d.val, a.val, b.val] raw5 rfl (by decide)
    ⟨d.isLt, a.isLt, b.isLt, trivial⟩ fun w ⟨g0, _⟩ ⟨h0, h1, h2, _⟩ => by
      simp [decScfp, g0, fnum_of h0, fnum_of h1, fnum_of h2]
theorem sfcmpLtF32 (d a b : Fin 64) : Statement (.sfcmpLtF32 d a b) :=
  of_lay 0x10000005 [(7, 6), (13, 6), (19, 6)] [(25, 7, 8)] [d.val, a.val, b.val] raw5 rfl (by decide)
    ⟨d.isLt, a.isLt, b.isLt, trivial⟩ fun w ⟨g0, _⟩ ⟨h0, h1, h2, _⟩ => by
      simp [decScfp, g0, fnum_of h0, fnum_of h1, fnum_of h2]
theorem sfcmpLeF32 (d a b : Fin 64) : Statement (.sfcmpLeF32 d a b) :=
  of_lay 0x12000005 [(7, 6), (13, 6), (19, 6)] [(25, 7, 9)] [d.val, a.val, b.val] raw5 rfl (by decide)
    ⟨d.isLt, a.isLt, b.isLt, trivial⟩ fun w ⟨g0, _⟩ ⟨h0, h1, h2, _⟩ => by
      simp [decScfp, g0, fnum_of h0, fnum_of h1, fnum_of h2]
theorem sfcvtF32I64 (d a : Fin 64) : Statement (.sfcvtF32I64 d a) :=
  of_lay 0x14000005 [(7, 6), (13, 6)] [(19, 6, 0), (25, 7, 10)] [d.val, a.val] raw5 rfl (by decide)
    ⟨d.isLt, a.isLt, trivial⟩ fun w ⟨g0, g1, _⟩ ⟨h0, h1, _⟩ => by
      simp [decScfp, needZero, g0, g1, fnum_of h0, fnum_of h1]
theorem sfcvtI64F32 (d a : Fin 64) : Statement (.sfcvtI64F32 d a) :=
  of_lay 0x16000005 [(7, 6), (13, 6)] [(19, 6, 0), (25, 7, 11)] [d.val, a.val] raw5 rfl (by decide)
    ⟨d.isLt, a.isLt, trivial⟩ fun w ⟨g0, g1, _⟩ ⟨h0, h1, _⟩ => by
      simp [decScfp, needZero, g0, g1, fnum_of h0, fnum_of h1]
theorem sfcvtF32F64 (d a : Fin 64) : Statement (.sfcvtF32F64 d a) :=
  of_lay 0x20000005 [(7, 6), (13, 6)] [(19, 6, 0), (25, 7, 16)] [d.val, a.val] raw5 rfl (by decide)
    ⟨d.isLt, a.isLt, trivial⟩ fun w ⟨g0, g1, _⟩ ⟨h0, h1, _⟩ => by
      simp [decScfp, needZero, g0, g1, fnum_of h0, fnum_of h1]
theorem sfcvtF64F32 (d a : Fin 64) : Statement (.sfcvtF64F32 d a) :=
  of_lay 0x22000005 [(7, 6), (13, 6)] [(19, 6, 0), (25, 7, 17)] [d.val, a.val] raw5 rfl (by decide)
    ⟨d.isLt, a.isLt, trivial⟩ fun w ⟨g0, g1, _⟩ ⟨h0, h1, _⟩ => by
      simp [decScfp, needZero, g0, g1, fnum_of h0, fnum_of h1]
theorem sfaddF64 (d a b : Fin 64) : Statement (.sfaddF64 d a b) :=
  of_lay 0x40000005 [(7, 6), (13, 6), (19, 6)] [(25, 7, 32)] [d.val, a.val, b.val] raw5 rfl (by decide)
    ⟨d.isLt, a.isLt, b.isLt, trivial⟩ fun w ⟨g0, _⟩ ⟨h0, h1, h2, _⟩ => by
      simp [decScfp, g0, fnum_of h0, fnum_of h1, fnum_of h2]
theorem sfsubF64 (d a b : Fin 64) : Statement (.sfsubF64 d a b) :=
  of_lay 0x42000005 [(7, 6), (13, 6), (19, 6)] [(25, 7, 33)] [d.val, a.val, b.val] raw5 rfl (by decide)
    ⟨d.isLt, a.isLt, b.isLt, trivial⟩ fun w ⟨g0, _⟩ ⟨h0, h1, h2, _⟩ => by
      simp [decScfp, g0, fnum_of h0, fnum_of h1, fnum_of h2]
theorem sfmulF64 (d a b : Fin 64) : Statement (.sfmulF64 d a b) :=
  of_lay 0x44000005 [(7, 6), (13, 6), (19, 6)] [(25, 7, 34)] [d.val, a.val, b.val] raw5 rfl (by decide)
    ⟨d.isLt, a.isLt, b.isLt, trivial⟩ fun w ⟨g0, _⟩ ⟨h0, h1, h2, _⟩ => by
      simp [decScfp, g0, fnum_of h0, fnum_of h1, fnum_of h2]
theorem sfdivF64 (d a b : Fin 64) : Statement (.sfdivF64 d a b) :=
  of_lay 0x46000005 [(7, 6), (13, 6), (19, 6)] [(25, 7, 35)] [d.val, a.val, b.val] raw5 rfl (by decide)
    ⟨d.isLt, a.isLt, b.isLt, trivial⟩ fun w ⟨g0, _⟩ ⟨h0, h1, h2, _⟩ => by
      simp [decScfp, g0, fnum_of h0, fnum_of h1, fnum_of h2]
theorem sfsqrtF64 (d a : Fin 64) : Statement (.sfsqrtF64 d a) :=
  of_lay 0x48000005 [(7, 6), (13, 6)] [(19, 6, 0), (25, 7, 36)] [d.val, a.val] raw5 rfl (by decide)
    ⟨d.isLt, a.isLt, trivial⟩ fun w ⟨g0, g1, _⟩ ⟨h0, h1, _⟩ => by
      simp [decScfp, needZero, g0, g1, fnum_of h0, fnum_of h1]
theorem sfminF64 (d a b : Fin 64) : Statement (.sfminF64 d a b) :=
  of_lay 0x4a000005 [(7, 6), (13, 6), (19, 6)] [(25, 7, 37)] [d.val, a.val, b.val] raw5 rfl (by decide)
    ⟨d.isLt, a.isLt, b.isLt, trivial⟩ fun w ⟨g0, _⟩ ⟨h0, h1, h2, _⟩ => by
      simp [decScfp, g0, fnum_of h0, fnum_of h1, fnum_of h2]
theorem sfmaxF64 (d a b : Fin 64) : Statement (.sfmaxF64 d a b) :=
  of_lay 0x4c000005 [(7, 6), (13, 6), (19, 6)] [(25, 7, 38)] [d.val, a.val, b.val] raw5 rfl (by decide)
    ⟨d.isLt, a.isLt, b.isLt, trivial⟩ fun w ⟨g0, _⟩ ⟨h0, h1, h2, _⟩ => by
      simp [decScfp, g0, fnum_of h0, fnum_of h1, fnum_of h2]
theorem sfcmpEqF64 (d a b : Fin 64) : Statement (.sfcmpEqF64 d a b) :=
  of_lay 0x4e000005 [(7, 6), (13, 6), (19, 6)] [(25, 7, 39)] [d.val, a.val, b.val] raw5 rfl (by decide)
    ⟨d.isLt, a.isLt, b.isLt, trivial⟩ fun w ⟨g0, _⟩ ⟨h0, h1, h2, _⟩ => by
      simp [decScfp, g0, fnum_of h0, fnum_of h1, fnum_of h2]
theorem sfcmpLtF64 (d a b : Fin 64) : Statement (.sfcmpLtF64 d a b) :=
  of_lay 0x50000005 [(7, 6), (13, 6), (19, 6)] [(25, 7, 40)] [d.val, a.val, b.val] raw5 rfl (by decide)
    ⟨d.isLt, a.isLt, b.isLt, trivial⟩ fun w ⟨g0, _⟩ ⟨h0, h1, h2, _⟩ => by
      simp [decScfp, g0, fnum_of h0, fnum_of h1, fnum_of h2]
theorem sfcmpLeF64 (d a b : Fin 64) : Statement (.sfcmpLeF64 d a b) :=
  of_lay 0x52000005 [(7, 6), (13, 6), (19, 6)] [(25, 7, 41)] [d.val, a.val, b.val] raw5 rfl (by decide)
    ⟨d.isLt, a.isLt, b.isLt, trivial⟩ fun w ⟨g0, _⟩ ⟨h0, h1, h2, _⟩ => by
      simp [decScfp, g0, fnum_of h0, fnum_of h1, fnum_of h2]
theorem sfcvtF64I64 (d a : Fin 64) : Statement (.sfcvtF64I64 d a) :=
  of_lay 0x54000005 [(7, 6), (13, 6)] [(19, 6, 0), (25, 7, 42)] [d.val, a.val] raw5 rfl (by decide)
    ⟨d.isLt, a.isLt, trivial⟩ fun w ⟨g0, g1, _⟩ ⟨h0, h1, _⟩ => by
      simp [decScfp, needZero, g0, g1, fnum_of h0, fnum_of h1]
theorem sfcvtI64F64 (d a : Fin 64) : Statement (.sfcvtI64F64 d a) :=
  of_lay 0x56000005 [(7, 6), (13, 6)] [(19, 6, 0), (25, 7, 43)] [d.val, a.val] raw5 rfl (by decide)
    ⟨d.isLt, a.isLt, trivial⟩ fun w ⟨g0, g1, _⟩ ⟨h0, h1, _⟩ => by
      simp [decScfp, needZero, g0, g1, fnum_of h0, fnum_of h1]
theorem endTask : Statement (.endTask) :=
  of_lay 0x12 [] [(7, 18, 0), (25, 7, 0)] [] raw18 rfl (by decide)
    trivial fun w ⟨g0, g1, _⟩ _ => by
      simp [decSys, needZero, g0, g1]
theorem eret : Statement (.eret) :=
  of_lay 0x8000012 [] [(7, 18, 0), (25, 7, 4)] [] raw18 rfl (by decide)
    trivial fun w ⟨g0, g1, _⟩ _ => by
      simp [decSys, needZero, g0, g1]
theorem uiret : Statement (.uiret) :=
  of_lay 0xa000012 [] [(7, 18, 0), (25, 7, 5)] [] raw18 rfl (by decide)
    trivial fun w ⟨g0, g1, _⟩ _ => by
      simp [decSys, needZero, g0, g1]
theorem halt : Statement (.halt) :=
  of_lay 0xc000012 [] [(7, 18, 0), (25, 7, 6)] [] raw18 rfl (by decide)
    trivial fun w ⟨g0, g1, _⟩ _ => by
      simp [decSys, needZero, g0, g1]
theorem fenceSv : Statement (.fenceSv) :=
  of_lay 0x10000014 [] [(7, 21, 0), (28, 4, 1)] [] raw20 rfl (by decide)
    trivial fun w ⟨g0, g1, _⟩ _ => by
      simp [decSync, g0, g1]
theorem fenceVs : Statement (.fenceVs) :=
  of_lay 0x12000014 [] [(7, 21, 262144), (28, 4, 1)] [] raw20 rfl (by decide)
    trivial fun w ⟨g0, g1, _⟩ _ => by
      simp [decSync, g0, g1]
theorem bsync : Statement (.bsync) :=
  of_lay 0x14000014 [] [(7, 21, 524288), (28, 4, 1)] [] raw20 rfl (by decide)
    trivial fun w ⟨g0, g1, _⟩ _ => by
      simp [decSync, g0, g1]
theorem barb : Statement (.barb) :=
  of_lay 0x20000014 [] [(7, 21, 0), (28, 4, 2)] [] raw20 rfl (by decide)
    trivial fun w ⟨g0, g1, _⟩ _ => by
      simp [decSync, needZero, g0, g1]
theorem join : Statement (.join) :=
  of_lay 0x4000015 [] [(7, 18, 0), (25, 7, 2)] [] raw21 rfl (by decide)
    trivial fun w ⟨g0, g1, _⟩ _ => by
      simp [decTask, needZero, g0, g1]
theorem tlbiAll : Statement (.tlbiAll) :=
  of_lay 0x4000018 [] [(7, 18, 0), (25, 7, 2)] [] raw24 rfl (by decide)
    trivial fun w ⟨g0, g1, _⟩ _ => by
      simp [decPriv, needZero, g0, g1]
theorem prea : Statement (.prea) :=
  of_lay 0x40000020 [] [(7, 20, 0), (27, 5, 8)] [] raw32 rfl (by decide)
    trivial fun w ⟨g0, g1, _⟩ _ => by
      simp [decRow, needZero, g0, g1]
theorem fenceArray : Statement (.fenceArray) :=
  of_lay 0x80000020 [] [(7, 20, 0), (27, 5, 16)] [] raw32 rfl (by decide)
    trivial fun w ⟨g0, g1, _⟩ _ => by
      simp [decRow, needZero, g0, g1]
theorem fenceArrayW : Statement (.fenceArrayW) :=
  of_lay 0x90000020 [] [(7, 20, 0), (27, 5, 18)] [] raw32 rfl (by decide)
    trivial fun w ⟨g0, g1, _⟩ _ => by
      simp [decRow, needZero, g0, g1]
theorem cwball : Statement (.cwball) :=
  of_lay 0x6000051 [] [(7, 18, 0), (25, 7, 3)] [] raw81 rfl (by decide)
    trivial fun w ⟨g0, g1, _⟩ _ => by
      simp [decCmaint, needZero, g0, g1]
theorem cwbiall : Statement (.cwbiall) :=
  of_lay 0x8000051 [] [(7, 18, 0), (25, 7, 4)] [] raw81 rfl (by decide)
    trivial fun w ⟨g0, g1, _⟩ _ => by
      simp [decCmaint, needZero, g0, g1]
theorem registerWrite (win : Bool) (addr : Nat) (v : Word) : Statement (.registerWrite win addr v) := nofun
theorem flagsRead (d : Fin 64) : Statement (.flagsRead d) := nofun
theorem flagsWrite (v : Word) : Statement (.flagsWrite v) := nofun
theorem srseedWrite (v : Word) : Statement (.srseedWrite v) := nofun
theorem rmodeWrite (v : Word) : Statement (.rmodeWrite v) := nofun
theorem vlcfgWrite (v : Word) : Statement (.vlcfgWrite v) := nofun
theorem bpartWrite (v : Word) : Statement (.bpartWrite v) := nofun
theorem vstartWrite (v : Word) : Statement (.vstartWrite v) := nofun
theorem vmodeWrite (v : Word) : Statement (.vmodeWrite v) := nofun
theorem trapstatWrite (v : Word) : Statement (.trapstatWrite v) := nofun
theorem trappcWrite (v : Word) : Statement (.trappcWrite v) := nofun
theorem uistatWrite (v : Word) : Statement (.uistatWrite v) := nofun
theorem waitReread (st : Fin 32) (th : Fin 40) : Statement (.waitReread st th) := nofun
theorem waitLimitExpiry (st : Fin 32) (th : Fin 40) : Statement (.waitLimitExpiry st th) := nofun
theorem pauseExpiry (st : Fin 32) (th : Fin 40) : Statement (.pauseExpiry st th) := nofun
theorem bankThreadTrap (st : Fin 32) (th : Fin 40) : Statement (.bankThreadTrap st th) := nofun
theorem latchValid (st : Fin 32) (bk : Fin 256) (k : Fin 16) : Statement (.latchValid st bk k) := nofun
theorem writeBackCommit (st : Fin 32) (bk : Fin 256) (k : Fin 16) : Statement (.writeBackCommit st bk k) := nofun
theorem arrayDemand (st : Fin 32) (bk : Fin 256) (k : Fin 16) : Statement (.arrayDemand st bk k) := nofun
theorem crownLineEviction (st : Fin 32) (bk : Fin 256) (line : Nat) : Statement (.crownLineEviction st bk line) := nofun
theorem farElementApply (n : Nat) : Statement (.farElementApply n) := nofun
theorem farAcknowledgement (n : Nat) : Statement (.farAcknowledgement n) := nofun
theorem copy (st : Fin 32) (q : Fin 64) : Statement (.copy st q) := nofun
theorem copyNode (st : Fin 32) (q : Fin 64) : Statement (.copyNode st q) := nofun
theorem precopy (st : Fin 32) (q : Fin 64) : Statement (.precopy st q) := nofun
theorem coll (st : Fin 32) (q : Fin 64) : Statement (.coll st q) := nofun
theorem rungel (st : Fin 32) (q : Fin 64) : Statement (.rungel st q) := nofun
theorem waitnzTimeout (st : Fin 32) (q : Fin 64) : Statement (.waitnzTimeout st q) := nofun
theorem waitcw (st : Fin 32) (q : Fin 64) : Statement (.waitcw st q) := nofun
theorem waitcwReread (st : Fin 32) (q : Fin 64) : Statement (.waitcwReread st q) := nofun
theorem waitcwTimeout (st : Fin 32) (q : Fin 64) : Statement (.waitcwTimeout st q) := nofun
theorem engineCommandCompletion (st : Fin 32) (q : Fin 64) : Statement (.engineCommandCompletion st q) := nofun
theorem completionInterrupt (st : Fin 32) (th : Fin 40) : Statement (.completionInterrupt st th) := nofun
theorem remotePacketArrival (p : Packet) : Statement (.remotePacketArrival p) := nofun
theorem collFlagRelease (n : Nat) : Statement (.collFlagRelease n) := nofun
theorem remoteAcknowledgement (st : Fin 32) (q : Fin 64) (data : List Byte) (auth : Bool) (refused : Bool) (poison : List Nat) : Statement (.remoteAcknowledgement st q data auth refused poison) := nofun
theorem linkTimeout (st : Fin 32) (q : Fin 64) : Statement (.linkTimeout st q) := nofun
theorem portFailure (port : Nat) : Statement (.portFailure port) := nofun
theorem hostAccess (write : Bool) (pa : Nat) (len : Fin 4) (v : Word) : Statement (.hostAccess write pa len v) := nofun
theorem tailWrite (st : Fin 32) (q : Fin 16) (v : Word) : Statement (.tailWrite st q v) := nofun
theorem hostQueueEntryRead (st : Fin 32) (q : Fin 16) : Statement (.hostQueueEntryRead st q) := nofun
theorem launchExpansion (st : Fin 32) : Statement (.launchExpansion st) := nofun
theorem depwordRead (st : Fin 32) (n : Nat) : Statement (.depwordRead st n) := nofun
theorem schedulerPlacement (st : Fin 32) (th : Fin 40) : Statement (.schedulerPlacement st th) := nofun
theorem softlimExpiry (st : Fin 32) (th : Fin 40) : Statement (.softlimExpiry st th) := nofun
theorem hardPreemption (st : Fin 32) (th : Fin 40) : Statement (.hardPreemption st th) := nofun
theorem preemptionDeferralExpiry (st : Fin 32) (th : Fin 40) : Statement (.preemptionDeferralExpiry st th) := nofun
theorem gangStartAttempt (st : Fin 32) (n : Nat) : Statement (.gangStartAttempt st n) := nofun
theorem gangStart (st : Fin 32) (n : Nat) : Statement (.gangStart st n) := nofun
theorem gangStartAbandoned (st : Fin 32) (n : Nat) : Statement (.gangStartAbandoned st n) := nofun
theorem gangResume (st : Fin 32) (g : BitVec 48) : Statement (.gangResume st g) := nofun
theorem gangDiscard (st : Fin 32) (g : BitVec 48) : Statement (.gangDiscard st g) := nofun
theorem bindingRequest (st : Fin 32) (v : Word) : Statement (.bindingRequest st v) := nofun
theorem unbindingRequest (st : Fin 32) (v : Word) : Statement (.unbindingRequest st v) := nofun
theorem parkWrite (st : Fin 32) (v : Word) : Statement (.parkWrite st v) := nofun
theorem retirementRequest (st : Fin 32) (v : Word) : Statement (.retirementRequest st v) := nofun
theorem pwrctlWrite (st : Fin 32) (v : Word) : Statement (.pwrctlWrite st v) := nofun
theorem columnVote (st : Fin 32) (col : Fin 6) (dissent : Bool) : Statement (.columnVote st col dissent) := nofun
theorem resyncComplete (st : Fin 32) (col : Fin 6) : Statement (.resyncComplete st col) := nofun
theorem pageWalk (st : Fin 32) (th : Fin 40) (va : Word) : Statement (.pageWalk st th va) := nofun
theorem retentionTick (st : Fin 32) (bk : Fin 256) : Statement (.retentionTick st bk) := nofun
theorem retentionDeadline (st : Fin 32) (th : Fin 40) (bk : Fin 256) (k : Fin 16) : Statement (.retentionDeadline st th bk k) := nofun
theorem forcedRefresh (st : Fin 32) (bk : Fin 256) (k : Fin 16) : Statement (.forcedRefresh st bk k) := nofun
theorem backgroundRefresh (st : Fin 32) (bk : Fin 256) (k : Fin 16) : Statement (.backgroundRefresh st bk k) := nofun
theorem rowRepair (st : Fin 32) (bk : Fin 256) (k : Fin 16) (row : BitVec 12) : Statement (.rowRepair st bk k row) := nofun
theorem laneQuarantine (st : Fin 32) (bk : Fin 256) : Statement (.laneQuarantine st bk) := nofun
theorem bankRetirement (st : Fin 32) (bk : Fin 256) (arr : Bool) : Statement (.bankRetirement st bk arr) := nofun
theorem bankCopyComplete (st : Fin 32) (bk : Fin 256) : Statement (.bankCopyComplete st bk) := nofun
theorem uncorrectableError (st : Fin 32) (th : Fin 40) (bank : BitVec 8) (unit : BitVec 8) : Statement (.uncorrectableError st th bank unit) := nofun
theorem frontEndFailure (st : Fin 32) (fe : Fin 20) : Statement (.frontEndFailure st fe) := nofun
theorem objectSubmission (root : Word) (base : Word) (obj : List Byte) : Statement (.objectSubmission root base obj) := nofun
theorem gelInstall (st : Fin 32) (slot : Fin 64) (list : List Byte) : Statement (.gelInstall st slot list) := nofun
theorem keyset (slot : Fin 16) (key : BitVec 256) : Statement (.keyset slot key) := nofun
theorem fuseadv : Statement (.fuseadv) := nofun
theorem colreset (st : Fin 32) (col : Fin 6) : Statement (.colreset st col) := nofun
theorem blkreset (st : Fin 32) (bk : Fin 256) : Statement (.blkreset st bk) := nofun
theorem maincycle : Statement (.maincycle) := nofun
theorem tamperAlarm : Statement (.tamperAlarm) := nofun
theorem glitchAlarm : Statement (.glitchAlarm) := nofun
theorem overTemperatureAlarm : Statement (.overTemperatureAlarm) := nofun
theorem powerMeasurement (st : Fin 32) (watts : Nat) (hot : Bool) : Statement (.powerMeasurement st watts hot) := nofun
theorem coolantFault : Statement (.coolantFault) := nofun
theorem powerOn : Statement (.powerOn) := nofun
theorem bringupPhaseComplete (failed : BitVec 32) : Statement (.bringupPhaseComplete failed) := nofun
theorem repairCopyComplete (st : Fin 32) (bk : Fin 256) (k : Fin 16) (row : BitVec 12) : Statement (.repairCopyComplete st bk k row) := nofun
theorem nop : Statement .nop := fun _ _ => ⟨by rfl, by decide⟩

theorem hintBt : Statement .hintBt := fun _ _ => ⟨by rfl, by decide⟩

theorem hintBn : Statement .hintBn := fun _ _ => ⟨by rfl, by decide⟩

theorem hintCpf (n : BitVec 21) : Statement (.hintCpf n) := fun hh hf => by
  have hn : n.toNat ≠ 0 := fun h => by
    have : n = 0 := BitVec.eq_of_toNat_eq (by simpa using h)
    subst this; simp [Instr.wf, Instr.fieldsOk] at hf
  refine of_lay 0x10000070 [(7, 21)] [(28, 4, 1), (7, 0, 0)] [n.toNat] raw112 rfl (by decide) ⟨n.isLt, trivial⟩ (fun w ⟨g0, _⟩ ⟨h0, _⟩ => ?_) hh hf
  have h1 : fnat w 7 21 = n.toNat := h0
  have h2 : w ≠ 0x70 := fun h => by subst h; simp [fnat] at g0
  simp [decHint70, h1, h2, hn, g0, fbv_of h0]

theorem raw_hint (w : Nat) (h : hintMajor (w % 128) = true) (h7 : w % 128 ≠ 112) :
    decodeRaw w = .ok (.hint (decide (w % 4 = 3)) (BitVec.ofNat 64 w)) := by
  have h4 : w % 128 % 4 = w % 4 := by omega
  have hc : (w % 128 = 25 ∨ w % 128 = 26 ∨ w % 128 = 27 ∨ w % 128 = 28 ∨ w % 128 = 29 ∨ w % 128 = 30 ∨ w % 128 = 31) ∨
      (w % 128 = 113 ∨ w % 128 = 114 ∨ w % 128 = 115 ∨ w % 128 = 116 ∨ w % 128 = 117 ∨ w % 128 = 118 ∨ w % 128 = 119) ∨
      (w % 128 = 120 ∨ w % 128 = 121 ∨ w % 128 = 122 ∨ w % 128 = 123 ∨ w % 128 = 124 ∨ w % 128 = 125 ∨ w % 128 = 126) := by
    simp [hintMajor] at h; omega
  rcases hc with low | mid | high
  · rcases low with c | c | c | c | c | c | c <;> (unfold decodeRaw; rw [← h4, c]; rfl)
  · rcases mid with c | c | c | c | c | c | c <;> (unfold decodeRaw; rw [← h4, c]; rfl)
  · rcases high with c | c | c | c | c | c | c <;> (unfold decodeRaw; rw [← h4, c]; rfl)

theorem hint (long : Bool) (bits : BitVec 64) : Statement (.hint long bits) := by
  intro _ hf
  have hok : hintOk long bits = true := hf
  simp only [hintOk, Bool.and_eq_true, decide_eq_true_eq, Bool.or_eq_true, Bool.not_eq_true'] at hok
  obtain ⟨⟨⟨hm, hl⟩, hb⟩, hn⟩ := hok
  have he : encode (.hint long bits) = bits.toNat := rfl
  have hlen : bits.toNat < 2 ^ (8 * (Instr.hint long bits).wordLen) := by
    unfold Instr.wordLen; rw [he]
    have := bits.isLt
    by_cases h4 : bits.toNat % 4 = 3
    · simp [h4]; omega
    · have hs : long = false := by simpa [h4] using hl
      rw [hs] at hb
      simp only [h4, if_false]; simpa using hb
  have hraw : decodeRaw bits.toNat = .ok (.hint long bits) := by
    by_cases h7 : bits.toNat % 128 = 112
    · have h4 : bits.toNat % 4 ≠ 3 := by omega
      have hs : long = false := by simpa [h4] using hl
      subst hs
      have hlt : bits.toNat < 2 ^ 32 := by simpa using hb
      simp only [Bool.not_false, Bool.true_and, namedHint, Bool.or_eq_false_iff, decide_eq_false_iff_not] at hn
      obtain ⟨⟨⟨n1, n2⟩, n3⟩, n4⟩ := hn
      have g1 : ¬(fnat bits.toNat 28 4 = 1 ∧ fnat bits.toNat 7 21 ≠ 0) := by
        rintro ⟨a, b⟩; exact n4 ⟨h7, by simp only [fnat] at a; omega, b⟩
      rw [raw112 _ h7]
      simp only [decHint70]
      rw [if_neg n1, if_neg g1, if_neg n2, if_neg n3]
      simp
    · rw [raw_hint _ hm h7, ← hl]; simp
  exact ⟨by rw [he]; simp [decodeBits, hraw, show (Instr.hint long bits).wf = true from hf], by rw [he]; exact hlen⟩

end RoundTrip

end Sys2Proof.Laws
end

