-- ==== Sys2Proof/Tests/Slice0.lean ====
section
/-!
SUPPORT. Tests of the model: decoding of words built from the encoding tables, ill-formed terms, one step of each family with values taken from the
manual, and for every statement a state and operands that meet its hypotheses.
-/

namespace Sys2Proof.Tests

open Sys2Proof.Machine Sys2Proof.Claims

set_option maxRecDepth 100000
set_option exponentiation.threshold 20000

/-! ### Decoding -/

/-- Words of the encodings ADD to SFMAX_F32 of the opcode table, with the instruction each stands for. -/
noncomputable def words1 : List (Nat × Nat × Instr) :=
  [(32, 0x0057aa81, .add 21 61 10),
    (32, 0x02254d01, .sub 26 42 4),
    (32, 0x051ea281, .and 5 53 35),
    (32, 0x07330381, .or 7 24 38),
    (32, 0x090f6201, .xor 4 59 33),
    (32, 0x0a306701, .andn 14 3 6),
    (32, 0x0c2b6e01, .sll 28 27 5),
    (32, 0x0f20c801, .srl 16 6 36),
    (32, 0x11a88e01, .sra 28 4 53),
    (32, 0x13e91281, .ror 37 8 61),
    (32, 0x15352781, .min 15 41 38),
    (32, 0x17289e81, .max 61 4 37),
    (32, 0x18235301, .minu 38 26 4),
    (32, 0x1a19ff81, .maxu 63 15 3),
    (32, 0x204ef201, .seq 36 55 9),
    (32, 0x22536981, .sne 19 27 10)] ++
  [(32, 0x25291181, .slt 35 8 37),
    (32, 0x27ac8a01, .sltu 20 36 53),
    (32, 0x28399601, .sge 44 12 7),
    (32, 0x2b4cb301, .sgeu 38 37 41),
    (32, 0x19030682, .addi 13 24 100),
    (32, 0x104dd202, .andi 36 46 65),
    (32, 0x9e909282, .ori 37 4 634),
    (32, 0xae5c0702, .xori 14 32 697),
    (32, 0x0ca39182, .slli 35 28 50),
    (32, 0x09abca82, .srli 21 30 38),
    (32, 0x0633de02, .srai 60 30 24),
    (32, 0xcbba0a02, .slti 20 16 814),
    (64, 0xb2f14c9500000603, .li 12 3002158229),
    (64, 0x3e7d1bfc20001903, .liu 50 1048386556),
    (64, 0x930d6eb040000303, .lih 6 2467131056),
    (64, 0x8673472260000a03, .addil 20 2255701794)] ++
  [(32, 0xe0093006, .lea 32 458825),
    (32, 0x00edeb04, .mul 22 47 29),
    (32, 0x03fce984, .mulh 19 39 63),
    (32, 0x05090284, .mulhu 5 8 33),
    (32, 0x09896d84, .div 27 11 49),
    (32, 0x0be14b04, .divu 22 10 60),
    (32, 0x0c1b7004, .rem 32 27 3),
    (32, 0x0e2d7f04, .remu 62 43 5),
    (32, 0x20049884, .clz 49 36),
    (32, 0x22067284, .ctz 37 51),
    (32, 0x2406bc84, .popc 57 53),
    (32, 0x016aca85, .sfaddF32 21 22 45),
    (32, 0x0304eb85, .sfsubF32 23 39 32),
    (32, 0x04f69305, .sfmulF32 38 52 30),
    (32, 0x0636c285, .sfdivF32 5 54 6),
    (32, 0x08025e85, .sfsqrtF32 61 18)] ++
  [(32, 0x0b5daf85, .sfminF32 31 45 43),
    (32, 0x0d788285, .sfmaxF32 5 4 47)]

theorem test_words1_decode : ∀ p ∈ words1, decodeTableWord p.1 p.2.1 = some p.2.2 := by decide

/-- Words of the encodings SFCMP_EQ_F32 to JREG of the opcode table, with the instruction each stands for. -/
noncomputable def words2 : List (Nat × Nat × Instr) :=
  [(32, 0x0f529685, .sfcmpEqF32 45 20 42),
    (32, 0x11ad9285, .sfcmpLtF32 37 44 53),
    (32, 0x13726e85, .sfcmpLeF32 29 19 46),
    (32, 0x14072c85, .sfcvtF32I64 25 57),
    (32, 0x1602f585, .sfcvtI64F32 43 23),
    (32, 0x2007a105, .sfcvtF32F64 2 61),
    (32, 0x2202ef05, .sfcvtF64F32 30 23),
    (32, 0x40450585, .sfaddF64 11 40 8),
    (32, 0x42709005, .sfsubF64 32 4 14),
    (32, 0x444a7905, .sfmulF64 50 19 9),
    (32, 0x46d21805, .sfdivF64 48 16 26),
    (32, 0x48076d05, .sfsqrtF64 26 59),
    (32, 0x4a341c05, .sfminF64 56 32 6),
    (32, 0x4cd3a585, .sfmaxF64 11 29 26),
    (32, 0x4fca5205, .sfcmpEqF64 36 18 57),
    (32, 0x50e6a485, .sfcmpLtF64 9 53 28)] ++
  [(32, 0x52949c05, .sfcmpLeF64 56 36 18),
    (32, 0x54037705, .sfcvtF64I64 46 27),
    (32, 0x56058b85, .sfcvtI64F64 23 44),
    (32, 0xf5433c88, .lb 57 25 981),
    (32, 0x15494788, .lh 15 10 85),
    (32, 0x3b914608, .lw 12 10 238),
    (32, 0x0359f588, .ld 43 15 13),
    (32, 0x9726d008, .lbu 32 54 604),
    (32, 0x486a2608, .lhu 12 17 289),
    (32, 0x6bb14088, .lwu 1 10 430),
    (32, 0x9c431189, .sb 35 24 625),
    (32, 0xf40ab289, .sh 37 21 976),
    (32, 0xdc15a489, .sw 9 45 880),
    (32, 0x9e5fb089, .sd 33 61 633),
    (32, 0x0205950a, .acqld 42 44 1),
    (32, 0x19d3c00a, .relst 30 58 4)] ++
  [(32, 0x28f8ed0a, .rmwAdd 26 7 31 4),
    (32, 0x3429a20a, .rmwSwap 4 13 5 2),
    (32, 0x46416e8a, .rmwCas 29 11 8 3),
    (32, 0x5238938a, .rmwAnd 39 4 7 1),
    (32, 0x6319528a, .rmwOr 37 10 35 1),
    (32, 0x73431e8a, .rmwXor 61 24 40 1),
    (32, 0x8877028a, .rmwMin 5 56 14 4),
    (32, 0x968d250a, .rmwMax 10 41 17 3),
    (32, 0xa2fb138a, .rmwMinu 39 24 31 1),
    (32, 0xb906e40a, .rmwMaxu 8 55 32 4),
    (32, 0x16028f8c, .beq 31 20 88),
    (32, 0xc008e50c, .bne 10 7 768),
    (32, 0x44160b0c, .blt 22 48 272),
    (32, 0xb15ecf8c, .bge 31 54 709),
    (32, 0x0624458c, .bltu 11 34 24),
    (32, 0xf3efa70c, .bgeu 14 61 975)] ++
  [(32, 0x5c9bf10d, .jmp 34 189663),
    (32, 0x8b45a50e, .jreg 10 45 557)]

theorem test_words2_decode : ∀ p ∈ words2, decodeTableWord p.1 p.2.1 = some p.2.2 := by decide

/-- Words of the encodings LOOP to VMIN_VV of the opcode table, with the instruction each stands for. -/
noncomputable def words3 : List (Nat × Nat × Instr) :=
  [(32, 0x002abd90, .loop 59 341),
    (32, 0x01800111, .crr 2 48),
    (32, 0x88545891, .crw 49 34 266),
    (32, 0x00000012, .endTask),
    (32, 0x0357ea12, .wait 20 63 42),
    (32, 0x04070012, .pause 56),
    (32, 0x0600c012, .trap 6),
    (32, 0x08000012, .eret),
    (32, 0x0a000012, .uiret),
    (32, 0x0c000012, .halt),
    (32, 0x06000014, .fence 3),
    (32, 0x10000014, .fenceSv),
    (32, 0x12000014, .fenceVs),
    (32, 0x14000014, .bsync),
    (32, 0x20000014, .barb),
    (32, 0x0006f695, .launch 45 55)] ++
  [(32, 0x02022015, .split 17),
    (32, 0x04000015, .join),
    (32, 0x06c44015, .vfetch 34 24),
    (32, 0x005f6018, .tlbiVA 59 11),
    (32, 0x0202e018, .tlbiAS 23),
    (32, 0x04000018, .tlbiAll),
    (32, 0x1001f918, .wayset 50 15),
    (32, 0x02046016, .qpush 35 true),
    (32, 0x04001496, .qpop 41 false),
    (32, 0x08001416, .qpopNB 40 false),
    (32, 0x0c001a16, .qstat 52 false),
    (32, 0x00000070, .nop),
    (32, 0x10091a70, .hintCpf 4660),
    (32, 0x200000f0, .hintBt),
    (32, 0x20000070, .hintBn),
    (32, 0x05ebbf20, .act 14 7 3031)] ++
  [(32, 0x0c33a6a0, .actIndexed 13 4 7 67),
    (32, 0x10000420, .wbk 8),
    (32, 0x20000320, .pre 6),
    (32, 0x30000620, .preD 12),
    (32, 0x40000020, .prea),
    (32, 0x500000a0, .ref 1),
    (32, 0x600086a0, .refQ 1 13),
    (32, 0x70048420, .rstat 9 8),
    (32, 0x80000020, .fenceArray),
    (32, 0x90000020, .fenceArrayW),
    (64, 0xb9400000058a82a3, .rclone 5 false 2837 true 1832),
    (64, 0x000000001fa406a3, .rzero 13 true 3912),
    (32, 0x00418322, .cld 6 3 4),
    (32, 0x02440122, .cst 2 8 4),
    (32, 0x00542330, .vaddVV 6 4 8 10 false),
    (32, 0x0135fc30, .vsubVV 8 15 11 6 false)] ++
  [(32, 0x02f95f30, .vmulVV 14 11 2 15 true),
    (32, 0x034266b0, .vminVV 13 12 4 8 false)]

theorem test_words3_decode : ∀ p ∈ words3, decodeTableWord p.1 p.2.1 = some p.2.2 := by decide

/-- Words of the encodings VMAX_VV to VSRA_VV of the opcode table, with the instruction each stands for. -/
noncomputable def words4 : List (Nat × Nat × Instr) :=
  [(32, 0x0435ebb0, .vmaxVV 7 13 11 6 false),
    (32, 0x05b866b0, .vabs 13 12 7 true),
    (32, 0x061063b0, .vneg 7 12 2 false),
    (32, 0x07fd09b0, .vaddSVV 3 1 10 15 true),
    (32, 0x08d1deb0, .vsubSVV 13 11 3 10 true),
    (32, 0x00367db1, .vaddVX 11 15 12 3 false),
    (32, 0x02bc68b1, .vsubVX 1 13 24 11 false),
    (32, 0x053f64b1, .vmulVX 9 12 30 3 true),
    (32, 0x071da731, .vminVX 14 4 27 1 true),
    (32, 0x09d8aa31, .vmaxVX 4 5 17 13 true),
    (32, 0x0e374ab1, .vaddSVX 5 9 14 3 false),
    (32, 0x118ee7b1, .vsubSVX 15 12 29 8 true),
    (32, 0x04f0ff32, .vaddVI 14 15 225 9 false),
    (32, 0x18c39cb2, .vsubVI 9 3 135 1 true),
    (32, 0x20ce1eb2, .vrsub 13 3 156 1 false),
    (32, 0x364fc1b2, .vmulVI 3 8 159 12 false)] ++
  [(32, 0x4daa0cb2, .vminVI 9 1 84 11 true),
    (32, 0x54f196b2, .vmaxVI 13 2 227 9 false),
    (32, 0x6685aa32, .vsllVI 4 5 11 13 false),
    (32, 0x70c844b2, .vsrlVI 9 8 144 1 false),
    (32, 0x84ceb432, .vsraVI 8 6 157 9 false),
    (32, 0x9cba2e32, .vandVI 12 5 116 9 true),
    (32, 0xafd9a4b2, .vorVI 9 4 179 15 true),
    (32, 0xba72cfb2, .vxorVI 15 9 229 4 true),
    (64, 0x00034000005939b3, .vfma 3 7 2 8 3 11 false),
    (64, 0x00035800016a13b3, .vfms 7 2 4 11 3 13 false),
    (64, 0x002b600002986fb3, .vfmaX 15 13 5 12 3 3 true),
    (64, 0x00fa400003601fb3, .vfmsX 15 3 31 8 2 12 false),
    (64, 0x0d04000020587bb3, .vcvt 7 15 13 4 false 11 false),
    (64, 0x0b05800021b3e1b3, .vcvtMX 3 12 7 11 5 true 6 true),
    (64, 0x0703000022c93233, .vqntMX 4 6 2 7 3 false 9 true),
    (64, 0x0004000040b0e433, .vaddRm 8 12 1 4 6 true)] ++
  [(64, 0x0002000041af94b3, .vsubRm 9 2 15 2 5 true),
    (64, 0x00020000422ef8b3, .vmulRm 1 15 13 2 5 false),
    (32, 0x005fbf34, .vcmpEq 14 7 15 11),
    (32, 0x011baf34, .vcmpNe 14 5 7 3),
    (32, 0x02457cb4, .vcmpLt 9 15 10 8),
    (32, 0x03293634, .vcmpLe 12 6 2 5),
    (32, 0x041e68b4, .vcmpGt 1 13 12 3),
    (32, 0x05297bb4, .vcmpGe 7 15 2 5),
    (32, 0x066958b4, .vcmpUn 1 11 2 13),
    (32, 0x077512b4, .vcmpOr 5 2 10 14),
    (32, 0x00729235, .vandVV 4 2 5 14 false),
    (32, 0x01cb0c35, .vorVV 8 1 6 9 true),
    (32, 0x021d2fb5, .vxorVV 15 5 10 3 false),
    (32, 0x031264b5, .vandn 9 12 4 2 false),
    (32, 0x04180ab5, .vnot 5 1 3 false),
    (32, 0x084dafb5, .vsllVV 15 5 11 9 false)] ++
  [(32, 0x095cc2b5, .vsrlVV 5 8 9 11 false),
    (32, 0x0a8eb2b5, .vsraVV 5 6 13 1 true)]

theorem test_words4_decode : ∀ p ∈ words4, decodeTableWord p.1 p.2.1 = some p.2.2 := by decide

/-- Words of the encodings VSEL to VPSRA of the opcode table, with the instruction each stands for. -/
noncomputable def words5 : List (Nat × Nat × Instr) :=
  [(32, 0x1024e0b5, .vsel 1 12 9 4),
    (32, 0x04c210b6, .setvl 33 9 8 16),
    (32, 0x104007b6, .vcfg 15 8),
    (32, 0x20056136, .vsplat 2 43),
    (32, 0x30054736, .viota 14 42),
    (32, 0x42016e36, .vmovms 28 4 11),
    (32, 0x500404b6, .vmovsm 32 9),
    (64, 0x00050000002bff37, .vdiv 14 15 7 5 5),
    (64, 0x0000000001732637, .vrem 12 4 6 14),
    (64, 0x00020000023867b7, .vsqrt 15 12 2 7),
    (64, 0x0000000003700b37, .vrsqrte 6 1 14),
    (64, 0x00000000041009b7, .vexp2e 3 1 2),
    (32, 0x002fe5b8, .vpick 11 12 15 5),
    (32, 0x01081bb8, .vpack 7 3 1),
    (32, 0x02705938, .vspread 2 11 14),
    (32, 0x085cf3b8, .vmovup 7 14 9 11)] ++
  [(32, 0x096252b8, .vmovdn 5 10 4 12),
    (32, 0x0a1c0ab8, .vpushlo 5 1 8 3),
    (32, 0x0b0c29b8, .vpushhi 3 5 8 1),
    (32, 0x004832b9, .vtotal 5 6 9),
    (32, 0x01082339, .vtotalSeq 6 4 1),
    (32, 0x02202fb9, .vleast 15 5 4),
    (32, 0x03081b39, .vmost 6 3 1),
    (32, 0x04103b39, .vband 6 7 2),
    (32, 0x05482c39, .vbor 8 5 9),
    (32, 0x064825b9, .vbxor 11 4 9),
    (32, 0x08290eb9, .vtotalMX 13 1 2 5),
    (32, 0x0001973a, .mkand 14 2 3),
    (32, 0x0100d3ba, .mkor 7 10 1),
    (32, 0x02028bba, .mkxor 7 1 5),
    (32, 0x03025aba, .mkandn 5 11 4),
    (32, 0x0400513a, .mknot 2 10)] ++
  [(32, 0x080074ba, .mkbelow 9 14),
    (32, 0x09001eba, .mkupto 13 3),
    (32, 0x0a007dba, .mkfirst 11 15),
    (64, 0x0d0000000057ee3b, .vlut 12 13 15 13 10),
    (64, 0x5404600001286bbb, .vhad 7 13 84 12 4 false 5),
    (32, 0x0005d63c, .vpcfg 12 10 11 false),
    (32, 0x017e70bc, .vpadd 1 14 12 15),
    (32, 0x0263dcbc, .vpsub 9 11 7 12),
    (32, 0x031cee3c, .vpmul 12 13 9 3),
    (32, 0x0456cfbc, .vpcmpEq 15 9 13 10),
    (32, 0x0558ef3c, .vpcmpNe 14 13 1 11),
    (32, 0x0667ed3c, .vpcmpLt 10 13 15 12),
    (32, 0x071265bc, .vpcmpLe 11 12 4 2),
    (32, 0x083598bc, .vpcmpGt 1 3 11 6),
    (32, 0x0947393c, .vpcmpGe 2 7 14 8),
    (32, 0x0a258cbc, .vpsll 9 1 11 4)] ++
  [(32, 0x0b68ac3c, .vpsrl 8 5 1 13),
    (32, 0x0c4fe13c, .vpsra 2 12 15 9)]

theorem test_words5_decode : ∀ p ∈ words5, decodeTableWord p.1 p.2.1 = some p.2.2 := by decide

/-- Words of the encodings VPCNT to FAR_CAS of the opcode table, with the instruction each stands for. -/
noncomputable def words6 : List (Nat × Nat × Instr) :=
  [(32, 0x0d104fbc, .vpcnt 15 9 2),
    (32, 0x10614dbc, .vtrp 11 9 2 12),
    (32, 0x116ac63c, .vtrw 12 8 5 13),
    (32, 0x000000c0, .mzero 1),
    (32, 0x016e2140, .mopa 2 4 12 13 false),
    (32, 0x02c5e0c0, .mops 1 12 11 8 true),
    (32, 0x0377c140, .mopaMX 14 2 8 15),
    (32, 0x0458e940, .mopsMX 11 2 13 1),
    (32, 0x0802d9c0, .mld 3 11 5),
    (32, 0x09025940, .mldP 2 11 4),
    (32, 0x0a035240, .mst 1 10 6),
    (32, 0x0b031c40, .mstP 2 3 6),
    (32, 0x10005940, .mscale 2 11),
    (32, 0x110001c0, .mchk 3),
    (64, 0x01a0000000502e43, .pexp 12 5 1 5 10),
    (64, 0x05c0100001401d43, .psplit 10 3 1 5 6 8)] ++
  [(64, 0x00625b0002640843, .pmma false 2 1 8 5 11 3 false false 12),
    (64, 0x0b09950003000043, .pfold true 1 9 5 11),
    (32, 0x078fec50, .grot 8 13 31 15),
    (32, 0x112824d0, .gbcast 9 4 80 2),
    (32, 0x2280c7d0, .gperm 15 8 1 5),
    (32, 0x371f9450, .gxch 8 2 63 14),
    (32, 0x428044d0, .gredSum 9 8 5),
    (32, 0x4780a3d0, .gredMin 7 4 15),
    (32, 0x410127d0, .gredMax 15 4 2),
    (32, 0x41819550, .gredAnd 10 2 3),
    (32, 0x42824e50, .gredOr 12 9 5),
    (32, 0x45029b50, .gredXor 6 3 10),
    (32, 0x0160a051, .cwb 5 44),
    (32, 0x022d8051, .cwbi 44 5),
    (32, 0x0440e051, .cinv 7 8),
    (32, 0x06000051, .cwball)] ++
  [(32, 0x08000051, .cwbiall),
    (64, 0xa97823d200600753, .farLd 14 21 533458 3 1 1 12),
    (64, 0x44b7f75a01883053, .farSt 6 8 522074 3 2 4 true 1),
    (64, 0x0c7f3309022c01d3, .farGather 3 1 996105 8 3 1 4 5),
    (64, 0x2bb6a8ae03936053, .farScatter 12 5 436398 6 3 2 3 true 2),
    (64, 0x5cb0072204937053, .farScadd 14 11 1826 6 3 2 4 true 2),
    (64, 0xbbb03004003627d7, .farAdd 15 4 23 12292 12 3 2 3 false 6),
    (64, 0x69affb0e01373957, .farFadd 2 7 13 1047310 14 2 2 1 false 6),
    (64, 0xcba4670a02173fd7, .farMin 15 7 25 288522 14 2 2 3 false 2),
    (64, 0xb2a491ea032df0d7, .farMax 1 14 22 299498 11 2 2 2 false 5),
    (64, 0x5cb309a0047ecbd7, .farMinu 7 9 11 199072 13 3 2 4 false 15),
    (64, 0xc9aa1827057be8d7, .farMaxu 1 13 25 661543 7 2 2 1 false 15),
    (64, 0x7ba9d6b10646be57, .farAnd 12 7 15 644785 13 2 2 3 false 8),
    (64, 0xf4a8cd3f0739f8d7, .farOr 1 15 30 576831 3 2 2 4 false 7),
    (64, 0x54b41786085e2b57, .farXor 6 5 10 268166 12 3 2 4 false 11),
    (64, 0x81b8eacb091daa57, .farSwap 4 5 16 584395 11 3 2 1 false 3)] ++
  [(64, 0x3ab8027b0ac79dd7, .farCas 11 3 7 524923 15 3 2 2 true 8)]

theorem test_words6_decode : ∀ p ∈ words6, decodeTableWord p.1 p.2.1 = some p.2.2 := by decide

/-- Words without a row of their own: hints of either length (02:R45, R48); NOP and HINT.CPF beside a word of their major that names neither (17:R395). -/
noncomputable def wordsApart : List (Nat × Nat × Instr) :=
  [(32, 0x00000019, .hint false 0x19), (32, 0xABCDE07E, .hint false 0xABCDE07E), (64, 0x123456789ABCDE1F, .hint true 0x123456789ABCDE1F),
   (32, 0x00000070, .nop), (32, 0x10000270, .hintCpf 4), (32, 0x10000070, .hint false 0x10000070)]

theorem test_words_without_a_row_decode : ∀ p ∈ wordsApart, decodeTableWord p.1 p.2.1 = some p.2.2 := by decide

/-- Illegal words (02:R35, R45): all zeros, all ones, an illegal major of either length, a function without a row, a reserved bit, an operand out of range. -/
theorem test_illegal_words_are_refused : ∀ p ∈ [(32, 0x00000000), (64, 0xFFFFFFFFFFFFFFFF), (64, 0x00800013), (32, 0x00000021), (32, 0x80000012),
    (32, 0x00580111), (32, 0x00001012), (32, 0x00002110), (32, 0x08060040)], decodeTableWord p.1 p.2 = none := by decide

/-! ### Ill-formed terms -/

/-- For each check of WellFormed a term that just fails it, and one that just passes. -/
noncomputable def formChecks : List (Instr × Instr) :=
  [(.hintCpf 0, .hintCpf 1), (.hint false 0x70, .hint false 0x10000070), (.hint false 0x18, .hint false 0x19), (.hint true 0x19, .hint true 0x1B),
   (.hint false 0x100000019, .hint false 0xFFFFFF99),
   (.complementPair (.vaddVV 2 0 1 0 true) (.vsubVV 2 0 1 0 false), .complementPair (.vaddVV 2 0 1 3 true) (.vsubVV 2 0 1 0 false)),
   (.complementPair (.vaddVV 2 0 1 3 true) (.vsubVV 2 0 1 3 false), .complementPair (.vaddVV 2 0 1 3 true) (.vsel 2 0 1 0)),
   (.complementPair (.vaddVV 2 0 1 3 true) (.vcmpEq 2 0 1 0), .complementPair (.vaddVV 2 0 1 15 true) (.vabs 2 0 0 false)),
   (.vfma 1 2 3 4 6 0 false, .vfma 1 2 3 4 5 0 false), (.vfms 1 2 3 4 7 0 false, .vfms 1 2 3 4 0 0 false),
   (.vfmaX 1 2 3 4 6 0 false, .vfmaX 1 2 3 4 5 0 false), (.vfmsX 1 2 3 4 6 0 false, .vfmsX 1 2 3 4 5 0 false),
   (.vcvt 1 2 16 0 false 0 false, .vcvt 1 2 15 0 false 0 false), (.vcvt 1 2 0 6 false 0 false, .vcvt 1 2 0 5 true 0 false),
   (.vcvtMX 1 2 3 16 0 false 0 false, .vcvtMX 1 2 3 15 5 false 0 false), (.vqntMX 1 2 3 0 6 false 0 false, .vqntMX 1 2 3 0 5 false 0 false),
   (.vaddRm 1 2 3 6 0 false, .vaddRm 1 2 3 5 0 false), (.vsubRm 1 2 3 6 0 false, .vsubRm 1 2 3 5 0 false), (.vmulRm 1 2 3 6 0 false, .vmulRm 1 2 3 5 0 false),
   (.setvl 1 12 1 2, .setvl 1 11 1 2), (.vmovms 1 5 2, .vmovms 1 4 2), (.vdiv 1 2 3 6 0, .vdiv 1 2 3 5 0), (.vsqrt 1 2 6 0, .vsqrt 1 2 5 0),
   (.vtotalSeq 1 1 0, .vtotalSeq 1 2 0), (.vlut 1 2 3 16 0, .vlut 1 2 3 15 0), (.vhad 1 2 0 0 6 false 0, .vhad 1 2 0 0 5 false 0),
   (.mld 1 2 8, .mld 1 2 7), (.mst 1 2 8, .mst 1 2 7), (.mldP 1 2 15, .mldP 2 2 15), (.mstP 3 2 0, .mstP 0 2 0),
   (.pexp 1 2 2 1 0, .pexp 1 2 1 1 0), (.pexp 1 2 0 0 0, .pexp 1 2 0 7 0), (.psplit 1 2 3 8 1 0, .psplit 1 2 3 7 1 0), (.psplit 1 2 3 0 0 0, .psplit 1 2 3 0 7 0),
   (.pmma true 3 1 2 3 4 1 false false 0, .pmma true 1 1 2 3 4 1 false false 0), (.pmma false 2 1 2 3 4 0 false false 0, .pmma false 2 1 2 3 4 7 false false 0),
   (.pfold false 1 1 2 0, .pfold false 2 1 2 0), (.pfold false 2 1 2 13, .pfold false 2 1 2 12), (.gxch 1 2 0 0, .gxch 1 2 1 0), (.gxch 1 2 64 0, .gxch 1 2 63 0),
   (.cwb 1 1, .cwb 0 0), (.cwbi 63 63, .cwbi 63 62), (.cinv 5 5, .cinv 5 0),
   (.farLd 1 2 3 0 2 0 0, .farLd 1 2 3 0 1 4 0), (.farLd 1 2 3 0 0 1 0, .farLd 1 2 3 0 0 0 0), (.farLd 1 2 3 0 1 5 0, .farLd 1 2 3 0 1 0 0),
   (.farSt 1 2 3 0 1 0 false 0, .farSt 1 2 3 0 2 4 true 0), (.farGather 1 2 3 4 0 3 0 0, .farGather 1 2 3 4 3 1 4 0),
   (.farScatter 1 2 3 4 0 2 5 false 0, .farScatter 1 2 3 4 0 2 4 false 0), (.farScadd 1 2 3 4 0 0 1 false 0, .farScadd 1 2 3 4 0 0 0 false 0),
   (.farAdd 1 2 3 4 5 1 0 0 false 0, .farAdd 1 2 3 4 5 2 3 4 false 0), (.farAdd 1 2 3 4 5 2 0 0 true 0, .farAdd 0 2 3 4 5 2 0 0 true 0),
   (.farAdd 0 2 3 4 5 2 1 0 true 0, .farAdd 0 2 3 4 5 2 2 0 true 0), (.farFadd 1 2 3 4 5 3 0 0 false 0, .farFadd 1 2 3 4 5 2 0 0 false 0),
   (.farMin 1 2 3 4 5 2 0 5 false 0, .farMin 1 2 3 4 5 2 0 4 false 0), (.farMax 1 2 3 4 5 0 0 0 false 0, .farMax 1 2 3 4 5 3 0 0 false 0),
   (.farMinu 1 2 3 4 5 2 3 0 true 0, .farMinu 0 2 3 4 5 2 0 0 true 0), (.farMaxu 1 2 3 4 5 2 0 7 false 0, .farMaxu 1 2 3 4 5 2 0 0 false 0),
   (.farAnd 1 2 3 4 5 1 0 0 false 0, .farAnd 1 2 3 4 5 2 0 0 false 0), (.farOr 1 2 3 4 5 1 0 0 false 0, .farOr 1 2 3 4 5 2 0 0 false 0),
   (.farXor 1 2 3 4 5 1 0 0 false 0, .farXor 1 2 3 4 5 2 0 0 false 0), (.farSwap 1 2 3 4 5 1 0 0 false 0, .farSwap 1 2 3 4 5 2 0 0 false 0),
   (.farCas 1 2 3 4 5 1 0 0 true 0, .farCas 1 2 3 4 5 3 2 0 true 0),
   (.acqld 1 2 5, .acqld 1 2 4), (.relst 1 2 5, .relst 1 2 4), (.rmwAdd 1 2 3 5, .rmwAdd 1 2 3 4), (.rmwSwap 1 2 3 7, .rmwSwap 1 2 3 0),
   (.rmwCas 1 2 3 5, .rmwCas 1 2 3 4), (.rmwAnd 1 2 3 5, .rmwAnd 1 2 3 4), (.rmwOr 1 2 3 5, .rmwOr 1 2 3 4), (.rmwXor 1 2 3 5, .rmwXor 1 2 3 4),
   (.rmwMin 1 2 3 5, .rmwMin 1 2 3 4), (.rmwMax 1 2 3 5, .rmwMax 1 2 3 4), (.rmwMinu 1 2 3 5, .rmwMinu 1 2 3 4), (.rmwMaxu 1 2 3 5, .rmwMaxu 1 2 3 4),
   (.fence 5, .fence 4), (.loop 1 1, .loop 1 2), (.loop 1 (-1), .loop 1 0x3FFFF), (.crr 1 0x00B, .crr 1 0x00A), (.crr 1 0x00F, .crr 1 0x010),
   (.crr 1 0x018, .crr 1 0x017), (.crr 1 0x022, .crr 1 0x021), (.crr 1 0x036, .crr 1 0x035), (.crr 1 0x02F, .crr 1 0x030), (.crr 1 0x042, .crr 1 0x041),
   (.crw 1 2 0x086, .crw 1 2 0x085), (.crw 1 2 0x07F, .crw 1 2 0x080), (.crw 1 2 0x140, .crw 1 2 0x13F), (.crw 1 2 0x0FF, .crw 1 2 0x100)]

theorem test_ill_formed_terms_are_refused : ∀ p ∈ formChecks, p.1.wf = false ∧ p.2.wf = true := by decide

/-! ### States -/

/-- The translation of page 0 to physical page 0 with every permission, CC and every dirty bit. -/
def page0 : Xlat := ⟨.tlb 0, 0x5000, 0, 0x3F000000, 0xFFFF0000000001FF, 0, none, false⟩

/-- The same in the fetch cache of front end 0, of bank 0's sequencer, in the row cache of bank 0. -/
def page0F : Xlat := { page0 with cache := .front 0 }
def page0S : Xlat := { page0 with cache := .seq 0 }
def page0R : Xlat := { page0 with cache := .row 0 }

/-- A task of launch 0 of stack 0. -/
def task0 : TaskInfo := ⟨⟨0, 0, 0⟩, 0, 0x5000, 0, 0, 0, 1, 1, 0, false, false, 0⟩

/-- Front end 0 of stack 0, bound to its two home half-slabs: 16 banks. -/
def stack0 : Stack := { Stack.reset with fronds := [⟨0, 3, 0, false, 0, 0, 0, false, false, 16⟩] }

/-- A control thread that owns bank 0 and runs at 0x1000 at user level. -/
def thread0 : Thread :=
  { Thread.reset with bmask := 1, bpart := ⟨1, 1, 1, 0⟩, cond := .running, task := some task0, front := { Front.reset with pc := 0x1000 } }

/-- The module in service, with one task on thread 0 of stack 0. -/
def s0 : State := { State.reset with thr := thread0, stks := [(0, stack0)], xlat := [page0, page0F, page0S, page0R], boot := ⟨true, true, 5, 0, 0⟩ }

/-- A state with values in s registers, each with the residue of its value. -/
def regs (l : List (Fin 64 × Word)) : State := l.foldl (fun s p => s.setS p.1 (formed p.2)) s0

/-- Elements of width w packed from element 0 on. -/
def packedRow (w : Nat) (l : List Nat) : RowBits := BitVec.ofNat 16384 (l.foldr (fun v n => v + n * 2 ^ w) 0)

/-- Bank 0 with row registers 1, 2, … of one tag and width that hold the lists, and mask m3. -/
def rowsBank (t : BitVec 4) (w : Nat) (ls : List (List Nat)) (m : Nat) : Bank :=
  let x : Bank := { Bank.reset with m := Bank.reset.m.set 3 (BitVec.ofNat 2048 m) }
  { x with w := Vector.ofFn (fun k : Fin 16 => match k.val with
      | 0 => WReg.reset
      | n + 1 => { WReg.reset with tag := t, latch := packedRow w ((ls[n]?).getD []) }) }

/-- s0 with such registers in bank 0, and a vector length of n elements. -/
def rowsIn (t : BitVec 4) (w : Nat) (ls : List (List Nat)) (m n : Nat) : State :=
  let s := s0.setBank 0 (rowsBank t w ls m)
  s.setFront { s.front with vlcfg := ⟨BitVec.ofNat 15 n, BitVec.ofNat 15 n, 0, t⟩ }

/-- Element i of width w of register k in bank 0. -/
def el (s : State) (k : Fin 16) (w i : Nat) : Nat := getEl ((s.bank 0).w[k]).latch w i

/-- The instruction completes in a state that passes the test. -/
noncomputable def gives (i : Instr) (s : State) (p : State → Bool) : Bool := match exec i s with | .next t => p t | _ => false

/-! ### One step of each family -/

/-- Sums wrap, the residue of a wrapped sum is that of its value, s0 stays zero (15:R328, R330, R354). -/
theorem test_add_wraps : gives (.add 3 1 2) (regs [(1, 0xFFFFFFFFFFFFFFFF), (2, 2)]) (fun t => decide ((t.getS 3) = ⟨1, 1⟩ ∧ t.front.pc = 0x1004)) = true := by
  decide

theorem test_s0_discards : gives (.addi 0 1 5) (regs [(1, 7)]) (fun t => decide (t.sval 0 = 0 ∧ t.front.pc = 0x1004)) = true := by decide

/-- Division: by zero all ones and the dividend; the most negative by -1 is itself with remainder 0 (15:R333). -/
theorem test_division_corners :
    gives (.div 3 1 0) (regs [(1, 7)]) (fun t => decide (t.sval 3 = 0xFFFFFFFFFFFFFFFF)) = true ∧
    gives (.div 3 1 2) (regs [(1, 0x8000000000000000), (2, 0xFFFFFFFFFFFFFFFF)]) (fun t => decide (t.sval 3 = 0x8000000000000000)) = true ∧
    gives (.rem 3 1 2) (regs [(1, 0xFFFFFFFFFFFFFFF9), (2, 2)]) (fun t => decide (t.sval 3 = 0xFFFFFFFFFFFFFFFF)) = true := by decide

theorem test_shifts_and_compares :
    gives (.sra 3 1 2) (regs [(1, 0x8000000000000000), (2, 67)]) (fun t => decide (t.sval 3 = 0xF000000000000000)) = true ∧
    gives (.slt 3 1 2) (regs [(1, 0xFFFFFFFFFFFFFFFF), (2, 0)]) (fun t => decide (t.sval 3 = 1)) = true ∧
    gives (.sltu 3 1 2) (regs [(1, 0xFFFFFFFFFFFFFFFF), (2, 0)]) (fun t => decide (t.sval 3 = 0)) = true ∧
    gives (.mulh 3 1 2) (regs [(1, 0xFFFFFFFFFFFFFFFF), (2, 3)]) (fun t => decide (t.sval 3 = 0xFFFFFFFFFFFFFFFF)) = true ∧
    gives (.clz 3 1) (regs [(1, 0)]) (fun t => decide (t.sval 3 = 64)) = true := by decide

theorem test_literals : gives (.li 3 0x80000000) s0 (fun t => decide (t.sval 3 = 0xFFFFFFFF80000000 ∧ t.front.pc = 0x1008)) = true ∧
    gives (.lih 3 0x12345678) (regs [(3, 0xFFFFFFFF00000001)]) (fun t => decide (t.sval 3 = 0x1234567800000001)) = true ∧
    gives (.lea 3 (-1)) s0 (fun t => decide (t.sval 3 = 0xFFC)) = true := by decide

/-- 1.5 + 2.25; 1 / 0 gives infinity and DZ; the square root of -1 the canonical NaN and NV (06:R131, R132, 07:R159). -/
theorem test_scalar_floats :
    gives (.sfaddF32 3 1 2) (regs [(1, 0x3FC00000), (2, 0x40100000)]) (fun t => decide (t.sval 3 = 0x40700000 ∧ t.thr.flags = 0)) = true ∧
    gives (.sfdivF32 3 1 2) (regs [(1, 0x3F800000), (2, 0)]) (fun t => decide (t.sval 3 = 0x7F800000 ∧ t.thr.flags = 8)) = true ∧
    gives (.sfsqrtF64 3 1) (regs [(1, 0xBFF0000000000000)]) (fun t => decide (t.sval 3 = 0x7FF8000000000000 ∧ t.thr.flags = 16)) = true := by decide

/-- A store of 4 bytes, then a signed and an unsigned load of the top byte (00:R7, 15:R337). -/
theorem test_store_then_load :
    gives (.sw 2 1 4) (regs [(1, 0x200), (2, 0x1122334480FF0000)]) (fun s => gives (.lb 5 1 7) s (fun t => decide (t.sval 5 = 0xFFFFFFFFFFFFFF80)) &&
      gives (.lhu 5 1 6) s (fun t => decide (t.sval 5 = 0x80FF)) && gives (.ld 5 1 8) s (fun t => decide (t.sval 5 = 0))) = true := by decide

/-- A misaligned load traps with cause 5 and its address; an address past 2^52 with cause 6 (15:R338). -/
theorem test_access_traps :
    gives (.lw 5 1 2) (regs [(1, 0x200)]) (fun t => decide (t.thr.tr.cause = 5 ∧ t.thr.tr.val = 0x202 ∧ t.thr.level = .supervisor)) = true ∧
    gives (.ld 5 1 0) (regs [(1, 0x10000000000000)]) (fun t => decide (t.thr.tr.cause = 6 ∧ t.thr.tr.pc = 0x400)) = true := by decide

theorem test_compare_and_swap :
    gives (.sd 2 1 0) (regs [(1, 0x200), (2, 41), (3, 41), (4, 9), (5, 8)]) (fun s =>
      gives (.rmwCas 3 1 4 0) s (fun t => decide (t.sval 3 = 41) && gives (.ld 6 1 0) t (fun u => decide (u.sval 6 = 9))) &&
      gives (.rmwCas 5 1 4 0) s (fun t => decide (t.sval 5 = 41) && gives (.ld 6 1 0) t (fun u => decide (u.sval 6 = 41)))) = true := by decide

theorem test_branch_and_link :
    gives (.blt 1 2 (-2)) (regs [(1, 0xFFFFFFFFFFFFFFFF), (2, 0)]) (fun t => decide (t.front.pc = 0xFF8)) = true ∧
    gives (.bltu 1 2 (-2)) (regs [(1, 0xFFFFFFFFFFFFFFFF), (2, 0)]) (fun t => decide (t.front.pc = 0x1004)) = true ∧
    gives (.jmp 63 64) s0 (fun t => decide (t.front.pc = 0x1100 ∧ t.sval 63 = 0x1004)) = true := by decide

/-- LOOP of two passes of one instruction: the body, the body again, the address after it (15:R345, R346). -/
theorem test_loop_runs_its_body_twice :
    gives (.loop 1 2) (regs [(1, 2)]) (fun a => decide (a.front.pc = 0x1004) && gives .nop a (fun b => decide (b.front.pc = 0x1004) &&
      gives .nop b (fun c => decide (c.front.pc = 0x1008 ∧ c.front.depth = 0)))) = true := by decide

/-- TRAP saves the next address; ERET goes back there (17:R390, R391). -/
theorem test_trap_and_return :
    gives (.trap 1) (regs [(1, 77)]) (fun t => decide (t.thr.tr.cause = 0x14 ∧ t.thr.tr.val = 77 ∧ t.thr.tr.pc = 0x401 ∧ t.thr.level = .supervisor) &&
      gives .eret t (fun u => decide (u.front.pc = 0x1004 ∧ u.thr.level = .user))) = true ∧
    gives .eret s0 (fun t => decide (t.thr.tr.cause = 2 ∧ t.thr.tr.val = 0x08000012 ∧ t.thr.tr.pc = 0x400)) = true := by decide

/-- The strips of 07:R150's worked grant: 904 of the format E4M3 in blocks of 32 grant 928; FP64 in blocks of 512 traps. -/
theorem test_worked_grant :
    gives (.setvl 3 5 6 1) (regs [(1, 904)]) (fun t => decide (t.sval 3 = 904 ∧ t.front.vlcfg = ⟨904, 928, 5, 6⟩)) = true ∧
    gives (.setvl 3 5 6 1) (regs [(1, 5000)]) (fun t => decide (t.sval 3 = 2048 ∧ t.front.vlcfg.vl = 2048)) = true ∧
    gives (.setvl 3 9 12 1) (regs [(1, 1)]) (fun t => decide (t.thr.tr.cause = 0x0D ∧ t.thr.tr.val = 1)) = true := by decide

/-- INT8: the sum wraps, the saturating sum clamps, element 1 is masked off, element 3 is past LIVE (07:R151, R153, 08:R180). -/
theorem test_vector_sums :
    gives (.vaddVV 3 1 2 3 false) (rowsIn 1 8 [[127, 127, 1, 1], [1, 1, 2, 2], [9, 9, 9, 9]] 5 3)
      (fun t => (List.range 4).map (el t 3 8) == [128, 9, 3, 9]) = true ∧
    gives (.vaddSVV 3 1 2 0 false) (rowsIn 1 8 [[127], [1]] 0 1) (fun t => el t 3 8 0 == 127) = true := by decide

/-- The complement pair of 02:R41: the sum where m3 holds 1, the difference elsewhere. -/
theorem test_complement_pair :
    gives (.complementPair (.vaddVV 4 1 2 3 true) (.vsubVV 4 1 2 0 false)) (rowsIn 4 32 [[7, 7], [2, 2]] 1 2)
      (fun t => (List.range 2).map (el t 4 32) == [9, 5] && decide (t.front.pc = 0x1008)) = true := by decide

theorem test_vector_compare :
    gives (.vcmpLt 5 1 2 0) (rowsIn 3 16 [[0xFFFF, 3, 2], [0, 3, 5]] 0 3) (fun t => decide (((t.bank 0).m[5]).toNat = 5)) = true := by decide

/-- The conversion of 07:R157 under SR, from the seed of a task's start: 0x3F81 then 0x3F80, and the LFSR it ends with. -/
theorem test_worked_stochastic_rounding :
    let s := rowsIn 11 32 [[0x3F80C000, 0x3F80C000]] 0 2
    let x := s.bank 0
    gives (.vcvt 2 1 0 5 false 0 false) (s.setBank 0 { x with w := x.w.set 2 { x.w[2] with tag := 10 } })
      (fun t => (List.range 2).map (el t 2 16) == [0x3F81, 0x3F80] && decide ((t.bank 0).lfsr = 0xC0300002 ∧ (t.bank 0).flags = 1)) = true := by decide

/-- E2M1 and E4M3 codes of -2.75 and of 500 (06:R143's worked encodings). -/
theorem test_worked_conversions :
    let s := rowsIn 11 32 [[0xC0300000, 0x43FA0000]] 0 2
    let x := s.bank 0
    gives (.vcvt 2 1 0 1 false 0 false) (s.setBank 0 { x with w := x.w.set 2 { x.w[2] with tag := 6 } })
      (fun t => (List.range 2).map (el t 2 8) == [0xC3, 0x7F] && decide ((t.bank 0).flags = 5)) = true ∧
    gives (.vcvt 2 1 0 1 false 0 false) (s.setBank 0 { x with w := x.w.set 2 { x.w[2] with tag := 8 } })
      (fun t => el t 2 4 0 == 0xD) = true := by decide

/-- The sums of 09's worked pair: 1.0 unordered, 0 and the inexact flag ordered. -/
theorem test_worked_reductions :
    let s := rowsIn 11 32 [[0x4B800000, 0x3F800000, 0x3F800000, 0xCB800000], [], [], []] 0 4
    gives (.vtotal 3 1 0) s (fun t => el t 3 32 0 == 0x3F800000) = true ∧
    gives (.vtotalSeq 4 1 0) s (fun t => el t 4 32 0 == 0 && el t 4 32 1 == 1) = true := by decide

/-- The butterfly of 09's worked example. -/
theorem test_worked_butterfly :
    let s := rowsIn 11 32 [[0x3F800000, 0x40000000, 0x40400000, 0x40800000]] 0 4
    let x := s.bank 0
    gives (.vhad 2 1 0x10 0 1 false 0) (s.setBank 0 { x with w := x.w.set 2 { x.w[2] with tag := 10 } })
      (fun t => (List.range 4).map (el t 2 16) == [0x4120, 0xC000, 0xC080, 0] && decide ((t.bank 0).flags = 0)) = true := by decide

theorem test_permutes :
    gives (.vpick 3 1 2 0) (rowsIn 1 8 [[10, 11, 12, 13], [3, 3, 0, 1]] 0 4) (fun t => (List.range 4).map (el t 3 8) == [13, 13, 10, 11]) = true ∧
    gives (.vpack 3 1 3) (rowsIn 1 8 [[10, 11, 12, 13]] 10 4) (fun t => (List.range 2).map (el t 3 8) == [11, 13]) = true := by decide

/-- Masks: MKUPTO up to the first live 1, and VMOVMS COUNT and FIRST (09:R214, R215). -/
theorem test_masks :
    gives (.mkupto 4 3) (rowsIn 1 8 [] 0x20 16) (fun t => decide (((t.bank 0).m[4]).toNat = 0x3F)) = true ∧
    gives (.vmovms 5 2 3) (rowsIn 1 8 [] 0x1020 16) (fun t => decide (t.sval 5 = 2)) = true ∧
    gives (.vmovms 5 3 3) (rowsIn 1 8 [] 0x1020 16) (fun t => decide (t.sval 5 = 5)) = true := by decide

/-- The product of 09's worked multiply: 15, 21, 0 and 3 in planes w8 to w12. -/
theorem test_worked_plane_product :
    let x : Bank := { Bank.reset with w := Vector.ofFn (fun k : Fin 16 =>
      { WReg.reset with tag := 15, latch := BitVec.ofNat 16384 (([11, 10, 3, 0, 11, 7][k.val]?).getD 0) }) }
    let s := s0.setBank 0 x
    gives (.vpmul 8 0 4 0) (s.setFront { s.front with vlcfg := ⟨4, 4, 0, 15⟩, pcfg := ⟨false, 4, 2, 1⟩ })
      (fun t => ([8, 9, 10, 11, 12] : List (Fin 16)).map (fun k => el t k 1 0 + 2 * el t k 1 1 + 4 * el t k 1 2 + 8 * el t k 1 3) == [11, 9, 3, 1, 2]) = true := by
  decide

/-- ACT opens a row with its bytes, WBK starts the write-back, and FENCE.ARRAY ends it (05:R113, R116, R125). -/
theorem test_row_open :
    gives (.act 0 1 2) { s0 with dram := [(0x1003, 0x5A)] }
      (fun t => el t 0 8 3 == 0x5A && decide (((t.bank 0).w[(0 : Fin 16)]).state = .openClean ∧ ((t.bank 0).w[(0 : Fin 16)]).tag = 1)) = true ∧
    gives (.wbk 1) s0 (fun t => decide (t.thr.tr.cause = 0x0B ∧ t.thr.tr.val = 0x100)) = true := by decide

theorem test_row_clear :
    gives (.rzero 0 false 2) { s0 with dram := [(0x0FFF, 1), (0x1003, 0x5A), (0x17FF, 3), (0x1800, 4)] }
      (fun t => decide (t.dram = [(0x0FFF, 1), (0x1800, 4)])) = true := by decide

/-- One update of INT8 by INT8 with 64 elements, of which two of wa and one of wb are not zero: elements (1, 2) and (3, 2) of tile 1 and the checksum row
gain the products, modulo 2^32 (10:R225, R228, R244). -/
theorem test_matrix_update :
    gives (.mopa 1 1 2 0 true) (rowsIn 1 8 [[0, 5, 0, 253], [0, 0, 7]] 0 64) (fun t =>
      let x := t.bank 0
      decide (getEl x.t[1] 32 66 = 35 ∧ getEl x.t[1] 32 194 = 2 ^ 32 - 21 ∧ getEl x.t[1] 32 67 = 0 ∧ getEl x.q[1] 32 3 = 2 ^ 32 - 21)) = true ∧
    gives (.mopa 1 1 2 0 true) (rowsIn 1 8 [] 0 32) (fun t => decide (t.thr.tr.cause = 0x0D)) = true := by decide +kernel

/-- Two banks exchange through the gallery: bank 1's element arrives in bank 0, and the sum of both stands in bank 0 (12:R265, R266). -/
theorem test_gallery :
    let s := (rowsIn 4 32 [[7], [0]] 0 1).setBank 1 (rowsBank 4 32 [[9], [0]] 0)
    let u : State := { s with thr := { s.thr with bmask := 3, bpart := ⟨2, 1, 2, 0⟩ } }
    gives (.gxch 2 1 1 0) u (fun t => el t 2 32 0 == 9 && getEl ((t.bank 1).w[(2 : Fin 16)]).latch 32 0 == 7) = true ∧
    gives (.gredSum 2 1 0) u (fun t => el t 2 32 0 == 16 && getEl ((t.bank 1).w[(2 : Fin 16)]).latch 32 0 == 0) = true := by decide

/-- A far store of two elements and the load that brings them back (13:R292). -/
theorem test_far_store_and_load :
    let s := rowsIn 4 32 [[7, 9]] 0 2
    let x := s.bank 0
    gives (.farSt 1 5 16 2 0 0 false 0) (s.setBank 0 { x with x := x.x.set 5 (formed 0x400) })
      (fun t => decide (t.dram = [(0x410, 7), (0x414, 9)]) &&
        gives (.farLd 2 5 16 2 0 0 0) t (fun u => (List.range 2).map (el u 2 32) == [7, 9])) = true := by decide

/-- Writes of control registers: a VLCFG whose VL is no multiple of its block changes nothing; RMODE keeps RM for the code 6 (07:R149, R155). -/
theorem test_control_register_writes :
    gives (.registerWrite false 0x000 0x0000000300018201) s0 (fun t => decide (t.front.vlcfg = VlCfg.reset)) = true ∧
    gives (.rmodeWrite 0x16) s0 (fun t => decide (t.front.rmode = ⟨true, 1⟩)) = true := by decide

/-- END frees its thread (16:R369). -/
theorem test_end : gives .endTask s0 (fun t => decide (t.thr.task = none ∧ t.thr.cond = .idle)) = true := by decide

/-- QPUSH puts its word at the end of the queue's FIFO, QSTAT counts the space left (13:R305, R307). -/
theorem test_queue :
    gives (.qpush 1 false) (regs [(1, 5)]) (fun t => decide ((engineOf t 0 0).fifo.map (fun w => w.1) = [5]) &&
      gives (.qstat 2 false) t (fun u => decide (u.sval 2 = 0x1F0000))) = true := by decide

/-- A host write and read of DRAM; nothing is answered before READY (24:R494). -/
theorem test_host_access :
    gives (.hostAccess true 0x1000 2 0xAABBCCDD) s0 (fun t => decide (t.dram = [(0x1000, 0xDD), (0x1001, 0xCC), (0x1002, 0xBB), (0x1003, 0xAA)])) = true ∧
    gives .powerOn State.reset (fun t => decide (t.boot.on = true ∧ t.boot.ready = false)) = true := by decide

/-- Power-on starts phase 0; each phase that finishes starts the next (24:R492, R493). -/
theorem test_bringup_phases :
    gives .powerOn State.reset (fun t => gives (.bringupPhaseComplete 0) t (fun u => decide (u.boot.phase = 1 ∧ u.boot.ready = false))) = true := by decide +kernel

/-- A record without a completion word answers 3 and queues nothing (17:R381). -/
theorem test_launch_answers :
    gives (.launch 5 1) (regs [(1, 0x800)]) (fun t => decide (t.sval 5 = 3 ∧ (t.stack 0).devq = [])) = true := by decide

/-- A step runs the instruction at the pc: `addi s2, s0, 256`, then END (02:R33, 15). -/
theorem test_step_runs_the_word_at_the_pc :
    (match step { s0 with dram := [(0x1000, 0x02), (0x1001, 0x01), (0x1003, 0x40), (0x1004, 0x12)] } with
     | .next t => decide (t.sval 2 = 256 ∧ t.front.pc = 0x1004) && (match step t with | .next u => decide (u.thr.task = none) | _ => false)
     | _ => false) = true := by decide

/-! ### The hypotheses of the statements are met -/

/-- A loop stack with one level: the body from 0x1000 to 0x1008, n passes left. -/
def looping (n : BitVec 32) : Front := { s0.front with loops := s0.front.loops.set 0 ⟨n, 0x402, true, 0x400⟩ }

/-- s0 at supervisor level. -/
def s0Sup : State := { s0 with thr := { s0.thr with level := .supervisor } }

/-- s0 with a vector-side instruction waiting in the queue. -/
def s0Queue : State := { s0 with thr := { s0.thr with queue := [⟨0x800, .viota 1 2, captureCtx s0 0 0, none, none, none⟩] } }

/-- s0 in a bank thread of bank 0. -/
def s0Bank : State :=
  { s0 with cur := ⟨0, 0, some 0⟩, thr := { s0.thr with bts := [(0, { BankThread.reset with status := .running })], cond := .splitWait } }

theorem witness_DecodeOfEncode : ∀ i ∈ [Instr.add 63 63 63, .li 63 0xFFFFFFFF, .vfma 15 15 15 15 5 15 true, .loop 63 0x3FFFF, .hintCpf 1], i.wf = true := by
  decide

theorem witness_IntegerResults : ∀ i ∈ [Instr.add 0 1 2, .sub 1 2 3, .and 1 2 3, .or 1 2 3, .xor 1 2 3, .andn 1 2 3, .sll 1 2 3, .srl 1 2 3, .sra 1 2 3,
    .ror 1 2 3, .min 1 2 3, .max 1 2 3, .minu 1 2 3, .maxu 1 2 3, .seq 1 2 3, .sne 1 2 3, .slt 1 2 3, .sltu 1 2 3, .sge 1 2 3, .sgeu 1 2 3,
    .addi 1 2 0x1FF, .andi 1 2 3, .ori 1 2 3, .xori 1 2 3, .slli 1 2 63, .srli 1 2 0, .srai 1 2 3, .slti 1 2 3, .li 1 2, .liu 1 2, .lih 1 2, .addil 1 2,
    .lea 1 2, .mul 1 2 3, .mulh 1 2 3, .mulhu 1 2 3, .div 1 2 0, .divu 1 2 0, .rem 1 2 0, .remu 1 2 0, .clz 1 2, .ctz 1 2, .popc 63 63],
    (integerResult s0 i).isSome = true := by decide

theorem witness_PredictedResiduesAgree :
    (∀ r : Fin 64, (s0.getS r).res = rho (s0.sval r)) ∧ (integerResult s0 (.add 3 1 2)).isSome = true := by decide

theorem witness_FloatResults : ∀ i ∈ [Instr.sfaddF32 0 1 2, .sfsubF32 1 2 3, .sfmulF32 1 2 3, .sfdivF32 1 2 3, .sfsqrtF32 1 2, .sfminF32 1 2 3, .sfmaxF32 1 2 3,
    .sfcmpEqF32 1 2 3, .sfcmpLtF32 1 2 3, .sfcmpLeF32 1 2 3, .sfcvtF32I64 1 2, .sfcvtI64F32 1 2, .sfcvtF32F64 1 2, .sfcvtF64F32 1 2, .sfaddF64 1 2 3,
    .sfsubF64 1 2 3, .sfmulF64 1 2 3, .sfdivF64 1 2 3, .sfsqrtF64 1 2, .sfminF64 1 2 3, .sfmaxF64 1 2 3, .sfcmpEqF64 1 2 3, .sfcmpLtF64 1 2 3,
    .sfcmpLeF64 1 2 3, .sfcvtF64I64 1 2, .sfcvtI64F64 63 63], (floatResult s0 i).isSome = true ∧ (floatResult s0Bank i).isSome = true := by decide

/-- A taken branch, one not taken, one to a misaligned target; a jump, a linking jump, one to a misaligned target. -/
theorem witness_BranchAndJumpResults :
    branchRow s0 (.beq 1 2 4) = some (true, 4) ∧ branchRow s0 (.bne 1 1 4) = some (false, 4) ∧ (target s0 4).toNat % 4 = 0 ∧
    (target (withFront s0 (fun f => { f with pc := 0x1002 })) 4).toNat % 4 = 2 ∧ jumpRow s0 (.jmp 0 (-4)) = some (0, 0xFF0) ∧
    jumpRow s0 (.jreg 63 1 8) = some (63, 8) ∧ jumpRow s0 (.jreg 63 1 6) = some (63, 6) ∧ jumpResidueOk s0 (.jreg 63 1 8) ∧ jumpResidueOk s0 (.jreg 63 1 6) ∧
    (8 : Word).toNat % 4 = 0 ∧ (6 : Word).toNat % 4 ≠ 0 := by
  unfold jumpResidueOk addressResidueOk
  decide +kernel

/-- The least and the greatest offset; a count of 0, a full stack, a body that ends outside the innermost. -/
theorem witness_LoopPushes :
    2 ≤ (2 : BitVec 19).toInt ∧ fieldOf (target s0 (2 : BitVec 19).toInt) 51 32 = fieldOf (s0.front.pc + 4) 51 32 ∧
    2 ≤ (0x3FFFF : BitVec 19).toInt ∧ fieldOf (target s0 (0x3FFFF : BitVec 19).toInt) 51 32 = fieldOf (s0.front.pc + 4) 51 32 ∧
    fieldOf (s0.sval 1) 31 0 = 0 ∧
    ({ s0.front with loops := Vector.replicate 4 ⟨1, 0, true, 0⟩ } : Front).depth = 4 ∧
    (looping 1).depth = 1 ∧ (topLevel (looping 1)).startAddr ≤ 0x1000 ∧ 0x1000 < (topLevel (looping 1)).endAddr ∧
    (topLevel (looping 1)).endAddr < (target s0 3).toNat := by decide +kernel

/-- A word that LOOP refuses: an offset of 1, an end address past bit 32's carry. -/
theorem witness_LoopPushes_illegal :
    Trapping s0 ∧ (1 : BitVec 19).toInt < 2 ∧
    (let u : State := { s0 with thr := { s0.thr with front := { s0.thr.front with pc := 0xFFFFFFF8 } } }
     Trapping u ∧ fieldOf (target u (3 : BitVec 19).toInt) 51 32 ≠ fieldOf (u.front.pc + 4) 51 32) := by
  refine ⟨⟨rfl, rfl, rfl, rfl⟩, by decide, ⟨rfl, rfl, rfl, rfl⟩, by decide +kernel⟩

/-- A LOOP with count 0 falls through at its end address; the control thread is the one that s0 runs. -/
theorem witness_FallThroughLoops_zero :
    s0.cur.bank = none ∧ fieldOf (s0.sval 1) 31 0 = 0 ∧ 2 ≤ (2 : BitVec 19).toInt ∧
    fieldOf (target s0 (2 : BitVec 19).toInt) 51 32 = fieldOf (s0.front.pc + 4) 51 32 := by decide +kernel

/-- A taken branch, a plain and a linking jump, each to an aligned target. -/
theorem witness_JumpEndsLoops_jumps :
    branchRow s0 (.beq 0 0 2) = some (true, 2) ∧ (target s0 2).toNat % 4 = 0 ∧ jumpRow s0 (.jmp 0 2) = some (0, target s0 2) ∧
    jumpRow s0 (.jmp 1 2) = some (1, target s0 2) ∧ jumpResidueOk s0 (.jmp 1 2) := by
  refine ⟨by decide +kernel, by decide +kernel, by decide +kernel, by decide +kernel, trivial⟩

theorem witness_FallThroughLoops :
    s0.front.depth = 0 ∧ (0x1004 : Word).toNat ≠ (topLevel (looping 2)).endAddr ∧ (looping 2).depth ≠ 0 ∧
    (0x1008 : Word).toNat = (topLevel (looping 2)).endAddr ∧ 1 < (topLevel (looping 2)).count.toNat ∧ (topLevel (looping 1)).count.toNat ≤ 1 := by decide

/-- A target at the end of the body leaves it, one at its last word stays. -/
theorem witness_JumpEndsLoops :
    let f : Front := { looping 2 with pc := 0x1000 }
    f.depth ≠ 0 ∧ (topLevel f).startAddr ≤ f.pc.toNat ∧ f.pc.toNat < (topLevel f).endAddr ∧ ¬ (0x1008 : Word).toNat < (topLevel f).endAddr ∧
    (0x1004 : Word).toNat < (topLevel f).endAddr := by decide

/-- A saved bank of a task, its register 0 bound to row 5 with the row's latch, the others FREE. -/
def slot0 : SaveSlot :=
  { hard := false, m := Vector.replicate 16 0, x := Vector.replicate 32 SReg.zero, t := Vector.replicate 4 0, q := Vector.replicate 4 0, lfsr := 1, flags := 0,
    ploss := false, bad := false,
    regs := (Vector.replicate 16 (⟨.free, 1, 0, 0, false, 0, 0⟩ : SavedW)).set 0 ⟨.heldClean, 1, 5, 5, true, 0, 0⟩ }

/-- A bank without a free save slot. -/
def fullBank : Bank := { Bank.reset with slots := Vector.replicate 2 (some slot0) }

theorem witness_TrapEntry :
    Trapping s0 ∧ dataResidueOk (s0.getS 1) ∧ s0.thr.level = .user ∧
    (∀ i ∈ [Instr.eret, .halt, .tlbiAll, .tlbiVA 1 2, .tlbiAS 1, .wayset 1 2, .cinv 1 2, .crr 1 0x080, .crr 1 0x085, .crw 1 2 0, .crw 1 2 0x13F],
      privileged i = true ∧ i.wf = true) ∧
    (let u : State := { s0 with thr := { s0.thr with tr := { s0.thr.tr with busy := true } } }
     u.cur.bank = none ∧ u.cur.th < 40 ∧ u.thr.queue = [] ∧ u.thr.tr.busy = true ∧ u.thr.task = some task0 ∧ u.posted = [] ∧ u.stores = [] ∧
       u.canSave u.tid = true ∧ ({ u with thr := { u.thr with bpart := ⟨2, 1, 2, 0⟩ } }.setBank 1 fullBank).canSave u.tid = false) := by
  refine ⟨⟨rfl, rfl, rfl, rfl⟩, by unfold dataResidueOk; decide, rfl, by decide, by decide⟩

/-- A bank thread's load, aligned and not, from a page that it may not read. -/
theorem witness_TrapsThatWait :
    s0Bank.cur.bank = some 0 ∧ s0Bank.posted = [] ∧ addressResidueOk (s0Bank.getS 1) 0 ∧ accessRow (.lw 5 1 0) = some (1, 0, 4, ⟨true, false, false⟩) ∧
    dataOperandsOk s0Bank (.lw 5 1 0) ∧ (s0Bank.sval 1 + 2).toNat % 4 ≠ 0 ∧ (s0Bank.sval 1 + 0).toNat % 4 = 0 ∧ (s0Bank.sval 1 + 0).toNat < 2 ^ 52 ∧
    (let y : Xlat := { page0 with leaf := 0x1FB }
     let u : State := { s0Bank with xlat := [y] }
     translate u u.asker u.thr.root 0 = (u, .found y) ∧ missingBit y u.level ⟨true, false, false⟩ 0 = some 8) ∧
    s0Queue.cur.bank = none ∧ s0Queue.thr.queue ≠ [] ∧ dataResidueOk (s0Queue.getS 1) := by
  refine ⟨rfl, rfl, by unfold addressResidueOk; decide, rfl, ⟨fun _ _ _ _ _ h => by simp [Claims.storeRow] at h, fun _ _ _ _ h => by simp [atomicRow] at h,
    fun _ h => by simp [comparesWith] at h⟩, by decide, by decide, by decide, ⟨rfl, by decide⟩, rfl, by decide, by unfold dataResidueOk; decide⟩

theorem witness_EretReturns :
    (s0Sup.cur.bank = none ∧ s0Sup.vrun = false ∧ s0Sup.thr.level = .supervisor ∧ s0Sup.thr.resume = [] ∧ s0Sup.thr.tr.bt = false) ∧
    (let u : State := { s0Sup with thr := { s0Sup.thr with resume := s0Queue.thr.queue } }
     u.thr.resume = ⟨0x800, .viota 1 2, captureCtx s0 0 0, none, none, none⟩ :: [] ∧ u.thr.tr.bt = false) ∧
    (let b : BankThread := { BankThread.reset with status := .stopped ⟨1, 7, false, false⟩ }
     let u : State := { s0Sup with thr := { s0Sup.thr with bts := [(0, b)], tr := { s0Sup.thr.tr with bt := true, bpc := 0x1FFC } } }
     u.thr.resume = [] ∧ u.thr.tr.bt = true ∧ mapGet u.thr.bts u.thr.tr.bank.toNat = some b ∧ b.status = .stopped ⟨1, 7, false, false⟩ ∧
       u.thr.tr.bpc.toNat % 4 = 0 ∧ ({ u.thr.tr with bpc := 0x1FFE } : TrapRegs).bpc.toNat % 4 ≠ 0 ∧
       ∀ c t, mapGet ({ u.thr with bts := [] } : Thread).bts u.thr.tr.bank.toNat = some c → c.status ≠ .stopped t) ∧
    Trapping s0 ∧ dataResidueOk (s0.getS 1) ∧ s0.thr.resume = [] ∧ s0.front.depth = 0 ∧ s0.front.pc.toNat + 4 < 2 ^ 52 ∧ s0.front.pc.toNat % 4 = 0 := by
  refine ⟨by decide, by decide, ⟨rfl, rfl, rfl, rfl, rfl, by decide, fun _ _ h => by cases h⟩, ⟨rfl, rfl, rfl, rfl⟩, by unfold dataResidueOk; decide⟩

theorem witness_ControlRegisterReads :
    (plainCreg s0 0x000).isSome = true ∧ (plainCreg s0 0x085).isSome = true ∧ cregOpen s0 0x000 false ∧ cregOpen s0Sup 0x085 true ∧
    dataResidueOk (s0Sup.getS 1) ∧ (writtenCreg s0Sup 0x085 (s0Sup.sval 1)).isSome = true ∧
    (∀ n ∈ [0x030, 0x031, 0x032, 0x035, 0x120, 0x13F], (plainCreg s0Sup n).isSome = true ∧ (writtenCreg s0Sup n (s0Sup.sval 1)).isSome = true) ∧
    (timeCounter s0Sup 0x040).isSome = true ∧ (timeCounter s0Sup 0x100).isSome = true ∧ (timeCounter s0Sup 0x11F).isSome = true ∧
    (timeCounter s0Sup 0x120).isNone = true ∧ s0Sup.mustDrain = false ∧ s0Sup.level = .supervisor := by
  unfold cregOpen dataResidueOk
  decide

/-- Nothing delayed, posted, upset or on the move: only the storage of an address serves it. -/
abbrev Quiet (s : State) (pa : Nat) : Prop :=
  s.stores = [] ∧ s.posted = [] ∧ s.upsets = [] ∧ (s.bank (pa / 2 ^ 27)).moving = false ∧ (s.bank (pa / 2 ^ 27)).pend = [] ∧
  ((s.bank (pa / 2 ^ 27)).w[idx16 (pa / 2 ^ 23)]).state ≠ .openDirty ∧ (s.bank (pa / 2 ^ 27)).lines.length < 256 * (s.bank (pa / 2 ^ 27)).cacheWays

theorem quiet_undisturbed {s : State} {pa : Nat} (h : Quiet s pa) : Undisturbed s pa :=
  ⟨h.1, fun _ => by simp [h.2.1], h.2.2.1, h.2.2.2.1, by rw [h.2.2.2.2.1]; simp, fun _ => h.2.2.2.2.2.1, h.2.2.2.2.2.2⟩

/-- With nothing in flight and no bank touched since reset, every address is undisturbed, and every bank has room for lines. -/
theorem bare_undisturbed {s : State} (h : s.stores = [] ∧ s.posted = [] ∧ s.upsets = [] ∧ s.banks = []) (pa : Nat) :
    Undisturbed s pa ∧ (s.bank (pa / 2 ^ 27)).lines.length + 128 ≤ 256 * (s.bank (pa / 2 ^ 27)).cacheWays := by
  have hb : s.bank (pa / 2 ^ 27) = Bank.reset := by simp [State.bank, h.2.2.2, mapGetD, mapGet]
  refine ⟨quiet_undisturbed ⟨h.1, h.2.1, h.2.2.1, ?_, ?_, ?_, ?_⟩, ?_⟩ <;> rw [hb]
  · rfl
  · rfl
  · simp [Bank.reset, WReg.reset]
  · decide
  · decide

/-- A cache that holds the page answers. -/
theorem translate_held {s : State} {a : Asker} {root : Word} {va : Nat} {x : Xlat}
    (h : s.xlat.find? (fun x => decide (x.cache = a.cache ∧ x.root = root ∧ x.page = va / 2 ^ 16)) = some x) : translate s a root va = (s, .found x) := by
  have hl : lookup s a.cache root (va / 2 ^ 16) = (s, some x) := by unfold lookup; rw [h]
  simp only [Sys2Proof.Machine.translate, hl]

/-- Of a unit, the cached page 0 reaches the eight bytes at any of its addresses, where nothing is in flight. -/
theorem page0_unit {s : State} {own : QOwner} {va : Nat} (write : Bool) (hv : va + 8 ≤ 2 ^ 16)
    (h : s.stores = [] ∧ s.posted = [] ∧ s.upsets = [] ∧ s.banks = []) (he : (s.stack 0).excluded = false)
    (hx : s.xlat.find? (fun x => decide (x.cache = (unitAsker 0).cache ∧ x.root = own.root ∧ x.page = 0)) = some page0) :
    UnitRange s 0 own va 8 write (fun _ => page0) where
  range := by omega
  reach := fun i hi => ⟨translate_held (by rw [show (va + i) / 2 ^ 16 = 0 by omega]; exact hx), by decide, fun _ => by decide, by cases write <;> decide, by decide⟩
  present := fun i hi => by
    have hp : page0.base + (va + i) % 2 ^ 16 = va + i := by
      show 0 + (va + i) % 2 ^ 16 = va + i
      omega
    have hw : windowOf (va + i) = .dram := by
      unfold windowOf
      rw [show (va + i) / 2 ^ 40 = 0 by omega]
      rfl
    have hb : s.bank ((va + i) / 2 ^ 27) = Bank.reset := by simp [State.bank, h.2.2.2, mapGetD, mapGet]
    have key : ∀ pa, pa = va + i → windowOf pa ≠ .control ∧ populated s pa = true ∧ Undisturbed s pa ∧
        (s.bank (pa / 2 ^ 27)).lines.length + 128 ≤ 256 * (s.bank (pa / 2 ^ 27)).cacheWays := by
      rintro _ rfl
      refine ⟨by rw [hw]; decide, ?_, bare_undisturbed h _⟩
      unfold populated
      rw [hw, show (va + i) / 2 ^ 35 % 32 = 0 by omega, he, hb, decide_eq_true (by omega)]
      rfl
    exact key _ hp
  dirtied := fun _ i hi => by
    have h16 : (page0.base + (va + i) % 2 ^ 16) / 2 ^ 12 % 16 < 16 := by omega
    have all : ∀ n < 16, page0.bit (48 + n) = true := by decide
    exact all _ h16

/-- s0 with an address in s1 and data in s2 to s4. -/
def sMem : State := regs [(1, 0x208), (2, 0x1122334455667788), (3, 5), (4, 6)]

/-- The 8 bytes at 0x208 can be read, written and updated. -/
theorem mem_reaches : Reaches sMem sMem.asker (sMem.sval 1 + 0) 8 ⟨true, true, true⟩ sMem page0 0x208 where
  range := by decide
  aligned := by decide
  translated := rfl
  base := by decide
  at_ := by decide
  user := by decide
  read := by decide
  write := by decide
  atomic := by decide
  window := by decide
  present := by decide
  still := quiet_undisturbed (by decide)

theorem mem_settled : memoriesWf sMem := ⟨by decide, by decide, fun _ => rfl⟩

/-- What can be read, written and updated can be read, and can be written. -/
theorem reaches_weaker {s u : State} {va : Word} {n pa : Nat} {x : Xlat} {a : Asker} (h : Reaches s a va n ⟨true, true, true⟩ u x pa) (need : Need) :
    Reaches s a va n need u x pa :=
  { h with user := h.user, read := fun _ => h.read rfl, write := fun _ => h.write rfl, atomic := fun _ => h.atomic rfl }

theorem mem_residues : addressResidueOk (sMem.getS 1) 0 ∧ (∀ r ∈ [(2 : Fin 64), 3, 4], dataResidueOk (sMem.getS r)) := by
  unfold addressResidueOk dataResidueOk
  decide

theorem mem_releasable : releasable sMem := ⟨by decide, (fun _ h => by cases h), (fun _ h => by cases h)⟩

/-- s0 at supervisor level, with the control window's first block at page 1 and an address of CTXBASE in s1. -/
def pageC : Xlat := { page0 with page := 1, base := 2 ^ 41 }
def sBlock : State :=
  let s := regs [(1, 0x10018), (2, 5), (3, 6)]
  { s with thr := { s.thr with level := .supervisor }, xlat := [pageC] }

/-- Its eight bytes, and its last four. -/
theorem block_reaches (need : Need) : ReachesBlock sBlock (sBlock.sval 1 + 0) 8 need sBlock pageC 0 0x18 0 :=
  { level := rfl, range := by decide, aligned := by decide, translated := rfl, base := by decide, at_ := by decide, block := by decide,
    read := fun _ => by decide, write := fun _ => by decide, present := by decide, stores := rfl }

theorem block_reaches_half (need : Need) : ReachesBlock sBlock (sBlock.sval 1 + 4) 4 need sBlock pageC 0 0x18 4 :=
  { level := rfl, range := by decide, aligned := by decide, translated := rfl, base := by decide, at_ := by decide, block := by decide,
    read := fun _ => by decide, write := fun _ => by decide, present := by decide, stores := rfl }

theorem block_residues : addressResidueOk (sBlock.getS 1) 0 ∧ addressResidueOk (sBlock.getS 1) 4 ∧ dataResidueOk (sBlock.getS 2) ∧
    dataResidueOk (sBlock.getS 3) := by
  unfold addressResidueOk dataResidueOk
  decide

/-- Each register of the block, and what a write of it leaves. -/
theorem block_registers : ∀ off ∈ [0x00, 0x10, 0x18, 0x40, 0x800000, 0x800008], (plainStackReg sBlock 0 off).isSome = true ∧
    (writtenStackReg sBlock 0 off (mergedWord 7 4 4 (sBlock.sval 2))).isSome = true := by decide

theorem witness_LoadResults :
    (∀ i ∈ [Instr.lb 0 1 0, .lh 5 1 0, .lw 5 1 0, .ld 5 1 0, .lbu 5 1 0, .lhu 5 1 0, .lwu 5 1 0, .acqld 63 1 4], (loadRow i).isSome = true) ∧
    loadRow (.ld 5 1 0) = some (5, 1, 0, 8, false) ∧ addressResidueOk (sMem.getS 1) 0 ∧
    Reaches sMem sMem.asker (sMem.sval 1 + 0) 8 ⟨true, false, false⟩ sMem page0 0x208 ∧ poisonIn sMem 0x208 = false ∧
    loadRow (.lw 5 1 4) = some (5, 1, 4, 4, true) ∧ ReachesBlock sBlock (sBlock.sval 1 + 4) 4 ⟨true, false, false⟩ sBlock pageC 0 0x18 4 :=
  ⟨by decide, rfl, mem_residues.1, reaches_weaker mem_reaches _, by decide, rfl, block_reaches_half _⟩

theorem witness_StoreResults :
    (∀ i ∈ [Instr.sb 2 1 0, .sh 2 1 0, .sw 2 1 0, .sd 2 1 0, .relst 1 2 0], (storeRow i).isSome = true) ∧
    storeRow (.relst 1 2 0) = some (2, 1, 0, 8, true) ∧ addressResidueOk (sMem.getS 1) 0 ∧ dataResidueOk (sMem.getS 2) ∧
    Reaches sMem sMem.asker (sMem.sval 1 + 0) 8 ⟨false, true, false⟩ sMem page0 0x208 ∧ memoriesWf sMem ∧ releasable sMem ∧
    leafApart sMem (leafToMark sMem page0 0x208) 0x208 8 ∧
    (let y : Xlat := { page0 with leaf := 0x1FF }
     leafToMark sMem y 0x208 = some 0x3F000000 ∧ leafApart sMem (leafToMark sMem y 0x208) 0x208 8) ∧
    (let u : State := { sMem with delay := true }
     u.delay = true ∧ u.cur.bank = none ∧ Undisturbed u 0x208) ∧
    storeRow (.sw 2 1 4) = some (2, 1, 4, 4, false) ∧ ReachesBlock sBlock (sBlock.sval 1 + 4) 4 ⟨false, true, false⟩ sBlock pageC 0 0x18 4 := by
  refine ⟨by decide, rfl, mem_residues.1, mem_residues.2 2 (by decide), reaches_weaker mem_reaches _, mem_settled, mem_releasable, ?_, ⟨by decide, ?_⟩,
    ⟨rfl, rfl, quiet_undisturbed (by decide)⟩, rfl, block_reaches_half _⟩
  · have h : leafToMark sMem page0 0x208 = none := by decide
    rw [h]
    exact fun _ h => by cases h
  · have h : leafToMark sMem { page0 with leaf := 0x1FF } 0x208 = some 0x3F000000 := by decide
    rw [h]
    rintro _ ⟨⟩
    unfold leafFree noUnbinding
    decide

theorem witness_AtomicResults :
    (∀ i ∈ [Instr.rmwAdd 3 1 4 0, .rmwSwap 3 1 4 0, .rmwCas 3 1 4 0, .rmwAnd 3 1 4 0, .rmwOr 3 1 4 0, .rmwXor 3 1 4 0, .rmwMin 3 1 4 0, .rmwMax 3 1 4 0,
      .rmwMinu 3 1 4 0, .rmwMaxu 3 1 4 4], (atomicRow i).isSome = true) ∧
    addressResidueOk (sMem.getS 1) 0 ∧ dataOperandsOk sMem (.rmwCas 3 1 4 0) ∧ Reaches sMem sMem.asker (sMem.sval 1) 8 ⟨true, true, true⟩ sMem page0 0x208 ∧
    poisonIn sMem 0x208 = false ∧ memoriesWf sMem ∧ releasable sMem ∧ leafToMark sMem page0 0x208 = none ∧
    (let y : Xlat := { page0 with leaf := 0x1FF }
     leafToMark sMem y 0x208 = some 0x3F000000 ∧ leafApart sMem (leafToMark sMem y 0x208) 0x208 8) ∧
    ReachesBlock sBlock (sBlock.sval 1 + 0) 8 ⟨true, true, true⟩ sBlock pageC 0 0x18 0 ∧ releasable sBlock :=
  ⟨by decide, mem_residues.1,
   ⟨fun _ _ _ _ _ h => (Option.some_ne_none _ h.symm).elim,
    fun d a b f h => by
      have : b = 4 := by simp [atomicRow] at h; exact h.2.2.1.symm
      exact this ▸ mem_residues.2 4 (by decide),
    fun d h => by
      have : d = 3 := by simp [comparesWith] at h; exact h.symm
      exact this ▸ mem_residues.2 3 (by decide)⟩,
   mem_reaches, by decide, mem_settled, mem_releasable, by decide, ⟨by decide, by
     rw [show leafToMark sMem { page0 with leaf := 0x1FF } 0x208 = some 0x3F000000 by decide]
     rintro _ ⟨⟩
     unfold leafFree noUnbinding
     decide⟩, block_reaches _, ⟨by decide, (fun _ h => by cases h), (fun _ h => by cases h)⟩⟩

/-- The least address past the range; one byte off; each missing bit; a poisoned word. -/
theorem witness_AccessTraps :
    accessRow (.ld 5 1 0) = some (1, 0, 8, ⟨true, false, false⟩) ∧ Trapping sMem ∧ dataOperandsOk sMem (.ld 5 1 0) ∧
    2 ^ 52 ≤ ((regs [(1, 0x10000000000000)]).sval 1 + 0).toNat ∧ ((regs [(1, 0x209)]).sval 1 + 0).toNat % 8 ≠ 0 ∧
    (∀ p ∈ [((0x1DF : Word), (8 : BitVec 8), Need.mk true false false), (0x1FB, 8, ⟨true, false, false⟩), (0x1F7, 7, ⟨false, true, false⟩),
       (0xFF, 8, ⟨true, true, true⟩)], missingBit { page0 with leaf := p.1 } .user p.2.2 0x208 = some p.2.1) ∧
    translate sMem sMem.asker sMem.thr.root 0x208 = (sMem, .found page0) ∧
    poisonIn { sMem with cellPoison := [0x208 / 32] } 0x208 = true ∧ Trapping { sMem with cellPoison := [0x208 / 32] } ∧
    sMem.thr.front.vpoison.v = false ∧
    (let u : State := { sMem with cellPoison := [0x208 / 32], thr := { sMem.thr with front := { sMem.thr.front with vpoison := ⟨true, 0, 0, 0⟩ } } }
     u.thr.front.vpoison.v = true ∧ u.thr.front.vpoison.elem = 0 ∧ poisonIn u 0x208 = true ∧ Undisturbed u 0x208) := by
  refine ⟨rfl, ⟨rfl, rfl, rfl, rfl⟩, ⟨fun _ _ _ _ _ h => by simp [Claims.storeRow] at h, fun _ _ _ _ h => by simp [atomicRow] at h,
    fun _ h => by simp [comparesWith] at h⟩, by decide, by decide, by decide, rfl, by decide, ⟨rfl, rfl, rfl, rfl⟩,
    rfl, rfl, rfl, by decide, quiet_undisturbed (by decide)⟩

theorem witness_RegisterWrites :
    (∀ i ∈ [Instr.registerWrite false 0x085 7, .vlcfgWrite 7, .vstartWrite 7, .flagsWrite 7, .rmodeWrite 7, .srseedWrite 7, .bpartWrite 7, .vmodeWrite 7,
      .uistatWrite 7, .trappcWrite 7, .trapstatWrite 7], (writeStep i).isSome = true) ∧ s0.mustDrain = false ∧
    (∀ n ∈ List.range 11 ++ [0x010, 0x011, 0x012, 0x013, 0x014, 0x015, 0x016, 0x017, 0x020, 0x021, 0x030, 0x031, 0x032, 0x033, 0x034, 0x035, 0x040, 0x041,
      0x080, 0x081, 0x082, 0x083, 0x084, 0x085], (writtenCreg s0 n 0).isSome = true) ∧
    (∀ i ∈ [Instr.parkWrite 31 7, .pwrctlWrite 0 99, .pwrctlWrite 0 100, .pwrctlWrite 0 420, .pwrctlWrite 0 421, .registerWrite true 0x800008 7],
      (match stackWriteStep i with | some (st, off, v) => (writtenStackReg s0 st off v).isSome | none => false) = true) ∧ (∀ n < 32, (s0.stack n).excluded = false) := by decide

theorem witness_FencesAndHints :
    s0.mustDrain = false ∧ s0.cur.bank = none ∧ s0Bank.cur.bank ≠ none ∧ (∀ q ∈ s0.posted, awaited s0 q = false) ∧ (∀ d ∈ s0.stores, d.tid ≠ s0.tid) ∧ atTurn s0 ∧
    atTurn { s0Queue with vrun := true } ∧ plainRow .nop = some 4 ∧ plainRow (.hint true 0x1F) = some 8 := by
  refine ⟨by decide, rfl, by decide, by decide, by decide, .inr ⟨rfl, by decide⟩, .inl ⟨rfl, by decide, rfl⟩, rfl, rfl⟩

/-- A thread in WAIT on 0x208, with a limit. -/
def sWait : State := { sMem with thr := { sMem.thr with cond := .waitWord 7 0x208 1 } }

theorem witness_WaitAndPause :
    addressResidueOk (sMem.getS 1) 0 ∧ Reaches sMem sMem.asker (sMem.sval 1) 8 ⟨true, false, false⟩ sMem page0 0x208 ∧ poisonIn sMem 0x208 = false ∧
    (sWait.switchTo 0 0 none).thr.cond = .waitWord 7 0x208 1 ∧ (1 : BitVec 32) ≠ 0 ∧
    Reaches (sWait.switchTo 0 0 none) (sWait.switchTo 0 0 none).asker 0x208 8 ⟨true, false, false⟩ (sWait.switchTo 0 0 none) page0 0x208 ∧
    (let u : State := { sMem with thr := { sMem.thr with cond := .paused } }
     (u.switchTo 0 0 none).thr.cond = .paused) := by
  refine ⟨mem_residues.1, reaches_weaker mem_reaches _, by decide, rfl, by decide, ?_, rfl⟩
  exact { range := by decide, aligned := by decide, translated := rfl, base := by decide, at_ := by decide, user := by decide, read := by decide,
          write := by decide, atomic := by decide, window := by decide, present := by decide, still := quiet_undisturbed (by decide) }

/-- The greatest offset that SPLIT takes; a bank thread that runs; one that has stopped. -/
theorem witness_BankThreads :
    s0.cur.bank = none ∧ s0.thr.queue = [] ∧ ((regs [(1, 0x1FFC)]).sval 1).toNat < 2 ^ 13 ∧ ((regs [(1, 0x1FFC)]).sval 1).toNat % 4 = 0 ∧
    executing s0 ≠ [] ∧ executing { s0 with thr := { s0.thr with bmask := 0 } } = [] ∧
    (s0Bank.cur.bank = some 0 ∧ mapGet s0Bank.thr.bts 0 = some { BankThread.reset with status := .running } ∧ keysAbove none s0Bank.thr.bts = true ∧
      (∀ q ∈ s0Bank.posted, awaited s0Bank q = false) ∧ ∀ p ∈ s0Bank.thr.bts, p.2.status ≠ .atBarrier) ∧
    (let b : BankThread := { BankThread.reset with status := .stopped ⟨1, 7, false, false⟩ }
     let u : State := { s0 with thr := { s0.thr with cond := .splitWait, bts := [(0, b)] } }
     let v := u.switchTo 0 0 none
     v.thr.cond = .splitWait ∧ v.thr.tr.busy = false ∧ mapGet v.thr.bts 0 = some b ∧ keysAbove none v.thr.bts = true ∧
       ∀ p ∈ v.thr.bts, p.1 < 0 → ∀ r, p.2.status ≠ .stopped r) := by
  refine ⟨rfl, rfl, by decide, by decide, by decide, by decide, ⟨rfl, rfl, rfl, by decide, by decide⟩, rfl, rfl, rfl, rfl, fun p _ h => ?_⟩
  exact absurd h (Nat.not_lt_zero _)

theorem witness_CodeFetchFillsBuffers :
    let s := regs [(1, 0x1000), (2, 0x11FC0)]
    addressResidueOk (s.getS 1) 0 ∧ (s.sval 1).toNat % 64 = 0 ∧ (s.sval 1).toNat + 64 * 1 ≤ 2 ^ 52 ∧ fieldOf (s.sval 2) 63 25 = 0 ∧
    fieldOf (s.sval 2) 24 16 = 1 ∧ fieldOf (s.sval 2) 15 0 = 0x1FC0 ∧ 0x1FC0 % 64 = 0 ∧ 0x1FC0 + 64 * 1 ≤ 0x2000 ∧
    (∀ i < 1, translate s s.fetchAsker s.thr.root ((s.sval 1).toNat + 64 * i) = (s, .found page0F) ∧ page0F.bit 9 = false ∧ page0F.bit 4 = true ∧
      (s.level = .user → page0F.bit 5 = true) ∧ windowOf (page0F.pa ((s.sval 1).toNat + 64 * i)) ≠ .control ∧
      populated s (page0F.pa ((s.sval 1).toNat + 64 * i)) = true ∧ page0F.base % 2 ^ 16 = 0 ∧
      pageHash s s.thr.root (((s.sval 1).toNat + 64 * i) / 2 ^ 16) = none) ∧
    (∀ i < 64, poisonIn s (0x1000 + i) = false ∧ populated s (0x1000 + i) = true) ∧ (∀ i < 64, Undisturbed s (0x1000 + i)) ∧
    (∀ p ∈ (s.stack s.cur.st).bib, p.2.bytes.wf = true) ∧ fetchWins s ≠ [] := by
  refine ⟨by unfold addressResidueOk; decide, by decide, by decide, rfl, rfl, rfl, rfl, by decide, ?_, by decide, ?_, by decide⟩
  · intro i h
    obtain rfl : i = 0 := by omega
    exact ⟨rfl, by decide⟩
  · have h : ∀ i < 64, Quiet (regs [(1, 0x1000), (2, 0x11FC0)]) (0x1000 + i) := by decide +kernel
    exact fun i hi => quiet_undisturbed (h i hi)

/-- A launch of one task. -/
def launch0 : Launch :=
  { id := 0, rcd := ⟨0, 8, 0, 0, false, Vector.replicate 16 0, 0, 0x5000⟩, ns := 1, nf := 1, nb := 1, need := 1, pref := 1, entry := 0, nargs := 0, secver := 0,
    rowdep := false, eligible := true, ended := 0, finished := 0, status := 0, failTask := 0, flags := 0, ploss := false, started := false, attempts := 0,
    failed := false, wordDue := false }

def sLaunch : State := s0.setStack 0 { stack0 with table := [launch0], nextLaunch := 1 }

/-- The completion word of the launch can be written; nothing else of the launch runs or waits. -/
theorem witness_TasksEnd :
    (sLaunch.cur.bank = none ∧ sLaunch.thr.queue = [] ∧ sLaunch.cur.th < 40 ∧ sLaunch.thr.task = some task0 ∧ task0.id.stack < 32 ∧
      sLaunch.posted = [] ∧ sLaunch.stores = [] ∧ (∀ n : Fin 64, pushedBy (engineOf sLaunch 0 n) task0.id = []) ∧ sLaunch.stks.map (fun e => e.1) = [0]) ∧
    (sLaunch.thr.ui.active = false ∧ sLaunch.getLaunch 0 0 = some launch0 ∧ launch0.wordDue = false ∧ s0Sup.thr.level = .supervisor) ∧
    (launch0.ns * launch0.nf ≤ launch0.finished + 1 ∧ sLaunch.launchThreads 0 0 = [sLaunch.tid] ∧ (∀ n < 32, (sLaunch.stack n).waiting = []) ∧
      ((sLaunch.stack 0).cols[0]).state ≠ .stopped ∧ launch0.rcd.cword.toNat % 8 = 0) ∧
    memoriesWf sLaunch ∧ UnitRange sLaunch 0 ⟨⟨0, 0, 0⟩, launch0.rcd.root, .supervisor⟩ launch0.rcd.cword.toNat 8 true (fun _ => page0) :=
  ⟨by decide, by decide, by decide, ⟨by decide, by decide, fun _ => rfl⟩, page0_unit true (by decide) ⟨rfl, rfl, rfl, rfl⟩ rfl (by decide)⟩

/-- A registered kernel, and memory that holds a record for it at 0x800: completion word at 0x900. -/
def sRecord : State :=
  { sMem with kernels := [⟨0x5000, 0x40, 0x1000, 1, 1, 0, [], 0, false, []⟩], dram := [(0x800, 0x40), (0x809, 0x09)] }

theorem record_reaches : Reaches (sRecord.setS 1 (formed 0x800)) (sRecord.setS 1 (formed 0x800)).asker ((sRecord.setS 1 (formed 0x800)).sval 1) 256 ⟨true, false, false⟩
    (sRecord.setS 1 (formed 0x800)) page0 0x800 where
  range := by decide
  aligned := by decide
  translated := rfl
  base := by decide
  at_ := by decide
  user := by decide
  read := by decide
  write := by decide
  atomic := by decide
  window := by decide
  present := by decide
  still := quiet_undisturbed (by decide)

theorem witness_LaunchAnswers :
    let s := sRecord.setS 1 (formed 0x800)
    (addressResidueOk (s.getS 1) 0 ∧ Reaches s s.asker (s.sval 1) 256 ⟨true, false, false⟩ s page0 0x800 ∧ releasable s) ∧
    (s.thr.task = some task0 ∧ (∀ j < 160, poisonIn s (0x800 + j) = false) ∧ (s.bank 0).lines.length + 2 ≤ 256 * (s.bank 0).cacheWays) ∧
    (¬ badRecord (recordAt s 0x800) ∧ badRecord (recordAt { s with dram := [] } 0x800)) ∧
    ((∃ q ∈ s.kernels, q.root = s.thr.root ∧ q.handle = wordAt (recordAt s 0x800) 0) ∧ (wordAt (recordAt s 0x800) 1).toNat < 2 ^ 52) ∧
    translate s (unitAsker s.cur.st) s.thr.root (wordAt (recordAt s 0x800) 1).toNat = (s, .found page0) ∧
    (page0.bit 3 = true ∧ page0.bit 9 = false ∧ ({ page0 with leaf := 0x1F7 } : Xlat).bit 3 = false ∧
      windowOf (page0.pa (wordAt (recordAt s 0x800) 1).toNat) ≠ .control ∧ ∀ j < 8, populated s (page0.pa (wordAt (recordAt s 0x800) 1).toNat + j) = true) := by
  refine ⟨⟨by unfold addressResidueOk; decide, record_reaches, ⟨by decide, (fun _ h => by cases h), (fun _ h => by cases h)⟩⟩, ⟨rfl, by decide, by decide⟩,
    by unfold badRecord; decide, by decide, rfl, by decide⟩

/-- The same record for a completion word at page 1, which no cache holds, under a root that no walk can start from. -/
def pageL : Xlat := { page0 with root := 0x5001 }
def sLost : State :=
  { sRecord with thr := { (sRecord.setS 1 (formed 0x800)).thr with task := some { task0 with root := 0x5001 } }, xlat := [pageL],
                 kernels := [⟨0x5001, 0x40, 0x1000, 1, 1, 0, [], 0, false, []⟩], dram := [(0x800, 0x40), (0x80A, 0x01)] }

theorem lost_reaches : Reaches sLost sLost.asker (sLost.sval 1) 256 ⟨true, false, false⟩ sLost pageL 0x800 where
  range := by decide
  aligned := by decide
  translated := rfl
  base := by decide
  at_ := by decide
  user := by decide
  read := by decide
  write := by decide
  atomic := by decide
  window := by decide
  present := by decide
  still := quiet_undisturbed (by decide)

theorem witness_LaunchAnswers_fault :
    (addressResidueOk (sLost.getS 1) 0 ∧ Reaches sLost sLost.asker (sLost.sval 1) 256 ⟨true, false, false⟩ sLost pageL 0x800 ∧ releasable sLost) ∧
    (∀ j < 160, poisonIn sLost (0x800 + j) = false) ∧ ¬ badRecord (recordAt sLost 0x800) ∧
    ((∃ q ∈ sLost.kernels, q.root = sLost.thr.root ∧ q.handle = wordAt (recordAt sLost 0x800) 0) ∧ (wordAt (recordAt sLost 0x800) 1).toNat < 2 ^ 52) ∧
    (∃ c, ∀ u : State, AccessFrame sLost u → (∀ a, byteIn u a = byteIn sLost a) →
      (translate u (unitAsker sLost.cur.st) sLost.thr.root (wordAt (recordAt sLost 0x800) 1).toNat).2 = .fault c) := by
  refine ⟨⟨by unfold addressResidueOk; decide, lost_reaches, ⟨by decide, (fun _ h => by cases h), (fun _ h => by cases h)⟩⟩, by decide,
    by unfold badRecord; decide, by decide, 6, fun u h _ => ?_⟩
  obtain ⟨b, hb⟩ : ∃ b, u.xlat = [{ pageL with hashed := b }] := by
    have hm : u.xlat.map (fun x => { x with hashed := false }) = [{ pageL with hashed := false }] := h.2.1
    obtain ⟨y, l, hy, h1, h2⟩ := List.map_eq_cons_iff.mp hm
    obtain rfl : l = [] := by simpa using h2
    refine ⟨y.hashed, ?_⟩
    rw [hy]
    cases y
    simpa [pageL, page0] using h1
  have hv : (wordAt (recordAt sLost 0x800) 1).toNat = 0x10000 := by decide
  have hr : sLost.thr.root = 0x5001 := rfl
  rw [hv, hr]
  have hl : ∀ c, lookup u c 0x5001 1 = (u, none) := fun c => by
    unfold lookup
    rw [hb]
    simp [pageL, page0]
  have hw : ∀ a, walk u a 0x5001 1 = (u, .fault 6) := fun _ => by
    unfold walk
    exact if_pos (by decide)
  simp only [Sys2Proof.Machine.translate, hl, ite_self, hw, show 0x10000 / 2 ^ 16 = 1 from rfl]

/-- A full command FIFO and one with a place left, an empty result FIFO and one with a word. -/
theorem witness_QueueInstructions :
    sMem.thr.task = some task0 ∧ dataResidueOk (sMem.getS 2) ∧ releasable sMem ∧ (engineOf sMem 0 (ownEngine sMem false)).held = none ∧
    (engineOf sMem 0 (ownEngine sMem true)).fifo.length < 32 ∧ resultsOf sMem false = [] ∧ resultsOf (withResults sMem true [7]) true = [7] :=
  ⟨rfl, mem_residues.2 2 (by decide), mem_releasable, by decide, by decide, by decide, by decide⟩

theorem witness_PrivilegedCompletes :
    s0Sup.level = .supervisor ∧ (∀ i ∈ [Instr.tlbiVA 1 2, .tlbiAS 1, .tlbiAll], (purged s0Sup i).isSome = true) ∧ addressResidueOk (s0Sup.getS 1) 0 ∧
    (∀ p ∈ s0Sup.posted, p.applied = true) ∧ s0Sup.stores = [] ∧ dataResidueOk (s0Sup.getS 2) ∧
    (([0x40, 0x30, 0x20, 0x29] : List Word).all (fun v => decide (fieldOf v 63 6 ≠ 0 ∨ fieldOf v 5 4 = 3 ∨
      (fieldOf v 5 4 = 2 ∧ (fieldOf v 3 0 = 0 ∨ 8 < fieldOf v 3 0))))) = true ∧
    (([0x0F, 0x10, 0x21, 0x28] : List Word).all (fun v => decide (fieldOf v 63 6 = 0 ∧ fieldOf v 5 4 ≠ 3 ∧
      (fieldOf v 5 4 = 2 → 1 ≤ fieldOf v 3 0 ∧ fieldOf v 3 0 ≤ 8)))) = true ∧
    s0Sup.mustDrain = false ∧ ((s0Sup.stack 0).frond 0).isSome = true ∧ (∀ b, keysAbove none (s0Sup.bank b).lines = true) ∧
    (∀ c ∈ s0Sup.bankList, LinesSettled s0Sup c) ∧ s0Sup.dram.wf = true ∧ s0Sup.upsets = [] := by
  have small : ∀ c ∈ s0Sup.bankList, c < 2 ^ 13 := by decide
  refine ⟨rfl, by decide, by unfold addressResidueOk; decide, by decide, rfl, by unfold dataResidueOk; decide, by decide, by decide, by decide, by decide,
    fun _ => rfl, fun c h => ⟨rfl, (fun _ h => by cases h), (fun _ h => by cases h), (fun _ h => by cases h), rfl, fun k => ?_, small c h⟩,
    rfl, rfl⟩
  show (Bank.reset.w[k]).state ≠ .openDirty
  have free : ∀ k : Fin 16, (Bank.reset.w[k]).state ≠ .openDirty := by decide
  exact free k

theorem witness_CompletionInterrupts :
    s0.level = .user ∧ s0.cur.bank = none ∧ ({ s0.thr.ui with active := true } : UiRegs).active = true ∧
    (let u : State := { s0 with thr := { s0.thr with ui := ⟨0x40, true, false, false, true, 0⟩ } }
     let v := u.switchTo 0 0 none
     v.thr.ui.en = true ∧ v.thr.ui.active = false ∧ v.thr.ui.pend0 = true ∧ v.thr.level = .user ∧ v.thr.task ≠ none ∧
       v.thr.cond ≠ .splitWait ∧ (∀ b, v.thr.cond ≠ .ready b) ∧ v.thr.hardReq = false ∧ v.thr.ueReq = none ∧
       ∀ q ∈ v.ownedAll, (v.bank q.2).deadline = 0) := by
  exact ⟨rfl, rfl, rfl, rfl, rfl, rfl, rfl, by decide, by decide, by decide, rfl, rfl, by decide⟩

/-- A block as long as the row and one twice as long; a request below COUNT, one above it that is met, one that the frond cannot meet. -/
theorem witness_VectorLengths :
    s0.thr.softReq = false ∧ 2 ^ 11 ≤ 16384 / tagWidth 6 ∧ 16384 / tagWidth 12 < 2 ^ 9 ∧ s0.thr.bpart.req = s0.thr.bpart.count ∧ Trapping s0 ∧
    s0.mustDrain = false ∧ s0.cur.bank = none ∧
    (let p : BPart := ⟨1, 1, 2, 0⟩
     p.req.toNat < p.count.toNat) ∧
    (let u : State := { s0 with thr := { s0.thr with softReq := true } }
     u.thr.softReq = true ∧ u.thr.handlers = [] ∧ u.canSave u.tid = true ∧ u.thr.queue = [] ∧ u.thr.task = some task0 ∧ u.stores = [] ∧ u.posted = [] ∧
       u.getLaunch 0 0 = none) ∧
    (∀ p ∈ [((3 : BitVec 8), 2), (20, 15)],
      let u : State := { s0 with thr := { s0.thr with bpart := ⟨p.1, 1, 1, 0⟩ } }
      let free (m : Nat) : Prop := 1 + m < u.bankList.length ∧ (u.thread 1).task = none
      u.thr.bpart.count.toNat < u.thr.bpart.req.toNat ∧ u.thr.bpart.base.toNat + u.thr.bpart.count.toNat ≤ u.bankList.length ∧
      1 + p.2 ≤ u.thr.bpart.req.toNat ∧ (∀ m < p.2, free m) ∧ (1 + p.2 = u.thr.bpart.req.toNat ∨ ¬ free p.2)) := by
  refine ⟨rfl, by decide, by decide, rfl, ⟨rfl, rfl, rfl, rfl⟩, by decide, rfl, by decide, by decide, by decide⟩

/-- s0 with row register 0 of bank 0 open and dirty over row 5, and register 1 open and clean. -/
def sRows : State :=
  let x : Bank := { Bank.reset with w := (Bank.reset.w.set 0 ⟨.openDirty, 1, 5, 5, true, 77, 0, none, true⟩).set 1 ⟨.openClean, 1, 5, 5, true, 0, 0, none, true⟩ }
  s0.setBank 0 x

theorem row_resolves (s : State) (hs : s = s0 ∨ s = sRows) (write : Bool) : RowResolves s 0 0 0 2 write page0R 2 := by
  obtain rfl | rfl := hs <;> cases write <;>
    exact { range := by decide, low := by decide, translated := rfl, present := by decide, window := by decide, own := by decide, row := by decide, user := by decide,
            perm := by decide }

theorem witness_ActBinds :
    actRow (.act 0 1 2) = some (0, 1, false, 2) ∧ actRow (.actIndexed 15 1 31 127) = some (15, 1, true, 4095) ∧ atTurn s0 ∧
    (s0.venv (.act 0 1 2) 4 0 0).banks = [(0, 0)] ∧ rowResidueOk (s0.bank 0) false 2 ∧ rowNumber (s0.bank 0) false 2 = 2 ∧
    RowResolves s0 0 0 0 2 false page0R 2 ∧ ((s0.bank 0).w[(0 : Fin 16)]).state = .free ∧ (∀ p ∈ (s0.bank 0).pend, p.grp ≠ 0) ∧
    sRows.dram.wf = true ∧ RowResolves sRows 0 0 0 2 false page0R 2 ∧ isDirty (sRows.bank 0).w[(0 : Fin 16)] = true ∧
    (∀ p ∈ (sRows.bank 0).pend, p.grp ≠ 0) ∧ leafReady sRows ((sRows.bank 0).w[(0 : Fin 16)]).leaf (0, 0) [(0, 0)] ∧
    leafOutside ((sRows.bank 0).w[(0 : Fin 16)]).leaf [rowAddr 0 0 ((sRows.bank 0).w[(0 : Fin 16)]).prow.toNat] := by
  refine ⟨rfl, rfl, .inr ⟨rfl, by decide⟩, by decide, fun h => (by cases h), rfl, row_resolves _ (.inl rfl) _, by decide, by decide, by decide,
    row_resolves _ (.inr rfl) _, by decide, by decide, (fun _ h => by cases h), (fun _ h => by cases h)⟩

/-- The same thread with a second bank, whose registers are free. -/
def sTwo : State := { sRows with thr := { sRows.thr with bmask := 3, bpart := ⟨2, 1, 2, 0⟩ } }

theorem witness_RowStates :
    (∃ d k, Instr.rstat 1 2 = .refQ d k ∨ Instr.rstat 1 2 = .rstat d k) ∧ atTurn sRows ∧
    ((sRows.venv .prea 4 0 0).banks = [(0, 0)] ∧ (sRows.venv (.ref 0) 4 0 0).banks = [(0, 0)] ∧ (sRows.bank 0).pend = [] ∧ sRows.dram.wf = true ∧
      (sRows.bank 0).xgroup = [] ∧ ((sRows.bank 0).w[(0 : Fin 16)]).state = .openDirty ∧ ((sRows.bank 0).w[(0 : Fin 16)]).leaf = none) ∧
    (∀ i ∈ [Instr.wbk 0, .wbk 1, .pre 0, .pre 15, .preD 1, .prea, .ref 1, .ref 15, .refQ 31 3, .rstat 0 0],
      (rowEffect (latchErrors sRows 0) (sRows.bank 0) i).isSome = true) ∧
    (∀ i ∈ [Instr.pre 0, .preD 1, .prea, .ref 0, .refQ 31 3, .rstat 0 0], (rowEffect (fun _ => []) Bank.reset i).isSome = true) ∧
    leafReady sRows ((sRows.bank 0).w[(0 : Fin 16)]).leaf (0, 0) [(0, 0)] ∧ leafOutside ((sRows.bank 0).w[(0 : Fin 16)]).leaf [rowAddr 0 0 5] ∧
    Trapping sTwo ∧ (executing sTwo = [(0, 0)] ++ (1, 1) :: [] ∧ isBound (sTwo.bank 0).w[(0 : Fin 16)] = true ∧ isBound (sTwo.bank 1).w[(0 : Fin 16)] = false ∧
      (sTwo.bank 0).pend = [] ∧ (sTwo.bank 1).pend = []) :=
  ⟨⟨1, 2, .inr rfl⟩, .inr ⟨rfl, by decide⟩, by decide, by decide, by decide, (fun _ h => by cases h), (fun _ h => by cases h), ⟨rfl, rfl, rfl, rfl⟩, by decide⟩

/-- A bank with a write-back of group 0 under way. -/
def sPend : State := s0.setBank 0 { Bank.reset with pend := [⟨0, 5, 77, 0, none, true, 0, []⟩] }

theorem bank_of_one (x : Bank) (b : Nat) : (s0.setBank 0 x).bank b = if b = 0 then x else Bank.reset := by
  simp only [State.bank, State.setBank, s0, State.reset, mapSet, mapGetD, mapGet]
  by_cases h : b = 0
  · simp [h]
  · simp [h]

theorem witness_ArrayFences :
    (atTurn sPend ∧ sPend.dram.wf = true ∧ (∀ b, (sPend.bank b).xgroup = []) ∧ (sPend.venv .fenceArray 4 0 0).banks = [(0, 0)]) ∧
    (∀ p ∈ (sPend.bank 0).pend, (∀ l, p.leaf = some l → leafFree sPend l) ∧ leafOutside p.leaf ((sPend.bank 0).pend.map (fun r => rowAddr 0 r.grp r.prow))) ∧
    ((sPend.bank 0).pend.Pairwise (fun p r => (p.grp, p.prow) ≠ (r.grp, r.prow)) ∧ ∀ p ∈ (sPend.bank 0).pend, p.grp < 16 ∧ p.prow < 4096) ∧
    (atTurn sRows ∧ sRows.dram.wf = true ∧ (∀ b, (sRows.bank b).xgroup = []) ∧ (sRows.venv .fenceArrayW 4 0 0).banks = [(0, 0)]) ∧
    ((sRows.bank 0).pend = [] ∧ isDirty (sRows.bank 0).w[(0 : Fin 16)] = true ∧ ∀ k : Fin 16, ((sRows.bank 0).w[k]).leaf = none) := by
  have hp : ∀ b, (sPend.bank b).xgroup = [] := fun b => by
    rw [sPend, bank_of_one]
    split <;> rfl
  have hr : ∀ b, (sRows.bank b).xgroup = [] := fun b => by
    rw [sRows, bank_of_one]
    split <;> rfl
  refine ⟨⟨.inr ⟨rfl, by decide⟩, by decide, hp, by decide⟩, fun p h => ?_, by decide, ⟨.inr ⟨rfl, by decide⟩, by decide, hr, by decide⟩, by decide⟩
  obtain rfl : p = ⟨0, 5, 77, 0, none, true, 0, []⟩ := by simpa [sPend, bank_of_one] using h
  exact ⟨fun _ h => (by cases h), fun _ h => by cases h⟩

theorem witness_RowCopies :
    cloneOp (.rzero 0 false 2) = some (0, false, 2, none) ∧ cloneOp (.rclone 0 false 2 false 2) = some (0, false, 2, some (false, 2)) ∧ atTurn s0 ∧ s0.upsets = [] ∧ s0.posted = [] ∧ keysAbove none (s0.bank 0).lines = true ∧
    (∀ l ∈ (s0.bank 0).lines, l.2.dirty = true) ∧ s0.dram.wf = true ∧ (s0.venv (.rzero 0 false 2) 8 0 0).banks = [(0, 0)] ∧ ((s0.bank 0).w[(0 : Fin 16)]).state = .free ∧
    (∀ p ∈ (s0.bank 0).pend, p.grp ≠ 0) ∧ (s0.bank 0).xgroup = [] ∧ rowResidueOk (s0.bank 0) false 2 ∧ RowResolves s0 0 0 0 2 true page0R 2 ∧
    page0R.bit (48 + rowAddr 0 0 2 / 4096 % 16) = true ∧ RowResolves s0 0 0 0 2 false page0R 2 := by
  refine ⟨rfl, rfl, .inr ⟨rfl, by decide⟩, rfl, rfl, by decide, by decide, by decide, rfl, rfl, by decide, by decide, fun h => (by cases h),
    row_resolves _ (.inl rfl) _, by decide,
    row_resolves _ (.inl rfl) _⟩

/-- Two elements of 32 bits, and the block at 0x800 in x5. -/
def sCrown : State :=
  let x := rowsBank 4 32 [[7, 9], [1, 2]] 2
  let s := s0.setBank 0 { x with x := x.x.set 5 (formed 0x800) }
  s.setFront { s.front with vlcfg := ⟨512, 512, 0, 4⟩ }

theorem crown_registers_free : ∀ k : Fin 16, ((sCrown.bank 0).w[k]).state = .free := by decide

theorem block_is_there (i : Nat) (h : i < 2 ^ 11) : populated sCrown (0x800 + i) = true ∧ poisonIn sCrown (0x800 + i) = false := by
  have hw : windowOf (0x800 + i) = .dram := by
    unfold windowOf
    rw [show (0x800 + i) / 2 ^ 40 = 0 by omega]
    rfl
  have h1 : (0x800 + i) / 2 ^ 35 % 32 = 0 := by omega
  have h2 : (0x800 + i) / 2 ^ 27 = 0 := by omega
  have h3 : latchOf sCrown (0x800 + i) = none := by
    unfold latchOf
    rw [h2]
    exact if_neg fun h => h.1 (crown_registers_free _)
  have h4 : (sCrown.bank 0).lines = [] := by decide
  refine ⟨?_, ?_⟩
  · unfold populated
    rw [hw, h1, h2, decide_eq_true (by omega)]
    rfl
  · unfold poisonIn
    rw [hw, h3, h2, h4]
    rfl

theorem crown_block (store : Bool) : CrownBlock sCrown 0 0x800 store page0R 0x800 where
  aligned := by decide
  range := by decide
  translated := rfl
  base := by decide
  at_ := by decide
  user := by decide
  perm := by cases store <;> decide
  present := fun i h => (block_is_there i h).1
  mine := .inl (by decide)
  dirtied := fun _ => by decide
  still := quiet_undisturbed (by decide)
  room := by decide
  clean := fun i h => (block_is_there i h).2

theorem witness_CrownMoves :
    atTurn sCrown ∧ memoriesWf sCrown ∧ sCrown.cut = none ∧ sCrown.posted = [] ∧ (sCrown.venv (.cld 1 5 3) 4 0 0).live = 512 ∧
    (sCrown.venv (.cld 1 5 3) 4 0 0).banks = [(0, 0)] ∧ (sCrown.venv (.cld 1 5 3) 4 0 0).vstart = 0 ∧
    (sCrown.venv (.cld 1 5 3) 4 0 0).vl = 512 ∧ cfgWidth (sCrown.venv (.cld 1 5 3) 4 0 0).ctx.vlcfg = 32 ∧ 512 ≤ 16384 / 32 ∧
    addressResidueOk ((sCrown.bank 0).getX 5) 0 ∧ ((sCrown.bank 0).getX 5).val = 0x800 ∧ CrownBlock sCrown 0 0x800 false page0R 0x800 ∧
    CrownBlock sCrown 0 0x800 true page0R 0x800 ∧ ((sCrown.bank 0).w[(1 : Fin 16)]).valid = true ∧ ((sCrown.bank 0).w[(1 : Fin 16)]).poison = 0 ∧
    (∀ p ∈ (sCrown.bank 0).pend, p.act ≠ 2) ∧ ((sCrown.bank 0).w[(1 : Fin 16)]).state = .free := by
  refine ⟨.inr ⟨rfl, by decide⟩, ⟨by decide, by decide, fun b => ?_⟩, rfl, rfl, by decide, by decide, rfl, rfl, rfl, by decide,
    by unfold addressResidueOk; decide, rfl, crown_block _, crown_block _, by decide⟩
  show ((s0.setBank 0 _).bank b).scratch.wf = true
  rw [bank_of_one]
  split <;> rfl

/-- A dirty crown line at 0x800. -/
def sLine : State :=
  let s := s0.setBank 0 { Bank.reset with lines := [(16, ⟨7, true, 0, none⟩)] }
  { s with thr := { s.thr with sregs := s.thr.sregs.set 1 (formed 0x8FF) |>.set 2 (formed 1) } }

theorem lines_settled (b : Nat) : LinesSettled sLine b ∨ 2 ^ 13 ≤ b := by
  by_cases h : 2 ^ 13 ≤ b
  · exact .inr h
  · have hb : sLine.bank b = if b = 0 then { Bank.reset with lines := [(16, ⟨7, true, 0, none⟩)] } else Bank.reset := bank_of_one _ b
    by_cases h0 : b = 0
    · subst h0
      exact .inl ⟨by decide, by decide, by decide, by decide, by decide, by decide, by decide⟩
    · rw [if_neg h0] at hb
      refine .inl ⟨?_, ?_, ?_, ?_, ?_, ?_, by omega⟩ <;> rw [hb]
      · rfl
      · exact fun _ h => by cases h
      · exact fun _ h => by cases h
      · exact fun _ h => by cases h
      · rfl
      · decide

/-- A range of one byte in the second half of a line. -/
theorem witness_CacheMaintenance :
    rangeRow (.cwb 1 2) = some (1, 2, true, false) ∧ rangeRow (.cwbi 1 2) = some (1, 2, true, true) ∧ rangeRow (.cinv 1 2) = some (1, 2, false, true) ∧
    atTurn sLine ∧ sLine.vrun = false ∧ sLine.cut = none ∧ sLine.upsets = [] ∧ sLine.dram.wf = true ∧ (∀ b, LinesSettled sLine b ∨ 2 ^ 13 ≤ b) ∧ (sLine.sval 1).toNat = 0x8FF ∧
    (sLine.sval 2).toNat = 1 ∧
    (∀ p < 2 ^ 36, 0x8FF ≤ p * 2 ^ 16 + 2 ^ 16 - 1 → p * 2 ^ 16 < 0x8FF + 1 →
      translate sLine sLine.asker sLine.thr.root (p * 2 ^ 16) = (sLine, .found page0) ∧ page0.base % 2 ^ 16 = 0 ∧ page0.base < 2 ^ 42) ∧
    sLine.cur.bank = none ∧ sLine.cur.st < 32 ∧ sLine.cur.th < 40 := by
  refine ⟨rfl, rfl, rfl, .inr ⟨rfl, by decide⟩, rfl, rfl, rfl, by decide, lines_settled, by decide, by decide, ?_, rfl, by decide, by decide⟩
  intro p _ _ h
  obtain rfl : p = 0 := by omega
  exact ⟨rfl, by decide, by decide⟩

/-- Bank 0 with row registers of several tags, x1 and x5 at 0x400, and n elements of format f. -/
def tagged (ts : List (BitVec 4)) (f : BitVec 4) (n : Nat) : State :=
  let x : Bank := { Bank.reset with w := Vector.ofFn (fun k : Fin 16 => { WReg.reset with tag := (ts[k.val]?).getD 0 }), x := Bank.reset.x.set 5 (formed 0x400) }
  let s := s0.setBank 0 x
  s.setFront { s.front with vlcfg := ⟨BitVec.ofNat 15 n, BitVec.ofNat 15 n, 0, f⟩ }

/-- A form of a table for bank 0, and whether its checks pass. -/
def passes {α : Type} (table : State → VEnv → Bank → Instr → Option α) (ok : α → Bool) (s : State) (i : Instr) : Bool :=
  match table s (s.venv i i.len (scalarOf i) 0) (s.bank 0) i with | some f => ok f | none => false

theorem tagged_at_rest : ∀ ts f n, AtRest (tagged ts f n) [(0, 0)] := by
  intro ts f n
  refine ⟨rfl, .inl rfl, rfl, (fun _ h => by cases h), ?_, ?_⟩
  · intro q hq k
    obtain rfl : q = (0, 0) := by simpa using hq
    simp [tagged, State.bank, State.setBank, State.setFront, s0, State.reset, mapSet, mapGetD, mapGet, WReg.reset]
  · intro q hq p hp
    obtain rfl : q = (0, 0) := by simpa using hq
    simp [tagged, State.bank, State.setBank, State.setFront, s0, State.reset, mapSet, mapGetD, mapGet, Bank.reset] at hp

/-- Integers at the capacity of INT8 and at no element; floats. -/
theorem witness_ArithmeticElements :
    let arith := fun s e x i => (arithForm s e x i).orElse (fun _ => fusedForm s e x i)
    (∀ i ∈ [Instr.vaddVV 1 2 3 0 false, .vsubVV 1 2 3 15 false, .vmulVV 1 2 3 0 false, .vminVV 1 2 3 0 false, .vmaxVV 1 2 3 0 false, .vabs 1 2 0 false,
      .vneg 1 2 0 false, .vaddSVV 1 2 3 0 false, .vsubSVV 1 2 3 0 false, .vaddVX 1 2 5 0 false, .vsubVX 1 2 5 0 false, .vmulVX 1 2 5 0 false,
      .vminVX 1 2 5 0 false, .vmaxVX 1 2 5 0 false, .vaddSVX 1 2 5 0 false, .vsubSVX 1 2 5 0 false, .vaddVI 1 2 255 0 false, .vsubVI 1 2 7 0 false,
      .vrsub 1 2 7 0 false, .vmulVI 1 2 7 0 false, .vminVI 1 2 7 0 false, .vmaxVI 1 2 7 0 false, .vdiv 1 2 3 0 0, .vrem 1 2 3 0,
      .vmulVI 1 2 0 0 false], passes arith VForm.ok (tagged [1, 1, 1, 1, 1] 1 2048) i = true ∧ passes arith VForm.ok (tagged [1, 1, 1, 1, 1] 1 0) i = true) ∧
    (∀ i ∈ [Instr.vaddVV 1 2 3 0 false, .vdiv 1 2 3 0 0, .vaddRm 1 2 3 5 0 false, .vsubRm 1 2 3 1 0 false, .vmulRm 1 2 3 1 0 false,
      .vsqrt 1 2 0 0, .vrsqrte 1 2 0, .vexp2e 1 2 0, .vfma 1 2 3 4 5 0 false, .vfms 1 2 3 4 0 0 false,
      .vfmaX 1 2 5 4 0 0 false, .vfmsX 1 2 5 4 0 0 false],
      passes arith VForm.ok (tagged [11, 11, 11, 11, 11] 11 512) i = true) ∧
    (∀ m, (Instr.vaddVV 1 2 3 0 false).cpFields ≠ some (true, m)) ∧ AtRest (tagged [1, 1, 1, 1, 1] 1 2048) [(0, 0)] ∧
    ((tagged [1, 1, 1, 1, 1] 1 2048).venv (.vaddVV 1 2 3 0 false) 4 0 0).banks = [(0, 0)] := by
  refine ⟨by decide, by decide, by decide, tagged_at_rest _ _ _, by decide⟩

theorem witness_CompareBitConvertElements :
    (∀ i ∈ [Instr.vcmpEq 1 2 3 0, .vcmpNe 1 2 3 0, .vcmpLt 1 2 3 0, .vcmpLe 1 2 3 0, .vcmpGt 1 2 3 0, .vcmpGe 1 2 3 0, .vcmpUn 1 2 3 0, .vcmpOr 1 2 3 0],
      passes compareForm VForm.ok (tagged [11, 11, 11, 11] 11 512) i = true) ∧
    (∀ i ∈ [Instr.vandVV 1 2 3 0 false, .vorVV 1 2 3 0 false, .vxorVV 1 2 3 0 false, .vandn 1 2 3 0 false, .vnot 1 2 0 false, .vandVI 1 2 9 0 false,
      .vorVI 1 2 9 0 false, .vxorVI 1 2 9 0 false, .vsllVV 1 2 3 0 false, .vsrlVV 1 2 3 0 false, .vsraVV 1 2 3 0 false, .vsllVI 1 2 255 0 false,
      .vsrlVI 1 2 9 0 false, .vsraVI 1 2 9 0 false, .vsel 1 2 3 15, .vsplat 1 2, .viota 1 2],
      passes (fun _ e x i => bitsForm e x i) VForm.ok (tagged [4, 4, 4, 4] 4 512) i = true) ∧
    (∀ i ∈ [Instr.vcvt 1 2 1 5 true 0 false, .vcvtMX 2 1 3 1 0 false 0 false, .vqntMX 1 2 3 1 0 true 0 false, .vlut 4 1 5 1 0],
      passes convertForm VForm.ok (tagged [0, 1, 10, 13, 3, 3] 10 1024) i = true) := by decide

theorem witness_ComplementPairs :
    let s := tagged [4, 4, 4, 4] 4 512
    let i := Instr.vaddVV 1 2 3 3 true
    let j := Instr.vsubVV 1 2 3 0 false
    pairOk i j = true ∧ AtRest s [(0, 0)] ∧ (s.venv (.complementPair i j) (i.len + j.len) 0 0).banks = [(0, 0)] ∧
    passes (fun s e x _ => pairForm s e x i) VForm.ok s (.complementPair i j) = true ∧ passes (fun s e x _ => pairForm s e x j) VForm.ok s (.complementPair i j) = true ∧
    Trapping s0 ∧ i.cpFields = some (true, 3) := by
  exact ⟨by decide, tagged_at_rest _ _ _, by decide, by decide, by decide, ⟨rfl, rfl, rfl, rfl⟩, rfl⟩

theorem witness_PermuteResults :
    (∀ i ∈ [Instr.vpick 1 2 3 0, .vpack 1 2 3, .vspread 1 2 3, .vmovup 1 2 5 0, .vmovdn 1 2 5 0, .vpushlo 1 2 5 0, .vpushhi 1 2 5 0],
      passes (fun _ e x i => permuteForm e x i) WForm.ok (tagged [1, 1, 1, 1] 1 16) i = true) ∧ AtRest (tagged [1, 1, 1, 1] 1 16) [(0, 0)] :=
  ⟨by decide, tagged_at_rest _ _ _⟩

theorem witness_ReductionResults :
    (∀ p ∈ [(Instr.vtotal 1 2 0, [(1 : BitVec 4), 1, 1, 13]), (.vtotalSeq 1 2 0, [11, 11, 11, 13]), (.vleast 1 2 0, [11, 11, 11, 13]), (.vmost 1 2 0, [1, 1, 1, 13]),
       (.vband 1 2 0, [1, 1, 1, 13]), (.vbor 1 2 0, [1, 1, 1, 13]), (.vbxor 1 2 0, [1, 1, 1, 13]), (.vtotalMX 1 2 3 0, [11, 11, 6, 13]),
       (.vhad 1 2 0x10 0 5 true 0, [11, 11, 11, 13])],
      passes (fun s e x i => match totalForm s e x i with | some f => some f | none => hadamardForm s e x i) WForm.ok (tagged p.2 11 8) p.1 = true) := by
  decide

theorem witness_MaskResults :
    (∀ i ∈ [Instr.mkand 1 2 3, .mkor 1 2 3, .mkxor 1 2 3, .mkandn 1 2 3, .mknot 1 2, .mkbelow 1 2, .mkupto 1 2, .mkfirst 0 2], (maskRow 16 i).isSome = true) ∧
    s0.front.verify = false ∧ (4 : BitVec 5).toNat ≤ 4 ∧ s0.mustDrain = false ∧ executing s0 ≠ [] := by decide

theorem witness_PlaneResults :
    let s := tagged [15, 15, 15, 15, 15, 15, 15, 15, 3, 15, 15, 15] 15 64
    let u := s.setFront { s.front with pcfg := ⟨false, 1, 1, 1⟩ }
    (∀ i ∈ [Instr.vpadd 4 0 2 0, .vpsub 4 0 2 0, .vpmul 4 0 2 0, .vpcmpEq 4 0 2 0, .vpcmpNe 4 0 2 0, .vpcmpLt 4 0 2 0, .vpcmpLe 4 0 2 0, .vpcmpGt 4 0 2 0,
      .vpcmpGe 4 0 2 0, .vpsll 4 0 1 0, .vpsrl 4 0 1 0, .vpsra 4 0 1 0, .vpcnt 4 0 0, .vtrp 4 8 15 0, .vtrw 8 4 0 0],
      passes (fun _ e x i => planeForm e x i) WForm.ok u i = true) := by decide

theorem witness_TileInstructions :
    (∀ i ∈ [Instr.mzero 3, .mld 1 2 7, .mst 1 2 0], passes (fun s _ x i => indivisible s x i) (fun r => r.1) (tagged [4, 4, 4] 4 64) i = true) ∧
    (∀ i ∈ [Instr.mldP 2 2 15, .mstP 0 2 15], passes (fun s _ x i => indivisible s x i) (fun r => r.1) (tagged [5, 5, 5] 5 64) i = true) ∧
    (∀ i ∈ [Instr.mscale 3 1, .pfold true 1 2 3 12], passes (fun s _ x i => indivisible s x i) (fun r => r.1) (tagged [5, 13, 3, 3] 5 64) i = true) ∧
    AtRest (tagged [4, 4, 4] 4 64) [(0, 0)] ∧
    (∀ r < 64, rowTotal Bank.reset 1 r = getEl Bank.reset.q[(1 : Fin 4)] 32 r) ∧
    (let x : Bank := { Bank.reset with q := Bank.reset.q.set 1 (BitVec.ofNat 2048 (2 ^ 32)) }
     rowTotal x 1 1 ≠ getEl x.q[(1 : Fin 4)] 32 1 ∧ ∀ o < 1, rowTotal x 1 o = getEl x.q[(1 : Fin 4)] 32 o) ∧ Trapping s0 ∧ executing s0 = [(0, 0)] := by
  refine ⟨by decide, by decide, by decide, tagged_at_rest _ _ _, by decide +kernel, by decide +kernel, ⟨rfl, rfl, rfl, rfl⟩, by decide⟩

/-- No update, one, and a full row of them. -/
theorem witness_MatrixSteps :
    ∀ n ∈ [0, 64, 2048], ∀ p ∈ [(Instr.mopa 1 1 2 0 true, [(1 : BitVec 4), 1, 2]), (.mops 1 1 2 3 false, [6, 6, 7]), (.mopaMX 3 1 1 2, [6, 6, 7, 13]),
      (.mopsMX 3 1 1 2, [1, 1, 1, 13])], passes (fun _ e x i => stepForm e x i) (fun r => r.1) (tagged p.2 1 n) p.1 = true := by decide

/-- A PMMA that starts, one that resumes at its last pair, one without k steps. -/
theorem witness_PinnateResults :
    (∀ i ∈ [Instr.pexp 1 2 1 4 0, .psplit 4 2 1 3 7 0], passes (fun _ e x i => pinnateForm e x i) WForm.ok
      (tagged [0, 3, 12, 0, 1, 1, 1, 1, 1, 1, 1] 12 64) i = true) ∧
    (let p : Pinnate := ⟨false, 2, 4, 6, 1, 2, 2, true, false, 0, 1, fun _ => true⟩
     p.resumable SProg.reset ∧ p.resumable ⟨true, 2, true, false, false, 2, 2, 0, 0⟩ ∧ p.operandsOk ((tagged [0, 3, 3, 0, 1, 1, 1, 1] 1 64).bank 0) ∧
     (p.whole SProg.reset Bank.reset).2 = true) ∧
    (2 : Fin 4) ≠ evenTile false ∧ (2 : Fin 4) ≠ oddTile false ∧ 2048 % 64 = 0 ∧ (2048 ≤ 2048) := by
  unfold Pinnate.resumable Pinnate.operandsOk
  decide

theorem witness_GalleryResults :
    let s := tagged [4, 4, 4, 4] 4 8
    let e := s.venv (.grot 1 2 255 0) 4 0 0
    (∀ i ∈ [Instr.grot 1 2 255 0, .gbcast 1 2 1 0, .gperm 1 2 5 0, .gxch 1 2 63 0], (moveRow s e i).isSome = true) ∧
    (∀ i ∈ [Instr.gredSum 1 2 0, .gredMin 1 2 0, .gredMax 1 2 0, .gredAnd 1 2 0, .gredOr 1 2 0, .gredXor 1 2 0],
      (match gatherRow i with | some g => gatherOk g e.ctx.vlcfg.fmt | none => false) = true) ∧
    e.banks = [(0, 0)] ∧ AtRest s [(0, 0)] ∧ e.ctx.vlcfg.fmt ≠ 15 ∧ galleryOk e (s.bank 0) 1 2 = true ∧ positionOf e (0, 0) = 0 ∧ mayWrite e (s.bank 0) 1 = true := by
  exact ⟨by decide, by decide, by decide, tagged_at_rest _ _ _, by decide⟩

/-- Two elements of 4 bytes at 0x400. -/
def sFar : State := tagged [4, 4, 4, 4] 4 2

theorem far_free : ∀ k : Fin 16, isBound (sFar.bank 0).w[k] = false := by decide

theorem far_element (n : Nat) (h : n < 2) (need : Need) : Reaches sFar (sFar.rowAsker 0) (BitVec.ofNat 64 (0x400 + 4 * n)) 4 need sFar page0R (0x400 + 4 * n) := by
  obtain rfl | rfl : n = 0 ∨ n = 1 := by omega
  all_goals
    exact { range := by decide, aligned := by decide, translated := rfl, base := by decide, at_ := by decide, user := by decide,
            read := fun _ => by decide, write := fun _ => by decide, atomic := fun _ _ => by decide, window := by decide, present := by decide,
            still := quiet_undisturbed (by decide) }

theorem witness_FarResults :
    (∀ i ∈ [Instr.farLd 1 5 0 2 0 0 0, .farSt 2 5 0 2 0 0 false 0, .farGather 1 5 0 3 2 0 0 0, .farScatter 2 5 0 3 2 0 0 true 0, .farScadd 2 5 0 3 2 0 0 true 0,
      .farAdd 1 2 5 0 3 2 0 0 false 0, .farMin 1 2 5 0 3 2 0 0 false 0, .farMax 1 2 5 0 3 2 0 0 false 0, .farMinu 1 2 5 0 3 2 0 0 false 0,
      .farMaxu 1 2 5 0 3 2 0 0 false 0, .farAnd 1 2 5 0 3 2 0 0 false 0, .farOr 1 2 5 0 3 2 0 0 false 0, .farXor 1 2 5 0 3 2 0 0 false 0,
      .farSwap 1 2 5 0 3 2 0 0 false 0, .farCas 1 2 5 0 3 2 0 0 true 0], i.wf = true ∧
        (match farRow i with | some r => r.ok (sFar.venv i 8 0 0) (sFar.bank 0) | none => false) = true) ∧
    (match farRow (.farFadd 1 2 5 0 3 2 0 0 false 0) with
      | some r => r.ok ((tagged [0, 11, 11, 4] 11 2).venv .nop 8 0 0) ((tagged [0, 11, 11, 4] 11 2).bank 0) | none => false) = true ∧
    AtRest sFar [(0, 0)] ∧ (sFar.venv (.farSt 2 5 0 2 0 0 false 0) 8 0 0).banks = [(0, 0)] ∧ (∀ p ∈ sFar.posted, p.thread ≠ sFar.tid) ∧ sFar.farStop = none ∧
    (sFar.venv (.farSt 2 5 0 2 0 0 false 0) 8 0 0).vstart = 0 ∧
    (∀ r, farRow (.farSt 2 5 0 2 0 0 false 0) = some r → FarReaches sFar (sFar.venv (.farSt 2 5 0 2 0 0 false 0) 8 0 0) r (fun _ _ => page0R)
      (fun _ n => 0x400 + 4 * n)) := by
  refine ⟨by decide, by decide, tagged_at_rest _ _ _, by decide, by decide, rfl, by decide, ?_⟩
  intro r hr
  have hb : (sFar.venv (.farSt 2 5 0 2 0 0 false 0) 8 0 0).banks = [(0, 0)] := by decide
  obtain rfl : r = ⟨4, 0, false, none, false, false, some 2, none, 5, 0, false, 0, dataTag 4, ⟨false, true, false⟩⟩ := by
    have : farRow (.farSt 2 5 0 2 0 0 false 0) = some ⟨4, 0, false, none, false, false, some 2, none, 5, 0, false, 0, dataTag 4, ⟨false, true, false⟩⟩ := rfl
    exact Option.some.inj (hr.symm.trans this)
  have small : ∀ n, activeAt (sFar.venv (.farSt 2 5 0 2 0 0 false 0) 8 0 0) (sFar.bank 0) 0 32 n = true → n < 2 := by
    intro n h
    simp only [activeAt, Bool.and_eq_true, decide_eq_true_eq] at h
    exact h.1.2
  refine ⟨?_, ?_, ?_⟩
  · rw [hb]
    intro q hq
    obtain rfl : q = (0, 0) := by simpa using hq
    unfold addressResidueOk
    decide
  · rw [hb]
    intro q hq n hn
    obtain rfl : q = (0, 0) := by simpa using hq
    have h2 := small n hn
    obtain rfl | rfl : n = 0 ∨ n = 1 := by omega
    · exact ⟨far_element 0 h2 _, by decide, by decide, by decide, fun _ _ => by decide⟩
    · exact ⟨far_element 1 h2 _, by decide, by decide, by decide, fun _ _ => by decide⟩
  · rw [hb]
    intro q hq n hn o ho k _ hk
    obtain rfl : o = (0, 0) := by simpa using ho
    rw [far_free k] at hk
    cases hk

/-- Page tables at 0x5000, 0x6000, 0x7000 and 0x9000 with a leaf for page 1. -/
def sWalk : State :=
  { s0 with xlat := [], dram := [(0x5000, 0x01), (0x5001, 0x60), (0x6000, 0x01), (0x6001, 0x70), (0x7000, 0x01), (0x7001, 0x90), (0x9008, 0x3F), (0x900A, 0x02)] }

def tables : Nat → Nat := fun m => match m with | 3 => 0x5000 | 2 => 0x6000 | 1 => 0x7000 | _ => 0x9000

theorem walk_down : WalkDown sWalk 0x5000 1 tables 0 where
  root_ := by decide
  level := by decide
  tables := by
    intro m h1 h2
    obtain rfl | rfl | rfl : m = 1 ∨ m = 2 ∨ m = 3 := by omega
    all_goals exact ⟨by decide, by decide, quiet_undisturbed (by decide), by decide⟩
  unheld := fun _ h => by cases h
  entries := by
    intro m h1 h2
    obtain rfl | rfl | rfl : m = 1 ∨ m = 2 ∨ m = 3 := by omega
    all_goals decide

/-- A walk to a leaf; one that stops at an invalid entry of the root table, at a root outside DRAM, at an invalid leaf. -/
theorem witness_PageWalks :
    (sWalk.thread (0 * 40 + 0)).task = some task0 ∧ memoriesWf sWalk ∧ (∀ x ∈ sWalk.xlat, ¬ (x.root = task0.root ∧ x.page / 32 = 1 / 32)) ∧ sWalk.xlat = [] ∧
    WalkDown sWalk task0.root 1 tables 0 ∧ tableReadable sWalk 1 tables 0 ∧ validLeaf (walkEntry sWalk 1 tables 0) ∧
    walkEntry sWalk 1 tables 0 / 2 ^ 10 % 2 = 0 ∧ windowOf (walkEntry sWalk 1 tables 0 / 2 ^ 16 % 2 ^ 26 * 2 ^ 16) ≠ .control ∧
    (∀ x ∈ ({ s0 with xlat := [] } : State).xlat, ¬ (x.root = 0x5000 ∧ x.page / 32 = 1 / 32)) ∧ WalkDown s0 0x5000 1 tables 3 ∧ tableReadable s0 1 tables 3 ∧ walkEntry s0 1 tables 3 % 2 = 0 ∧
    WalkDown s0 0x10000000000 1 (fun _ => 2 ^ 40) 3 ∧ windowOf (2 ^ 40) ≠ .dram ∧
    ¬ validLeaf (walkEntry { sWalk with dram := sWalk.dram.dropLast.dropLast } 1 tables 0) := by
  refine ⟨by decide, ⟨by decide, by decide, fun _ => rfl⟩, by decide, rfl, walk_down, ⟨by decide, by decide, quiet_undisturbed (by decide), by decide⟩,
    by unfold validLeaf; decide, by decide, by decide, by decide,
    ⟨by decide, by decide, (fun m h1 h2 => by omega), (fun _ h => by cases h), fun m h1 h2 => by omega⟩,
    ⟨by decide, by decide, quiet_undisturbed (by decide), by decide⟩, by decide,
    ⟨by decide, by decide, (fun m h1 h2 => by omega), (fun _ h => by cases h), fun m h1 h2 => by omega⟩, by decide, by unfold validLeaf; decide⟩

/-- A write-back of each kind under way; debts at 7, 11, 12; an owned bank and one that no task owns; a deadline that waits. -/
theorem witness_ControllerSteps :
    (sPend.bank 0).pend = [] ++ ⟨0, 5, 77, 0, none, true, 0, []⟩ :: [] ∧ sPend.dram.wf = true ∧ (sPend.bank 0).xgroup = [] ∧
    leafOutside none [rowAddr 0 0 5] ∧ (∀ p ∈ (sPend.bank 0).pend, p.grp ≠ 15) ∧ (sRows.bank 0).w[(0 : Fin 16)].state = .openDirty ∧
    mapGet (sLine.bank 0).lines 17 = none ∧ (mapGet (sLine.bank 0).lines 16).isSome = true ∧ LinesSettled sLine 0 ∧
    (ownerOf s0 0 0).isSome = true ∧ (ownerOf s0 0 1).isSome = false ∧ (11 : BitVec 4).toNat < 12 ∧ ¬ (12 : BitVec 4).toNat < 12 ∧
    (let u := s0.setBank 0 { Bank.reset with deadline := 0x8000 }
     let v := u.switchTo 0 0 none
     v.thr.cond = .running ∧ v.thr.tr.busy = false ∧ v.thr.hardReq = false ∧ v.ownedAll.find? (fun q => q.2 == 0) = some (0, 0) ∧ (u.bank 0).deadline.getLsbD 15 = true) := by
  refine ⟨by decide, by decide, by decide, (fun _ h => by cases h), by decide, rfl, by decide, by decide, ?_, by decide⟩
  exact (lines_settled 0).resolve_right (by decide)

/-- A posted element of thread 0, of bank 0's instruction 0, to 0x400. -/
def elem0 : Posted := ⟨0, 0, 0, 0x400, ⟨none, false⟩, 4, 0, 7, 0, 4, false, 0, false⟩

/-- Two posted elements to one bank, of which the second must wait; two of a scatter-add to one address. -/
def sPosted : State := { s0 with posted := [elem0, { elem0 with pa := 0x408, bytes := 8, op := 26, fmt := 5 }] }
def sSum : State := { s0 with posted := [{ elem0 with op := 1 }, { elem0 with op := 1, v := 8 }] }

theorem lands (s : State) (p : Posted) (h : s = sPosted ∧ p = elem0 ∨ s = { s0 with posted := [{ elem0 with op := 1 }] } ∧ p = { elem0 with op := 1 }) : Lands s p := by
  obtain ⟨rfl, rfl⟩ | ⟨rfl, rfl⟩ := h
  all_goals exact
    { size := .inr (.inr (.inl rfl)), aligned := by decide, present := by decide, window := by decide, apart_ := (fun _ h => by cases h),
      still := ⟨rfl, (fun h => by cases h), rfl, by decide, by decide, fun _ => by decide, by decide⟩ }

theorem witness_PostedElementsApply :
    sPosted.posted[0]? = some elem0 ∧ elem0.applied = false ∧ Lands sPosted elem0 ∧ elem0.op = 0 ∧ memoriesWf sPosted ∧
    (∃ q p, sPosted.posted[0]? = some q ∧ sPosted.posted[1]? = some p ∧ p.applied = false ∧ q.applied = false ∧ comesBefore q p) ∧
    (let p : Posted := { elem0 with op := 1 }
     let u : State := { s0 with posted := [p] }
     Lands u p ∧ sumTag p.bytes p.fmt = true ∧ (∀ (m : Nat) (q : Posted), m ≠ 0 → u.posted[m]? = some q → False)) ∧
    (∃ q p, sSum.posted[0]? = some p ∧ sSum.posted[1]? = some q ∧ p.op = 1 ∧ q.op = 1 ∧ q.group = p.group ∧ q.bank = p.bank ∧ q.pa = p.pa) ∧
    (∃ p : Posted, ({ sPosted with posted := sPosted.posted.map (fun p => { p with applied := true }) } : State).posted[0]? = some p ∧ p.applied = true) := by
  refine ⟨rfl, rfl, lands _ _ (.inl ⟨rfl, rfl⟩), rfl, ⟨by decide, by decide, fun _ => rfl⟩, ⟨_, _, rfl, rfl, rfl, rfl, rfl, .inl ⟨rfl, by decide⟩⟩,
    ⟨lands _ _ (.inr ⟨rfl, rfl⟩), by decide, fun m q hm h => ?_⟩, ⟨_, _, rfl, rfl, rfl, rfl, rfl, rfl, rfl⟩, _, rfl, rfl⟩
  obtain _ | m := m
  · exact hm rfl
  · simp at h

/-- A bank with `n` repairs in each of `g` groups. -/
def repaired (g n : Nat) : Bank := { Bank.reset with repairs := (List.range g).flatMap (fun i => (List.range n).map (fun j => (i * 2 ^ 12 + j, j))) }

theorem witness_RepairsAndRetirements :
    sparesTaken (repaired 1 23) 0 = 23 ∧ sparesTaken (repaired 1 24) 0 = 24 ∧ sparesTaken (repaired 1 24) 1 < 24 ∧ (∀ h < 1, 24 ≤ sparesTaken (repaired 1 24) h) ∧
    (∀ g < 16, 24 ≤ sparesTaken (repaired 16 24) g) ∧ (s0.stack 0).excluded = false ∧ (s0.stack 0).spareUsed.getLsbD 15 = false ∧ s0.upsets = [] ∧ s0.latent = [] ∧
    ({ Bank.reset with copying := [3 * 2 ^ 12 + 7] } : Bank).copying.contains (3 * 2 ^ 12 + 7) = true ∧
    (let x : Bank := { Bank.reset with blames := [(8, 1), (8, 2), (8, 3)], count := 3 }
     suspected x 8 = true ∧ (∀ h < 8, suspected x h = false) ∧ x.quarantined.length < 2 ∧
     suspected { x with quarantined := [0, 1] } 8 = true ∧ ({ x with quarantined := [0, 1] } : Bank).quarantined.length = 2) ∧
    ({ Bank.reset with suspect := true } : Bank).suspect = true ∧ ({ Bank.reset with moving := true } : Bank).moving = true := by decide +kernel

/-- Queue 0 of stack 0 runs a command, with the program of slot 0 installed. -/
def running (r : Running) (slot : List (Nat × Word)) : State :=
  s0.setStack 0 { stack0 with engines := stack0.engines.set 0 ⟨[], some r, none, 0⟩, gel := [(0, slot)] }

/-- A command of task 0 with its operands. -/
def command (op : Nat) (ops : List Word) : Running :=
  ⟨0, BitVec.ofNat 8 op, BitVec.ofNat 64 (op * 2 ^ 56), ops, 0, 0, 0, [], [], none, [], [], ⟨⟨0, 0, 0⟩, 0x5000, .user⟩⟩

theorem page0_range (r : Running) (slot : List (Nat × Word)) (va : Nat) (h : va = 0x400 ∨ va = 0x500) (write : Bool) :
    UnitRange (running r slot) 0 ⟨⟨0, 0, 0⟩, 0x5000, .user⟩ va 8 write (fun _ => page0) :=
  page0_unit write (by omega) ⟨rfl, rfl, rfl, rfl⟩ rfl (by show s0.xlat.find? _ = some page0; decide)

/-- Queue 0 at rest with a whole command in its FIFO and a word behind it. -/
def queued (op : Nat) (ops : List Word) : State :=
  let own : QOwner := ⟨⟨0, 0, 0⟩, 0x5000, .user⟩
  let h : Word := BitVec.ofNat 64 (op * 2 ^ 56 + ops.length * 2 ^ 53)
  s0.setStack 0 { stack0 with engines := stack0.engines.set 0 ⟨(h :: ops).map (fun w => (w, own)) ++ [(7, own)], none, none, 4⟩ }

/-- A wait and a copy whose words can be reached, a copy whose completion word lies past the address space, one in a page that the queue may not write; a command
of no known OP, a copy with a misaligned completion word, a program, which names no word. -/
theorem witness_EngineCommands_start :
    (let own : QOwner := ⟨⟨0, 0, 0⟩, 0x5000, .user⟩
     ∀ p ∈ [(6, [(0x400 : Word), 0], 0x400), (1, [0x400, 0x500, 8, 0x400], 0x400), (1, [0x400, 0x500, 8, 0x10000000000000], 2 ^ 52), (9, [1, 2], 0),
        (1, [0x400, 0x500, 8, 0x401], 0x401), (5, [0, 0], 0)],
      let h : Word := BitVec.ofNat 64 (p.1 * 2 ^ 56 + p.2.1.length * 2 ^ 53)
      let s := queued p.1 p.2.1
      (engineOf s 0 0).run = none ∧ (engineOf s 0 0).held = none ∧ (engineOf s 0 0).fifo = (h :: p.2.1).map (fun w => (w, own)) ++ [(7, own)] ∧
        p.2.1.length = fieldOf h 55 53 ∧ startWord h p.2.1 = p.2.2) ∧
    (∀ write, UnitRange (queued 6 [0x400, 0]) 0 ⟨⟨0, 0, 0⟩, 0x5000, .user⟩ 0x400 8 write (fun _ => page0)) ∧
    (∀ write, UnitRange (queued 1 [0x400, 0x500, 8, 0x400]) 0 ⟨⟨0, 0, 0⟩, 0x5000, .user⟩ 0x400 8 write (fun _ => page0)) ∧
    (let y : Xlat := { page0 with leaf := 0x1F7 }
     let s : State := { queued 1 [0x400, 0x500, 8, 0x400] with xlat := [y] }
     translate s (unitAsker 0) 0x5000 0x400 = (s, .found y) ∧ y.bit 3 = false) :=
  ⟨by decide, fun w => page0_unit w (by decide) ⟨rfl, rfl, rfl, rfl⟩ rfl (by decide), fun w => page0_unit w (by decide) ⟨rfl, rfl, rfl, rfl⟩ rfl (by decide),
    translate_held (by decide), by decide⟩

/-- A copy, a wait, a program of each kind of step, a command that ends: 8 bytes from 0x400, to 0x500. -/
theorem witness_EngineCommands :
    (let r := command 1 [0x400, 0x500, 8, 0]
     let s := running r []
     runs s 0 0 r ∧ memoriesWf s ∧ r.op = 1 ∧ r.status = none ∧ UnitRange s 0 r.own 0x400 8 false (fun _ => page0) ∧
       UnitRange s 0 r.own 0x500 8 true (fun _ => page0) ∧ PieceSource s 0 r 0x400 0 8 (fun _ => page0) ∧
       (readStop 0x400 8 8 = 8 ∧ pieceStop 0x500 0 8 = 8 ∧ pieceStop 0x503 0 9000 = 4093 ∧ readStop 0x402 4093 9000 = 4094) ∧ distinct s (fun _ => page0) 0x500 8 ∧
       runs (running (ends r 1) []) 0 0 (ends r 1) ∧ (ends r 1).status = some 1 ∧ s.thr.task.map (fun i => i.id) = some r.own.task) ∧
    (let r := { command 6 [0x400, 7] with pos := 1 }
     r.op = 6 ∧ r.status = none ∧ 0x400 % 8 = 0 ∧ r.pos ≠ 0 ∧ operand r 1 ≠ 0) ∧
    (let r := command 5 [0, 0]
     fieldOf (slotReg (running r []) 0 r 0) 7 0 = 0 ∧
     (∀ p ∈ [(1, 3, [(0x48, (0x500 : Word)), (0x50, 0x400), (0x58, 8)]), (3, 3, [(0x48, 0x500), (0x50, 7), (0x58, 8)]), (4, 2, [(0x48, 0x400), (0x50, 3)]),
        (5, 2, [(0x48, 0x500), (0x50, 3)]), (6, 2, [(0x48, 0x500), (0x50, 3)])],
       let slot : List (Nat × Word) := (0, (1 : Word)) :: (0x40, BitVec.ofNat 64 (p.1 * 2 ^ 56)) :: p.2.2
       let s := running r slot
       r.done < fieldOf (slotReg s 0 r 0) 7 0 ∧ mapGetD (s.stack 0).gelRev (fieldOf (operand r 0) 5 0) 0x00010002 = 0x00010002 ∧
       slotReg s 0 r (0x40 + 64 * r.done) = BitVec.ofNat 64 (p.1 * 2 ^ 56) ∧
       (∀ m < 7, p.2.1 ≤ m → slotReg s 0 r (0x40 + 64 * r.done + 8 + 8 * m) = 0) ∧
       ∀ m < p.2.1, (slotReg s 0 r (0x40 + 64 * r.done + 8 + 8 * m)).getLsbD 63 = true →
         fieldOf (slotReg s 0 r (0x40 + 64 * r.done + 8 + 8 * m)) 62 60 ≤ 5)) := by
  refine ⟨⟨⟨by decide, by decide⟩, ⟨by decide, by decide, fun _ => rfl⟩, by decide, by decide, page0_range _ _ _ (.inl rfl) _, page0_range _ _ _ (.inr rfl) _,
    ⟨(fun _ h => by cases h), page0_range _ _ _ (.inl rfl) _, by unfold unpoisoned; decide⟩, by decide,
    by unfold distinct; decide, ⟨by decide, by decide⟩, by decide⟩, by decide, by decide⟩

/-- An export of 8 KiB at 0x400 with every permission, and a packet of 8 bytes for it. -/
def packet0 (k : PacketKind) : Packet := ⟨k, 1, 2, 0, 0, 3, 0, 8, [1, 2, 3, 4, 5, 6, 7, 8], 5, 0, [], false, true⟩
def flag0 : Packet := { packet0 .flag with off := 8, len := 0 }
def sExport : State :=
  { running (command 1 []) [] with exports := Vector.replicate 64 ⟨0xE000000000000000, 0x400, 0x2000⟩, keys := Vector.replicate 16 (some 9),
                                   dram := [(0x9001, 0x50)], flagsOut := [flag0],
                                   stks := [(0, { stack0 with ctxbase := 0x9000 })] }

theorem export_range (va : Nat) (h : va = 0x400 ∨ va = 0x408) (write : Bool) :
    UnitRange sExport 0 (exportRoot sExport sExport.exports[(3 : Fin 64)]) va 8 write (fun _ => page0) :=
  page0_unit write (by omega) ⟨rfl, rfl, rfl, rfl⟩ rfl (by decide)

theorem export_table : exportTable sExport sExport.exports[(3 : Fin 64)] := by
  refine ⟨by decide, fun i hi => ⟨?_, (bare_undisturbed ⟨rfl, rfl, rfl, rfl⟩ _).1⟩⟩
  show windowOf (0x9000 + i) = .dram
  unfold windowOf
  rw [show (0x9000 + i) / 2 ^ 40 = 0 by omega]
  rfl

/-- A unit of each remote command; a command whose one packet waits for its answer, and one that has ended meanwhile. -/
theorem witness_RemoteCommands :
    (∀ p ∈ [(command 2 [0x400, 0x0000030C00000000, 8, 0], PacketKind.write), (command 3 [0x400, 0x0000030C00000000, 8, 0, 2], .precopy),
       (command 4 [0x400, 0x0000030C00000000, 0x0500000000000008, 0], .coll)],
      pushes p.1 = some (p.2, 0) ∧ unitStart p.1 0 = 0 ∧ unitEnd p.1 0 = 8 ∧ p.1.status = none) ∧
    (let r := command 2 [0x400, 0x0000030C00000000, 8, 0]
     runs (running r []) 0 0 r ∧ readStop 0x400 8 (lengthOf r) = 8 ∧ PieceSource (running r []) 0 r 0x400 0 8 (fun _ => page0)) ∧
    (let r := command 2 [0x400, 3, 9000, 0]
     unitEnd r 0 = 4101 ∧ unitStart r 1 = 4101 ∧ unitEnd r 1 = 8197 ∧ unitEnd r 2 = 9000 ∧ packetCount r = 3) ∧
    (let r := command 4 [0x400, 0, 8, 0, 0, 7]
     r.op = 4 ∧ ({ r with sent := 1, acked := [0] } : Running).sent = packetCount r ∧ packetCount r ≤ ackedPrefix [0]) ∧
    (let r := { command 2 [0x400, 0, 8, 0] with sent := 1 }
     2 ≤ r.op.toNat ∧ r.op.toNat ≤ 4 ∧ answers (running r []) 0 0 r 0 ∧ answers { running r [] with ackFor := some (0, 0) } 0 0 r 0 ∧
       runs (running (ends r 5) []) 0 0 (ends r 5) ∧ (ends r 5).status = some 5 ∧ answers (running (ends r 5) []) 0 0 (ends r 5) 0) :=
  ⟨by decide, ⟨⟨by decide, by decide⟩, by decide, (fun _ h => by cases h), page0_range _ _ _ (.inl rfl) _, by unfold unpoisoned; decide⟩, by decide, by decide,
    by unfold answers runs; decide⟩

/-- COPY.NODE with PULL: a unit to ask for, its bytes, and the second unit's bytes ahead of the first's. -/
theorem witness_RemoteCommands_pull :
    (let r := command 2 [0x400, 0, 0x8000000000000008, 0]
     (operand r 2).getLsbD 63 = true ∧ r.sent < packetCount r) ∧
    (let r := { command 2 [0x400, 0, 0x8000000000000008, 0] with sent := 1 }
     runs (running r []) 0 0 r ∧ answers (running r []) 0 0 r 0 ∧ (r.carry = [] ∧ r.got = [] ∧ r.acked = List.range 0 ∧ unitEnd r 0 - unitStart r 0 = 8) ∧
     memoriesWf (running r []) ∧ UnitRange (running r []) 0 r.own 0x400 8 true (fun _ => page0) ∧ distinct (running r []) (fun _ => page0) 0x400 8) ∧
    (let r := { command 2 [0x400, 0, 0x8000000000001008, 0] with sent := 2 }
     let s : State := { running r [] with ackFor := some (0, 1) }
     runs s 0 0 r ∧ answers s 0 0 r 1 ∧ r.acked = List.range 0 ∧ 0 < 1 ∧ r.sent ≤ packetCount r ∧ unitEnd r 1 - unitStart r 1 = 8) :=
  ⟨by decide, ⟨⟨by decide, by decide⟩, by unfold answers; decide, by decide, ⟨by decide, by decide, fun _ => rfl⟩, page0_range _ _ _ (.inl rfl) _,
    by unfold distinct; decide⟩, ⟨by decide, by decide⟩, by unfold answers; decide, by decide⟩

/-- HARVEST over one page. -/
theorem witness_RemoteCommands_harvest :
    let r := command 3 [0, 0, 4096, 0, 16]
    let s := running r []
    (harvests r = true ∧ r.pos = 0 ∧ 4096 ≤ lengthOf r ∧ (0 + lengthOf r / 4096 - 1) / 16 = 0 ∧ lengthOf r % 4096 = 0 ∧ s.posted = [] ∧ s.stores = []) ∧
    (page0.bit 2 = true ∧ page0.bit 9 = false ∧ page0.bit 5 = true ∧ windowOf page0.base ≠ .control ∧ page0.base % 2 ^ 16 = 0 ∧ populated s page0.base = true) ∧
    (windowOf page0.leafAddr = .dram ∧ page0.leafAddr % 8 = 0 ∧ Undisturbed s page0.leafAddr) ∧
    translate s (unitAsker 0) r.own.root 0 = (s, .found page0) ∧ memoriesWf s :=
  ⟨by decide, by decide, ⟨by decide, by decide, (bare_undisturbed ⟨rfl, rfl, rfl, rfl⟩ _).1⟩, rfl, ⟨by decide, by decide, fun _ => rfl⟩⟩

/-- At the target a packet of each kind, one out of range, one whose key is missing, a flag that waits for nothing more. -/
theorem witness_RemoteCommands_target :
    let e := sExport.exports[(3 : Fin 64)]
    (∀ k ∈ [PacketKind.write, .read, .precopy, .coll, .flag], admits sExport e (packet0 k)) ∧ ¬ admits sExport e { packet0 .write with off := 0x2001 - 8 } ∧
    collFormat (packet0 .coll) ∧ exportTable sExport e ∧
    ((brings sExport (packet0 .write)).isSome = true ∧ brings { sExport with keys := Vector.replicate 16 none } (packet0 .precopy) = none ∧
      tagWidth (BitVec.ofNat 4 5) / 8 = 8) ∧
    memoriesWf sExport ∧ (∀ write, UnitRange sExport 0 (exportRoot sExport e) 0x400 8 write (fun _ => page0)) ∧
    distinct sExport (fun _ => page0) 0x400 8 ∧ unpoisoned sExport (fun _ => page0) 0x400 8 ∧
    (sExport.flagsOut[0]? = some flag0 ∧ flag0.len = 0 ∧ flag0.kind = .flag ∧ flag0.data.length = 8) ∧ admits sExport e flag0 ∧
    ¬ admits sExport e { flag0 with off := 0x2000 } ∧
    UnitRange sExport 0 (exportRoot sExport e) 0x408 8 true (fun _ => page0) ∧ distinct sExport (fun _ => page0) 0x408 8 :=
  ⟨by unfold admits; decide, by unfold admits; decide, by unfold collFormat; decide, export_table, by decide, ⟨by decide, by decide, fun _ => rfl⟩,
    export_range _ (.inl rfl), by unfold distinct; decide, by unfold unpoisoned; decide, by decide, by unfold admits; decide, by unfold admits; decide,
    export_range _ (.inr rfl) _, by unfold distinct; decide⟩

/-- A kernel of one bank without spatial loops, and a record for it. -/
def kernel0 : Kernel := ⟨0x5000, 0x40, 0x1000, 1, 1, 0, [], 0, false, []⟩
def record0 : LaunchRec := ⟨0x40, 0x900, 0, 7, false, Vector.replicate 16 0, 0, 0x5000⟩

/-- A state with a device launch, a host queue of one entry at 0x800 that holds record0's words, and a launch whose DEPWORD is at 0x400. -/
def sQueues : State :=
  let k : Stack := { stack0 with
    devq := [record0], ctxbase := 0x9000, hostq := stack0.hostq.set 3 ⟨0x800, 0x8000000000000001, 0, 0, 1⟩,
    table := [{ launch0 with rcd := { launch0.rcd with dep := 0x400 }, eligible := false }], nextLaunch := 1 }
  { s0 with stks := [(0, k)], kernels := [kernel0], dram := [(0x800, 0x40), (0x809, 0x09), (0x818, 0x07), (0x9001, 0x50)] }

theorem expandable : Expandable sQueues 0 record0 kernel0 [0] where
  kernel := by decide
  stackCount := by decide
  fronds := by decide
  banks := by decide
  upward := by decide
  serve := by decide
  fresh := by decide

theorem queues_windows (a : Nat) (h : a = 0x800 ∨ a = 0x9000) :
    ∀ i < 256, windowOf (a + i) = .dram ∧ populated sQueues (a + i) = true ∧ Undisturbed sQueues (a + i) := by
  intro i hi
  have hw : windowOf (a + i) = .dram := by
    unfold windowOf
    rw [show (a + i) / 2 ^ 40 = 0 by omega]
    rfl
  refine ⟨hw, ?_, (bare_undisturbed ⟨rfl, rfl, rfl, rfl⟩ _).1⟩
  unfold populated
  rw [hw, show (a + i) / 2 ^ 35 % 32 = 0 by omega, show (a + i) / 2 ^ 27 = 0 by omega, decide_eq_true (by omega)]
  rfl

theorem queues_range (va : Nat) (h : va = 0x400 ∨ va = 0x900) (write : Bool) :
    UnitRange sQueues 0 ⟨⟨0, 0, 0⟩, 0x5000, .supervisor⟩ va 8 write (fun _ => page0) :=
  page0_unit write (by omega) ⟨rfl, rfl, rfl, rfl⟩ rfl (by decide)

/-- A device launch and a host entry that become tasks, an entry that fails its check, a launch that waits for its DEPWORD. -/
theorem witness_LaunchUnitSteps :
    ((sQueues.stack 0).devq = record0 :: [] ∧ ((sQueues.stack 0).cols[0]).state ≠ .stopped ∧ (sQueues.stack 0).table.length < 256 ∧
      (sQueues.stack 0).excluded = false) ∧
    Expandable sQueues 0 record0 kernel0 [0] ∧
    (let h := (sQueues.stack 0).hostq[(3 : Fin 16)]
     sQueues.boot.ready = true ∧ h.cfg.getLsbD 63 = true ∧ fieldOf h.cfg 12 0 = 1 ∧ h.head.toNat ≠ fieldOf h.tail 31 0 ∧
     h.base.toNat + 256 * (h.head.toNat % 1) = 0x800 ∧ (sQueues.stack 0).ctxbase.toNat + 256 * fieldOf h.cfg 23 16 = 0x9000) ∧
    (∀ i < 256, windowOf (0x800 + i) = .dram ∧ populated sQueues (0x800 + i) = true ∧ Undisturbed sQueues (0x800 + i)) ∧
    (∀ i < 256, windowOf (0x9000 + i) = .dram ∧ populated sQueues (0x9000 + i) = true ∧ Undisturbed sQueues (0x9000 + i)) ∧
    (¬ badRecord (recordAt sQueues 0x800) ∧ badRecord (recordAt { sQueues with dram := [] } 0x800)) ∧ bytesIn sQueues 0x9000 8 = 0x5000 ∧
    UnitRange sQueues 0 ⟨⟨0, 0, 0⟩, 0x5000, .supervisor⟩ 0x900 8 true (fun _ => page0) ∧
    (∃ l, sQueues.getLaunch 0 0 = some l ∧ l.eligible = false ∧ l.rcd.dep.toNat % 8 = 0) ∧
    UnitRange sQueues 0 ⟨⟨0, 0, 0⟩, 0x5000, .supervisor⟩ 0x400 8 false (fun _ => page0) :=
  ⟨by decide, expandable, by decide, queues_windows _ (.inl rfl), queues_windows _ (.inr rfl), by unfold badRecord; decide, by decide, queues_range _ (.inr rfl) _,
    ⟨_, rfl, rfl, by decide⟩, queues_range _ (.inl rfl) _⟩

/-- A fresh task of a launch, and a module in which it waits, thread 0 being free. -/
def fresh0 : Fresh := ⟨record0, 0, 0, 1, 1, 0x1000, 0⟩
def waiting0 : Waiting := ⟨task0, some fresh0, none, none, false, false, false, none⟩
def sWaiting : State := { s0 with thr := Thread.reset, stks := [(0, { stack0 with table := [launch0], nextLaunch := 1, waiting := [waiting0] })] }

/-- The same for a gang. -/
def gang0 : Launch := { launch0 with rcd := { launch0.rcd with gang := true } }
def gangTask : Waiting := { waiting0 with info := { task0 with gang := true } }
def sGang (l : Launch) (w : Option Nat) : State :=
  { s0 with thr := Thread.reset, stks := [(0, { stack0 with table := [l], nextLaunch := 1, waiting := [{ gangTask with reserved := w }] })] }

/-- A gang whose one member is placed. -/
def sPlaced : State :=
  { s0 with thr := { s0.thr with cond := .ready false, task := some { task0 with gang := true } }, stks := [(0, { stack0 with table := [gang0], nextLaunch := 1 })] }

theorem takes (s : State) (w : Waiting) (l : Launch) (h : s = sWaiting ∧ w = waiting0 ∧ l = launch0 ∨ s = sGang gang0 none ∧ w = gangTask ∧ l = gang0) :
    Takes s 0 0 w fresh0 l ⟨0, 3, 0, false, 0, 0, 0, false, false, 16⟩ := by
  obtain ⟨rfl, rfl, rfl⟩ | ⟨rfl, rfl, rfl⟩ := h
  all_goals exact { only := rfl, task := by decide, launch := by decide, column := by decide, walker := ⟨2, by decide⟩, works := by decide, thread := by decide, frond := by decide, banks := by decide }

theorem nothing_waits : (∀ m < 32, (sPlaced.stack m).waiting = []) ∧ ∀ m < 32, m ≠ 0 → ((sGang gang0 none).stack m).waiting = [] := by decide

/-- A saved task that waits, of one bank, its register 0 bound to row 5. -/
def saved0 : SavedTask := ⟨thread0, [(0, 0)], false⟩
def savedWaits : Waiting := ⟨task0, none, some saved0, none, false, false, false, none⟩
def sSaved : State :=
  { sWaiting with stks := [(0, { stack0 with table := [launch0], nextLaunch := 1, waiting := [savedWaits] })],
                  banks := [(0, { Bank.reset with slots := Bank.reset.slots.set 0 (some slot0) })] }

theorem restores : Restores sSaved 0 0 savedWaits saved0 0 where
  only := rfl
  task := by decide
  launch := ⟨launch0, by decide⟩
  column := by decide
  walker := ⟨2, by decide⟩
  works := by decide
  thread := by decide
  frond := by decide
  place := by decide
  slots := fun p h => by
    obtain rfl : p = (0, 0) := by simpa [saved0] using h
    exact ⟨by decide, slot0, rfl, rfl⟩
  sector := by decide
  context := by
    have h : ∀ i < 256, windowOf i = .dram ∧ Quiet sSaved i := by decide +kernel
    exact ⟨by decide, fun i hi => by
      rw [show (sSaved.stack 0).ctxbase.toNat + 256 * savedWaits.info.ctx.toNat + i = i from by
        rw [show (sSaved.stack 0).ctxbase.toNat + 256 * savedWaits.info.ctx.toNat = 0 by decide]
        omega]
      exact ⟨(h i hi).1, quiet_undisturbed (h i hi).2⟩⟩

theorem bindings_hold : bindingsHold sSaved 0 0 savedWaits saved0 0 := by
  intro n p hn y hy k hk
  obtain rfl | m := n
  · obtain rfl : (0, 0) = p := by simpa [saved0] using hn
    obtain rfl : slot0 = y := by
      have : (sSaved.bank 0).slot 0 = some slot0 := rfl
      exact Option.some.inj (this.symm.trans hy)
    obtain rfl : k = 0 := by
      have only : ∀ k : Fin 16, (slot0.regs[k]).state ≠ .free → k = 0 := by decide
      exact only k hk
    exact ⟨page0R, by decide +kernel⟩
  · simp [saved0] at hn

/-- A waiting task of a higher priority than the one that runs, no thread being free for it. -/
def sAsking : State :=
  let l : Launch := { launch0 with id := 1 }
  let w : Waiting := { waiting0 with info := { task0 with id := ⟨0, 1, 0⟩, prio := 1 } }
  { s0 with thr := { thread0 with task := some { task0 with ran := 2 ^ 20 } },
            stks := [(0, { stack0 with table := [launch0, l], nextLaunch := 2, waiting := [w], park := 0xFFFFFFFFFE })] }

theorem witness_SchedulerSteps_request :
    let w : Waiting := { waiting0 with info := { task0 with id := ⟨0, 1, 0⟩, prio := 1 } }
    let i : TaskInfo := { task0 with ran := 2 ^ 20 }
    (sAsking.stack 0).waiting = [w] ∧ (w.hold = false ∧ w.reserved = none ∧ w.info.gang = false) ∧
    (∃ l, sAsking.getLaunch 0 1 = some l ∧ l.eligible = true ∧ l.failed = false) ∧
    (((sAsking.stack 0).cols[0]).state ≠ .stopped ∧ ((sAsking.stack 0).cols[1]).state ≠ .stopped) ∧
    (∀ o < 40, (sAsking.thread (0 * 40 + o)).task.isSome = true ∨ (sAsking.stack 0).park.getLsbD o = true) ∧
    (∀ o < 40, ¬ ((sAsking.thread (0 * 40 + o)).reqBy = some w.info.id)) ∧ mayAsk sAsking 0 (agedPrio sAsking 0 w) 0 i ∧
    (∀ o < 40, ∀ y, mayAsk sAsking 0 (agedPrio sAsking 0 w) o y → i.prio < y.prio ∨ (i.prio = y.prio ∧ 0 ≤ o)) := by
  refine ⟨rfl, by decide, ⟨_, rfl, rfl, rfl⟩, by decide, by decide, by decide, ⟨rfl, fun _ h => (by cases h), ?_, ?_, rfl, rfl⟩, fun o _ y _ => ?_⟩
  · exact Nat.lt_min.mpr ⟨by decide, Nat.lt_of_lt_of_le Nat.one_pos (Nat.le_add_right 1 _)⟩
  · show 2 ^ (20 : BitVec 5).toNat ≤ 2 ^ 20 + _
    exact Nat.le_add_right _ _
  · show 0 < y.prio ∨ (0 = y.prio ∧ 0 ≤ o)
    omega

theorem witness_SchedulerSteps :
    Takes sWaiting 0 0 waiting0 fresh0 launch0 ⟨0, 3, 0, false, 0, 0, 0, false, false, 16⟩ ∧ waiting0.info.gang = false ∧
    Restores sSaved 0 0 savedWaits saved0 0 ∧ bindingsHold sSaved 0 0 savedWaits saved0 0 ∧ s0.getLaunch 0 0 = none ∧
    (let v : Thread := { s0.thr with softReq := true, hardReq := true }
     let u : State := { s0 with thr := v }
     (u.thread (0 * 40 + 0)).softReq = true ∧ (u.thread (0 * 40 + 0)).task = some task0 ∧ saveable u 0 0 ∧ v.hardReq = true ∧ v.handlers = [] ∧
       ({ v with handlers := [none] } : Thread).handlers ≠ [] ∧ saveable { s0 with thr := { v with handlers := [none] } } 0 0) ∧
    (sGang gang0 none).getLaunch 0 0 = some gang0 ∧ gang0.rcd.gang = true ∧ gang0.started = false ∧ gang0.failed = false ∧
    Takes (sGang gang0 none) 0 0 gangTask fresh0 gang0 ⟨0, 3, 0, false, 0, 0, 0, false, false, 16⟩ ∧ gangTask.info.id.stack = 0 ∧ gangTask.info.id.launch = 0 ∧
    (∀ o < 0, ((sGang gang0 none).stack 0).park.getLsbD o = true) ∧ (∀ o < 40, ((sGang gang0 none).thread (0 * 40 + o)).task = none) ∧
    (∀ m < 32, m ≠ 0 → ∀ o, ¬ memberWaits (sGang gang0 none) 0 0 m o) ∧
    (∀ m < 32, ∀ o, ¬ memberWaits sPlaced 0 0 m o) ∧ (sPlaced.launchThreads 0 0).length + gang0.finished = gang0.ns * gang0.nf ∧
    (∀ v ∈ sPlaced.launchThreads 0 0, (sPlaced.thread v).cond = .ready false ∧ (sPlaced.thread v).lostBind = none) ∧
    memberWaits (sGang gang0 (some 0)) 0 0 0 { gangTask with reserved := some 0 } ∧ ({ gang0 with attempts := 2 } : Launch).attempts < 3 ∧
    (let l : Launch := { gang0 with failed := true }
     (sGang l none).getLaunch 0 0 = some l ∧ l.failed = true ∧ l.rcd.gang = true ∧ l.wordDue = false ∧ ((sGang l none).stack 0).excluded = false ∧
       ∀ x ∈ ((sGang l none).stack 0).table, x.rcd.gang = true → x.id % 2 ^ 27 = 0 % 2 ^ 27 → x = l) := by
  refine ⟨takes _ _ _ (.inl ⟨rfl, rfl, rfl⟩), rfl, restores, bindings_hold, by decide, ⟨rfl, rfl, by unfold saveable; decide, rfl, rfl, by decide, by unfold saveable; decide⟩, by decide, rfl, rfl, rfl, takes _ _ _ (.inr ⟨rfl, rfl, rfl⟩),
    rfl, rfl, (fun _ h => by omega), by decide, fun m h1 hm o h => ?_, fun m h1 o h => ?_, by decide, by decide, ⟨List.mem_singleton.mpr rfl, rfl, rfl⟩,
    by decide, by decide, rfl, rfl, by decide⟩
  · exact absurd h.1 (by rw [nothing_waits.2 m h1 hm]; exact List.not_mem_nil)
  · exact absurd h.1 (by rw [nothing_waits.1 m h1]; exact List.not_mem_nil)

/-- Requests that bind front end 1 to its home half-slabs, to one of its own beside a neighbour's, to a gang of three columns, a spare front end; that name an
absent front end, an odd number of half-slabs, columns out of reach or apart, a half-slab that another frond holds. -/
theorem witness_StackUnitSteps_binding :
    (∀ p ∈ [(1, (0x0C : BitVec 8)), (1, 0x14), (2, 0xFC), (4, 0x0C), (0, 0x03)], p.2 ≠ 0 ∧ ¬ bindingBad s0 0 p.1 p.2) ∧ (∀ fe ∈ [1, 2, 4], ¬ frontBusy s0 0 fe) ∧
    (∀ p ∈ [(20, (0x03 : BitVec 8)), (1, 0x1C), (0, 0x30), (1, 0xC3), (1, 0x03)], p.2 ≠ 0 ∧ bindingBad s0 0 p.1 p.2) ∧ frontBusy s0 0 0 ∧
    (let v : Word := 0x8000000000010C00
     v.getLsbD 63 = true ∧ fieldOf v 20 16 = 1 ∧ BitVec.ofNat 8 (fieldOf v 15 8) = 0x0C) ∧
    ((s0.stack 0).bindGo = false ∧ ({ stack0 with bindGo := true } : Stack).bindGo = true ∧ (s0.stack 0).excluded = false ∧
      ((s0.stack 0).cols[1]).state ≠ .stopped ∧ (⟨.stopped, 0⟩ : Column).state = .stopped) ∧
    (let w : Waiting := savedWaits
     let u : State := { sWaiting with stks := [(0, { stack0 with waiting := [w] })] }
     w ∈ (u.stack 0).waiting ∧ w.loose = false ∧ w.saved = some saved0 ∧ (0, 0) ∈ saved0.map ∧ 0 ∈ banksOf u 0 0 ∧
       ∀ c < 2, (u.thread (0 * 40 + 2 * 0 + c)).task = none) := by
  refine ⟨?_, ?_, ?_, ?_, by decide, by decide, by decide⟩
  · simp only [bindingBad, usesColumn]
    decide
  · unfold frontBusy
    decide
  · simp only [bindingBad, usesColumn]
    decide
  · unfold frontBusy
    decide

/-- A bank that leaves service, and columns, in each state; an error of a task and of a started gang; a front end with a task that can be pre-empted at once and one
that owes a resumed instruction. -/
theorem witness_StackUnitSteps :
    ((s0.stack 0).retGo = false ∧ (s0.bank 0).retired = false ∧ (s0.bank 0).moving = false ∧ (s0.bank 0).gone = false ∧
      (s0.stack 0).spareUsed.getLsbD (fieldOf 0x80000000000000FF 7 0 / 16) = false) ∧ allMayStop s0 0 ∧
    (((s0.stack 0).cols[(0 : Fin 6)]).state = .triple ∧ (⟨.resync, 63⟩ : Column).state = .resync) ∧
    (let x : Stack := { stack0 with cols := Vector.ofFn (fun c : Fin 6 => if 2 < c.val then ⟨.stopped, 2⟩ else ⟨.resync, 1⟩) }
     (x.cols[(2 : Fin 6)]).state = .resync ∧ ∀ w : Fin 6, 2 ≤ w.val → w ≠ 2 → (x.cols[w]).state = .stopped) ∧
    ((s0.thread (0 * 40 + 0)).task = some task0 ∧ task0.gang = false ∧ s0.getLaunch 0 0 = none) ∧
    (let l : Launch := { gang0 with started := true }
     let u : State := { sPlaced with stks := [(0, { stack0 with table := [l] })] }
     u.getLaunch 0 0 = some l ∧ l.status = 0 ∧ (u.thread (0 * 40 + 0)).task = some { task0 with gang := true }) ∧
    (let v : Thread := { s0Queue.thr with front := { s0Queue.thr.front with owed := true } }
     v.owes = true ∧ v.task = some task0 ∧ ∀ b, v.cond ≠ .ready b) := by
  refine ⟨by decide, fun th h1 h2 => ?_, ?_⟩
  · have idle : ∀ o < 40, o ≠ 0 → (s0.thread (0 * 40 + o)).task.isSome = false := by decide
    obtain rfl | h := Nat.eq_zero_or_pos th
    case inr =>
      rw [idle th h1 (Nat.ne_of_gt h)] at h2
      cases h2
    refine ⟨by decide, fun o h3 h4 h5 => ?_⟩
    rw [idle o h3 h4] at h5
    cases h5
  · decide

/-- A write list of one entry, one too short, one of another revision. -/
def goodList : List Byte := natToBytes 8 0x100010002 ++ natToBytes 8 0 ++ natToBytes 8 8 ++ natToBytes 8 5

theorem good_list : GoodList goodList where
  revision := by decide
  count := by decide
  reserved := by decide
  offsets := by decide
  values := by decide

theorem witness_HostSteps :
    windowOf 0x1000 ≠ .control ∧ State.reset.boot.on = false ∧ s0.boot.on = true ∧ s0.boot.ready = true ∧ 0x1000 % 8 = 0 ∧ populated s0 0x1000 = true ∧
    windowOf 0x1000 = .dram ∧ windowOf (2 ^ 40) = .scratch ∧ Undisturbed s0 0x1000 ∧ 64 ∉ s0.ports ∧ 64 ∈ ({ s0 with ports := [64] } : State).ports ∧
    windowOf 0x20020000010 = .control ∧ 0x20020000010 % 2 ^ 40 = 0x20000010 ∧ memoriesWf s0 ∧ ([] : List Byte).length < 64 ∧
    verifyObject s0 0 [] ≠ 1 ∧ 16 ≤ goodList.length ∧ numAt (goodList.set 0 3) 0 4 ≠ 0x00010002 ∧ 16 ≤ (goodList.set 0 3).length ∧
    numAt goodList.dropLast 0 4 = 0x00010002 ∧ ¬ GoodList goodList.dropLast ∧ GoodList goodList ∧
    (∀ n < 32, ∀ l ∈ (sGang gang0 none).stack n |>.table, l.failed = false) := by
  refine ⟨by decide, rfl, rfl, rfl, rfl, by decide, rfl, rfl, quiet_undisturbed (by decide), by decide, by decide, rfl, rfl,
    ⟨by decide, by decide, fun _ => rfl⟩, by decide, by decide, by decide, by decide, by decide, rfl, fun h => absurd h.count.2.2 (by decide), good_list, by decide⟩

/-- Bring-up in its first, its second and its last phase, with stack 31 failing in the second. -/
theorem witness_ModuleSteps :
    (let s : State := { State.reset with boot := ⟨true, false, 0, 0, 0⟩ }
     s.boot.on = true ∧ s.boot.ready = false ∧ s.boot.phase.toNat ≤ 4 ∧ s.boot.phase.toNat < 4) ∧
    (let s : State := { State.reset with boot := ⟨true, false, 1, 0, 0⟩ }
     s.boot.phase = 1 ∧ 1 ≤ s.boot.phase.toNat ∧ (0x80000000 : BitVec 32).getLsbD 31 = true ∧ s.boot.stkout.getLsbD 31 = false ∧
       (∀ n < 32, (s.stack n).excluded = false ∧ (s.stack n).fronds = []) ∧ s.fuses.defective = [] ∧ s.fuses.pairs = []) ∧
    (∀ n < 32, ∀ b < 256, (State.reset.bank (n * 256 + b)).retired = false ∧ (State.reset.bank (n * 256 + b)).gone = false) ∧
    (let s : State := { State.reset with boot := ⟨true, false, 3, 0, 0⟩, banks := (List.range 256).map (fun b => (b, { Bank.reset with retired := true })) }
     s.boot.phase = 3 ∧ s.boot.stkout.getLsbD 0 = false ∧ ∀ b < 256, (s.bank (0 * 256 + b)).retired = true) ∧
    (⟨true, false, 4, 5, 0⟩ : Boot).phase = 4 ∧ (⟨true, false, 4, 5, 0⟩ : Boot).fail = 5 ∧ (⟨true, false, 4, 0, 0⟩ : Boot).fail ≠ 5 ∧
    (engineOf (running (command 3 []) []) 0 0).run = some (command 3 []) ∧ ((running (command 3 []) []).stks.map (fun e => e.1)).contains 0 = true := by
  refine ⟨by decide, by decide, fun n _ b _ => ⟨rfl, rfl⟩, by decide +kernel, rfl, rfl, by decide, rfl, by decide⟩

/-- `addi s2, s0, 256` at the pc; a literal load of two words; a complement pair; an instruction that queues. -/
def sCode (l : List Byte) : State := { s0 with dram := memWriteN [] 0x1000 l.length (bytesToNat l) }

theorem code_held (l : List Byte) : (sCode l).xlat.find? (fun x => decide (x.cache = (sCode l).fetchAsker.cache ∧ x.root = (sCode l).thr.root ∧ x.page = 0)) = some page0F := by
  have hc : (sCode l).fetchAsker.cache = .front 0 := by
    show Cache.front (0 * 20 + feOf 0) = .front 0
    decide
  have hr : (sCode l).thr.root = 0x5000 := rfl
  have hx : (sCode l).xlat = s0.xlat := rfl
  rw [hc, hr, hx]
  decide

theorem code_at (l : List Byte) (a : Nat) (h : a = 0x1000 ∨ a = 0x1004) : CodeAt (sCode l) a page0F (bytesIn (sCode l) a 4) := by
  obtain rfl | rfl := h
  all_goals exact { range := by decide, translated := translate_held (code_held l),
                    shared := by decide, base := by decide, user := fun _ => by decide, perm := by decide,
                    window := by decide, present := fun i hi => (by
                      obtain rfl | rfl | rfl | rfl : i = 0 ∨ i = 1 ∨ i = 2 ∨ i = 3 := by omega
                      all_goals rfl), still := (bare_undisturbed ⟨rfl, rfl, rfl, rfl⟩ _).1, clean := rfl, unhashed := fun k hk => (by cases hk), word := rfl }

theorem code_words : bytesIn (sCode [0x02, 0x01, 0x00, 0x40]) 0x1000 4 = 0x40000102 ∧
    bytesIn (sCode [0x83, 0x03, 0, 0, 0x78, 0x56, 0x34, 0x12]) 0x1000 4 = 0x383 ∧ bytesIn (sCode [0x83, 0x03, 0, 0, 0x78, 0x56, 0x34, 0x12]) 0x1004 4 = 0x12345678 ∧
    bytesIn (sCode [0x30, 0x81, 0x98, 0x00, 0x30, 0x81, 0x00, 0x01]) 0x1000 4 = 0x988130 ∧
    bytesIn (sCode [0x30, 0x81, 0x98, 0x00, 0x30, 0x81, 0x00, 0x01]) 0x1004 4 = 0x1008130 := by decide

theorem instr_at (l : List Byte) (a w : Nat) (i : Instr) (h : a = 0x1000 ∨ a = 0x1004) (hw : bytesIn (sCode l) a 4 = w) (h4 : w % 4 ≠ 3)
    (hd : decodeTableWord 32 w = some i) : InstrAt (sCode l) a i :=
  ⟨page0F, w, hw ▸ code_at l a h, fun _ => hd, fun h3 => absurd h3 h4⟩

theorem witness_StepRunsDecoded :
    AtBoundary (sCode []) ∧ InstrAt (sCode [0x02, 0x01, 0x00, 0x40]) 0x1000 (.addi 2 0 256) ∧
    InstrAt (sCode [0x83, 0x03, 0, 0, 0x78, 0x56, 0x34, 0x12]) 0x1000 (.li 7 0x12345678) ∧
    (Instr.addi 2 0 256).cpFields = none ∧ Instr.addi 2 0 256 ≠ .barb ∧ Instr.addi 2 0 256 ≠ .join ∧
    InstrAt (sCode [0x30, 0x81, 0x98, 0x00, 0x30, 0x81, 0x00, 0x01]) 0x1000 (.vaddVV 2 0 1 3 true) ∧
    InstrAt (sCode [0x30, 0x81, 0x98, 0x00, 0x30, 0x81, 0x00, 0x01]) 0x1004 (.vsubVV 2 0 1 0 false) ∧
    pairOk (.vaddVV 2 0 1 3 true) (.vsubVV 2 0 1 0 false) = true ∧ queues s0Queue (.vaddVV 2 0 1 0 false) ∧ s0Queue.thr.queue.length < 64 := by
  obtain ⟨w1, w2, w3, w4, w5⟩ := code_words
  refine ⟨⟨rfl, rfl, rfl, rfl, rfl, rfl⟩, instr_at _ _ _ _ (.inl rfl) w1 (by decide) (by decide),
    ⟨page0F, _, code_at _ _ (.inl rfl), fun h => absurd (by rw [w2]) h, fun _ => ⟨page0F, _, code_at _ _ (.inr rfl), by rw [w2, w3]; decide⟩⟩, rfl,
    fun h => (by cases h), fun h => (by cases h), instr_at _ _ _ _ (.inl rfl) w4 (by decide) (by decide), instr_at _ _ _ _ (.inr rfl) w5 (by decide) (by decide),
    by decide, ⟨by decide, by decide, fun _ _ h => nomatch (congrArg (fun i => match i with | Instr.cinv _ _ => true | _ => false) h : false = true)⟩,
    by decide⟩

/-- A step that answers a next state, from reset and from a state with memory. -/
theorem witness_StepKeepsMemories :
    State.reset.memWf = true ∧ (match step State.reset with | .next _ => true | _ => false) = true ∧ (sCode [0x02, 0x01, 0x00, 0x40]).memWf = true ∧
    (match step (sCode [0x02, 0x01, 0x00, 0x40]) with | .next _ => true | _ => false) = true := by decide

end Sys2Proof.Tests
end

section
/-!
PROOFS. The permutes (09:R201-R206) where VLCFG holds a LIVE above VL, which O38 does not exclude: a mask register has 2,048 bits, each for a granule of at
most eight elements (07:R152), so that from element 16384 on `exec` finds nothing active, while O38's table, which takes m0 to govern every index, still
finds an element to write.
-/

namespace Sys2Proof.Permutes

open Sys2Proof.Machine Sys2Proof.Claims

/-! ### What m0 governs -/

theorem granule_bounds (w : Nat) : 0 < granule w ∧ granule w ≤ 8 := by
  unfold granule
  split
  · decide
  · split <;> decide

theorem maskBit_eq_getLsbD (m : MaskBits) (i : Nat) : maskBit m i = m.getLsbD i := by
  rw [maskBit, getEl, Nat.one_mul, Nat.pow_one, BitVec.getLsbD, Nat.testBit_eq_decide_div_mod_eq]

/-- No index from 16384 on is active under m0, whatever the granule. -/
theorem activeIdx_zero_eq_nil {e : VEnv} (h : 16384 ≤ e.vstart) (x : Bank) (w : Nat) : activeIdx e x 0 (granule w) = [] := by
  obtain ⟨hpos, hle⟩ := granule_bounds w
  simp only [activeIdx, List.filter_eq_nil_iff, List.mem_filter, decide_eq_true_eq]
  rintro i ⟨-, hi⟩
  have hbit : 2048 ≤ i / granule w := (Nat.le_div_iff_mul_le hpos).mpr (by omega)
  simp [maskBit_eq_getLsbD, BitVec.getLsbD_of_ge _ _ hbit]

/-- VMOVUP under m0 with VSTART at 16384 or above moves nothing. -/
theorem exec_vmovup_zero {s : State} {d a b : Fin 16} (h : 16384 ≤ (s.venv (.vmovup d a b 0) 4 0 0).vstart) :
    exec (.vmovup d a b 0) s = runPerm (s.venv (.vmovup d a b 0) 4 0 0) d a none (fun _ _ => []) s := by
  have hexec : exec (.vmovup d a b 0) s = execVmovup d a b 0 s := rfl
  rw [hexec]
  simp only [execVmovup, runMove, activeIdx_zero_eq_nil h, List.map_nil]

/-- In O38's table m0 governs every index. -/
theorem activeAt_zero {e : VEnv} {n : Nat} (h : e.vstart ≤ n) (hn : n < e.live) (x : Bank) (w : Nat) : activeAt e x 0 w n = true := by
  have hr : e.ctx.vstart.toNat ≤ n ∧ n < e.ctx.vlcfg.live.toNat := ⟨h, hn⟩
  simp [activeAt, maskOn, hr]

/-! ### What O38's table leaves of a bank -/

/-- A permute with an element to write rewrites its destination. -/
theorem permuteForm_rows {e : VEnv} {x : Bank} {i : Instr} {d a : Fin 16} {ix : Option (Fin 16)} {g : Nat → Nat → Option Nat} {f : WForm} {n : Nat}
    (hr : permuteRow e x i = some (d, a, ix, g)) (hf : permuteForm e x i = some f) (hn : n < e.live) (hg : ∀ w, (g w n).isSome = true) :
    ∃ bits, f.rows = [(d, bits)] := by
  simp only [permuteForm, hr, Option.map_some, Option.some.injEq] at hf
  subst hf
  refine ⟨_, if_neg fun hnil => ?_⟩
  obtain ⟨v, hv⟩ := Option.isSome_iff_exists.mp (hg _)
  have hn' := List.filterMap_eq_nil_iff.mp hnil n (List.mem_range.mpr hn)
  rw [hv] at hn'
  cases hn'

theorem arrived_state (k : Fin 16) : ∀ (l : List (Fin 16)) (x : Bank), ((Claims.arrived x l).w[k]).state = (x.w[k]).state
  | [], _ => rfl
  | j :: l, x => by
    refine (arrived_state k l _).trans ?_
    by_cases hj : j.val = k.val
    · obtain rfl := Fin.ext hj
      exact (congrArg WReg.state (Vector.getElem_set_self j.isLt)).trans rfl
    · exact congrArg WReg.state (Vector.getElem_set_ne j.isLt k.isLt hj)

/-- The row written becomes dirty where it was held clean (04:R85). -/
theorem committed_state {f : WForm} {x : Bank} {d : Fin 16} {bits : RowBits} (hrows : f.rows = [(d, bits)]) (hx : (x.w[d]).state = .heldClean) :
    ((f.committed x).w[d]).state = .heldDirty := by
  have hs : ((Claims.arrived x f.regs).w[d]).state = .heldClean := (arrived_state d f.regs x).trans hx
  rw [Fin.getElem_fin] at hs
  simp only [WForm.committed, hrows, List.foldl_cons, List.foldl_nil, rewritten, Fin.getElem_fin, Vector.getElem_set_self, hs]

theorem bank_poisonCleared (done : Nat → Bool) (s : State) (b : Nat) : (poisonCleared done s).bank b = s.bank b := by
  unfold poisonCleared
  split
  · exact bank_setFront s _ b
  · rfl

theorem bank_vectorDone (s u : State) (n b : Nat) : (vectorDone s n u).bank b = u.bank b := by
  unfold vectorDone
  split <;> simp [State.bank, withFront]

/-! ### The counterexample -/

/-- A control thread that owns bank 0 of its frond, with VL = 2048, LIVE = 16385 and VSTART = 16384; register 1 of the bank is bound, clean and writable. -/
def liveBeyondVl : State :=
  { State.reset with
    thr := { Thread.reset with bmask := 1, bpart := ⟨1, 1, 1, 0⟩, cond := .running,
                               front := { Front.reset with vlcfg := ⟨16385, 2048, 0, 0⟩, vstart := 16384 } }
    stks := [(0, { Stack.reset with fronds := [⟨0, 3, 0, false, 0, 0, 0, false, false, 16⟩] })]
    banks := [(0, { Bank.reset with w := Bank.reset.w.set 1 { WReg.reset with state := .heldClean, writable := true } })] }

/-- VMOVUP w1, w2, x0 under m0. -/
def moveAll : Instr := .vmovup 1 2 0 0

/-- What `moveAll` runs with there. -/
def moveEnv : VEnv := liveBeyondVl.venv moveAll 4 0 0

theorem moveAll_len : moveAll.len = 4 := by decide

theorem moveEnv_banks : moveEnv.banks = [(0, 0)] := by decide

theorem moveEnv_vstart : moveEnv.vstart = 16384 := rfl

theorem liveBeyondVl_poison (k : Fin 16) : ((liveBeyondVl.bank 0).w[k]).poison = 0 := by
  change ((Bank.reset.w.set 1 _)[k.val]).poison = 0
  rw [Vector.getElem_set]
  split
  · rfl
  · simp only [Bank.reset, Vector.getElem_replicate, WReg.reset]

theorem liveBeyondVl_atRest : AtRest liveBeyondVl moveEnv.banks := by
  rw [moveEnv_banks]
  refine ⟨rfl, .inl rfl, rfl, fun _ h => (nomatch h), fun q hq => ?_, fun q hq p hp => ?_⟩
  · obtain rfl := List.mem_singleton.mp hq
    intro k
    exact liveBeyondVl_poison k
  · obtain rfl := List.mem_singleton.mp hq
    have hnil : (liveBeyondVl.bank 0).pend = [] := rfl
    exact nomatch hnil ▸ hp

/-- `exec` writes nothing: the register stays clean. -/
theorem exec_moveAll : ∃ t, exec moveAll liveBeyondVl = .next t ∧ ((t.bank 0).w[1]).state = .heldClean := by
  rw [moveAll, exec_vmovup_zero (Nat.le_of_eq moveEnv_vstart.symm)]
  exact ⟨_, rfl, rfl⟩

/-- O38's table has element 16384 written. -/
theorem permuteForm_moveAll :
    ∃ f bits, permuteForm moveEnv (liveBeyondVl.bank 0) moveAll = some f ∧ f.ok = true ∧ f.rows = [(1, bits)] := by
  obtain ⟨f, hf⟩ : ∃ f, permuteForm moveEnv (liveBeyondVl.bank 0) moveAll = some f := ⟨_, rfl⟩
  have hok : (permuteForm moveEnv (liveBeyondVl.bank 0) moveAll).map WForm.ok = some true := by decide
  obtain ⟨bits, hrows⟩ := permuteForm_rows (n := 16384) rfl hf (by decide) fun w => by
    rw [if_pos (activeAt_zero (Nat.le_of_eq moveEnv_vstart) (by decide) _ w)]; rfl
  exact ⟨f, bits, hf, by simpa [hf] using hok, hrows⟩

/-- Refutes O38: the statement does not ask that LIVE ≤ VL (07:R149). With LIVE = 16385 and VSTART = 16384, VMOVUP under m0 has no active element in
`exec`, where m0 has 2,048 bits, and leaves its destination clean; the statement counts index 16384 as active, takes the destination as rewritten, and has
it dirty. -/
theorem not_permuteResults : ¬ Obligations.PermuteResults := by
  unfold Obligations.PermuteResults wholesCommit
  intro h
  obtain ⟨f, bits, hf, hok, hrows⟩ := permuteForm_moveAll
  obtain ⟨t, ht, hclean⟩ := exec_moveAll
  have hforms : ∀ q ∈ moveEnv.banks, permuteForm moveEnv (liveBeyondVl.bank q.2) moveAll = some f ∧ f.ok = true := by
    rw [moveEnv_banks]
    intro q hq
    obtain rfl := List.mem_singleton.mp hq
    exact ⟨hf, hok⟩
  specialize h liveBeyondVl moveAll (fun _ => f)
  rw [moveAll_len] at h
  obtain ⟨done, hd⟩ := h ⟨liveBeyondVl.bank 0, congrArg Option.isSome hf⟩ liveBeyondVl_atRest hforms
  have ht' := Host.Outcome.next.inj (ht.symm.trans hd)
  have hdirty : ((t.bank 0).w[1]).state = .heldDirty := by
    rw [ht', bank_vectorDone, if_neg (by decide), bank_poisonCleared]
    change ((State.bank (overBanks _ moveEnv.banks _) 0).w[1]).state = _
    rw [moveEnv_banks]
    simp only [overBanks, List.foldl_cons, List.foldl_nil, bank_setBank_same]
    exact committed_state hrows rfl
  rw [hclean] at hdirty
  cases hdirty

end Sys2Proof.Permutes
end

section
/-!
PROOFS. The QUEUE instructions (13:R304-R307) on the FIFOs of the running thread's two queues.
-/

namespace Sys2Proof.Queues

open Sys2Proof.Machine Sys2Proof.Claims

/-! ### A release with nothing to wait for -/

theorem landAll_eq_self {s : State} {tid : Nat} (h : ∀ d ∈ s.stores, d.tid ≠ tid) : landAll s tid = s :=
  if_neg (by simpa using h)

theorem flushFrom_eq_self {s : State} {mine : Posted → Bool} (h : ∀ p ∈ s.posted, mine p = false) : ∀ n pos, flushFrom s mine n pos = s
  | 0, _ => rfl
  | n + 1, pos => by
    unfold flushFrom
    split
    · rfl
    · next p hp => rw [h p (List.mem_of_getElem? hp), if_neg Bool.false_ne_true, flushFrom_eq_self h n]

theorem flushPosted_eq_self {s : State} {tid : Nat} (h : ∀ p ∈ s.posted, p.thread ≠ tid) : flushPosted s tid = s :=
  flushFrom_eq_self (fun p hp => by simp [h p hp]) _ _

theorem flushBank_eq_self {s : State} {tid : Nat} (h : ∀ p ∈ s.posted, p.thread ≠ tid) (b : Nat) : flushBank s tid b = s :=
  flushFrom_eq_self (fun p hp => by simp [h p hp]) _ _

/-- Where all that a release waits for is done, it goes on at once, on a control thread and in a bank thread. -/
theorem released_of_releasable {s : State} (h : releasable s) (k : State → Out) : released k s = k s := by
  obtain ⟨hqueue, hposted, hstores⟩ := h
  rw [released, hqueue, if_neg Bool.false_ne_true]
  split
  · rw [landAll_eq_self hstores, flushPosted_eq_self hposted]
  · rw [flushBank_eq_self hposted]

/-! ### The model's accessors and those of the statement -/

theorem dataResOk_of_dataResidueOk {a : SReg} (h : dataResidueOk a) : dataResOk a = true := by
  obtain ⟨hvalid, hres⟩ := h
  have hrho : a.res = rho a.val := by rw [rho, ← hres, BitVec.ofNat_toNat, BitVec.setWidth_eq]
  rw [dataResOk, ← hrho, decide_eq_true hvalid, decide_eq_true rfl, Bool.and_self]

theorem ownQueue_eq_ownEngine (s : State) : ∀ q, ownQueue s q = ownEngine s q
  | true => rfl
  | false => rfl

theorem results_eq_resultsOf (s : State) : ∀ q, s.thr.results[qIdx q] = resultsOf s q
  | true => rfl
  | false => rfl

theorem withResults_eq (s : State) (l : List Word) : ∀ q,
    ({ s with thr := { s.thr with results := s.thr.results.set (qIdx q) l } } : State) = withResults s q l
  | true => rfl
  | false => rfl

theorem writeV_eq (n : Nat) (d : Fin 64) (v : Word) (s : State) : writeV n d v s = .next (complete n (s.setS d (formed v))) := rfl

/-! ### QPUSH -/

theorem exec_qpush (a : Fin 64) (q : Bool) (s : State) : exec (.qpush a q) s = execQpush a q s := rfl

/-- QPUSH: a full FIFO leaves the state as it stands; else the word stands last in it, whether or not it completes a command. -/
theorem execQpush_eq {s : State} {a : Fin 64} {i : TaskInfo} (q : Bool) (hi : s.thr.task = some i) (ha : dataResidueOk (s.getS a))
    (hs : releasable s) :
    let n := ownEngine s q
    let e := s.engq s.cur.st n
    execQpush a q s = .next (if 32 ≤ e.fifo.length then s
      else complete 4 (s.setEngq s.cur.st n { e with fifo := e.fifo ++ [(s.sval a, ⟨i.id, i.root, s.level⟩)] })) := by
  intro n e
  simp only [execQpush, dataResOk_of_dataResidueOk ha, hi, ownQueue_eq_ownEngine, released_of_releasable hs, ite_self, Bool.not_true,
    if_neg Bool.false_ne_true]
  exact (apply_ite Host.Outcome.next _ _ _).symm

/-! ### QPOP and QPOP.NB -/

theorem exec_qpop (d : Fin 64) (q : Bool) (s : State) : exec (.qpop d q) s = execQpop d q s := rfl

theorem exec_qpopNB (d : Fin 64) (q : Bool) (s : State) : exec (.qpopNB d q) s = execQpopNB d q s := rfl

theorem deliverHeld_of_none {s : State} {st : Nat} {q : Fin 64} (h : (s.engq st q).held = none) : deliverHeld s st q = s := by
  rw [deliverHeld, h]

/-- With no result held back, a pop takes the oldest word and delivers nothing. -/
theorem popResult_eq {s : State} {d : Fin 64} {q : Bool} {w : Word} {r : List Word} (hheld : (engineOf s s.cur.st (ownEngine s q)).held = none)
    (hres : resultsOf s q = w :: r) : popResult d q w s = .next (complete 4 ((withResults s q r).setS d (formed w))) := by
  have hdrop : s.thr.results[qIdx q].drop 1 = r := by rw [results_eq_resultsOf, hres]; rfl
  rw [popResult, hdrop, withResults_eq, writeV_eq, deliverHeld_of_none]
  rw [← ownQueue_eq_ownEngine] at hheld
  exact hheld

/-! ### QSTAT -/

theorem exec_qstat (d : Fin 64) (q : Bool) (s : State) : exec (.qstat d q) s = execQstat d q s := rfl

/-- Settles O25: a release with nothing to wait for leaves the state as it stands, and so does the delivery of a result that is not held back. -/
theorem queueInstructions : Obligations.QueueInstructions := by
  unfold Obligations.QueueInstructions
  intro s q n e
  refine ⟨fun a i hi ha hs => ?qpush, fun d hheld => ?qpop, fun d hheld => ?qpopNB, fun d => ?qstat⟩
  case qpush => exact (exec_qpush a q s).trans (execQpush_eq q hi ha hs)
  case qpop =>
    rw [exec_qpop, execQpop, results_eq_resultsOf]
    cases hres : resultsOf s q with
    | nil => rfl
    | cons w r => exact popResult_eq hheld hres
  case qpopNB =>
    rw [exec_qpopNB, execQpopNB, results_eq_resultsOf]
    cases hres : resultsOf s q with
    | nil => rfl
    | cons w r => exact popResult_eq hheld hres
  case qstat =>
    rw [exec_qstat, execQstat, results_eq_resultsOf, ownQueue_eq_ownEngine]
    rfl

end Sys2Proof.Queues
end

section
/-!
PROOFS. The loop stack (15:R345-R347): what falling through and a jump do to it, and LOOP, the branches and the jumps that go by it.
-/

namespace Sys2Proof.Loops

open Sys2Proof.Machine Sys2Proof.Claims

/-! ### The depth of the loop stack -/

theorem depth_le_four (f : Front) : f.depth ≤ 4 := by
  unfold Front.depth
  repeat' split
  all_goals decide

/-- The levels from the depth on are not active. -/
theorem depth_le_iff (f : Front) (n : Nat) : f.depth ≤ n ↔ ∀ k : Fin 4, n ≤ k.val → f.loops[k].v = false := by
  simp only [Fin.forall_fin_succ]
  unfold Front.depth
  repeat' split
  all_goals grind

theorem lvl4_depth_sub_one {f : Front} (h : f.depth ≠ 0) : (lvl4 (f.depth - 1)).val + 1 = f.depth := by
  have hle := depth_le_four f
  simp only [lvl4]
  omega

/-- Ending the innermost level lowers the depth: no level above it is active. -/
theorem depth_dropLevel_le {f : Front} {n : Nat} (h : f.depth ≠ 0) (hn : f.depth ≤ n + 1) : (dropLevel f).depth ≤ n := by
  have htop := lvl4_depth_sub_one h
  refine (depth_le_iff _ _).mpr fun k hk => ?_
  by_cases hkd : lvl4 (f.depth - 1) = k
  · simp [dropLevel, hkd]
  · have hne : (lvl4 (f.depth - 1)).val ≠ k.val := Fin.val_ne_of_ne hkd
    have habove := (depth_le_iff f f.depth).mp (Nat.le_refl _) k (by omega)
    simpa [dropLevel, Vector.getElem_set_ne _ _ hne] using habove

/-! ### Falling through (15:R346) -/

theorem loopBack_of_stop {f : Front} {q : Word} (h : f.depth = 0 ∨ q.toNat ≠ (topLevel f).endAddr) :
    ∀ n, f.loopBack q n = { f with pc := q }
  | 0 => rfl
  | n + 1 => by
    unfold Front.loopBack
    rcases h with hd | hq
    · exact if_pos hd
    · exact (ite_congr rfl (fun _ => rfl) fun _ => if_pos hq).trans (ite_self _)

theorem loopBack_of_pass {f : Front} {q : Word} (hd : f.depth ≠ 0) (hq : q.toNat = (topLevel f).endAddr) (hc : 1 < (topLevel f).count.toNat) (n : Nat) :
    f.loopBack q (n + 1) = { f with pc := BitVec.ofNat 64 (topLevel f).startAddr,
                                    loops := f.loops.set (lvl4 (f.depth - 1)) { topLevel f with count := (topLevel f).count - 1 } } := by
  unfold Front.loopBack
  exact (if_neg hd).trans ((if_neg (not_not_intro hq)).trans (if_pos hc))

theorem loopBack_of_last {f : Front} {q : Word} (hd : f.depth ≠ 0) (hq : q.toNat = (topLevel f).endAddr) (hc : (topLevel f).count.toNat ≤ 1) (n : Nat) :
    f.loopBack q (n + 1) = (dropLevel f).loopBack q n := by
  rw [Front.loopBack]
  exact (if_neg hd).trans ((if_neg (not_not_intro hq)).trans (if_neg (Nat.not_lt.mpr hc)))

/-- A fuel of the depth is enough: each level that ends lowers it. -/
theorem loopBack_succ_of_depth_le (q : Word) : ∀ (n : Nat) (f : Front), f.depth ≤ n → f.loopBack q (n + 1) = f.loopBack q n := by
  intro n
  induction n with
  | zero => exact fun f h => loopBack_of_stop (.inl (Nat.le_zero.mp h)) 1
  | succ n ih =>
    intro f h
    by_cases hstop : f.depth = 0 ∨ q.toNat ≠ (topLevel f).endAddr
    · rw [loopBack_of_stop hstop, loopBack_of_stop hstop]
    obtain ⟨hd, hq⟩ := not_or.mp hstop
    replace hq := Decidable.not_not.mp hq
    by_cases hc : 1 < (topLevel f).count.toNat
    · rw [loopBack_of_pass hd hq hc, loopBack_of_pass hd hq hc]
    · have hlast := Nat.not_lt.mp hc
      rw [loopBack_of_last hd hq hlast, loopBack_of_last hd hq hlast, ih]
      exact depth_dropLevel_le hd h

/-- Where the last pass of the innermost level ends, the test repeats for the next level. -/
theorem fallTo_of_last {f : Front} {q : Word} (hd : f.depth ≠ 0) (hq : q.toNat = (topLevel f).endAddr) (hc : (topLevel f).count.toNat ≤ 1) :
    f.fallTo q = (dropLevel f).fallTo q :=
  (loopBack_of_last hd hq hc 4).trans (loopBack_succ_of_depth_le q 4 _ (depth_le_four _)).symm

/-! ### Leaving levels by a jump (15:R347) -/

/-- An address in the body of a level. -/
def InBody (l : LoopLevel) (a : Nat) : Prop := l.startAddr ≤ a ∧ a < l.endAddr

/-- A jump from `a` to `t` leaves the innermost level. -/
def Leaves (f : Front) (a t : Nat) : Prop := f.depth ≠ 0 ∧ InBody (topLevel f) a ∧ ¬ InBody (topLevel f) t

/-- The test of `Front.leave` on the innermost level. -/
theorem leave_test_iff (l : LoopLevel) (a t : Nat) :
    (l.startAddr ≤ a ∧ a < l.endAddr ∧ (!(decide (l.startAddr ≤ t) && decide (t < l.endAddr))) = true) ↔ InBody l a ∧ ¬ InBody l t := by
  have htarget : (!(decide (l.startAddr ≤ t) && decide (t < l.endAddr))) = true ↔ ¬ InBody l t := by
    rw [Bool.not_eq_true', ← Bool.not_eq_true, Bool.and_eq_true, decide_eq_true_iff, decide_eq_true_iff, InBody]
  rw [htarget, ← and_assoc]
  rfl

theorem leave_of_not_leaves {f : Front} {a t : Nat} (h : ¬ Leaves f a t) : ∀ n, f.leave a t n = f
  | 0 => rfl
  | n + 1 => by
    unfold Front.leave
    refine (ite_congr rfl (fun _ => rfl) fun hd => if_neg fun htest => ?_).trans (ite_self _)
    exact h ⟨hd, (leave_test_iff _ a t).mp htest⟩

theorem leave_of_leaves {f : Front} {a t : Nat} (h : Leaves f a t) (n : Nat) : f.leave a t (n + 1) = (dropLevel f).leave a t n := by
  obtain ⟨hd, hbodies⟩ := h
  rw [Front.leave]
  exact (if_neg hd).trans (if_pos ((leave_test_iff _ a t).mpr hbodies))

theorem leave_succ_of_depth_le (a t : Nat) : ∀ (n : Nat) (f : Front), f.depth ≤ n → f.leave a t (n + 1) = f.leave a t n := by
  intro n
  induction n with
  | zero => exact fun f h => leave_of_not_leaves (fun hl => hl.1 (Nat.le_zero.mp h)) 1
  | succ n ih =>
    intro f h
    by_cases hl : Leaves f a t
    · rw [leave_of_leaves hl, leave_of_leaves hl, ih]
      exact depth_dropLevel_le hl.1 h
    · rw [leave_of_not_leaves hl, leave_of_not_leaves hl]

theorem jumpTo_of_not_leaves {f : Front} {t : Word} (h : ¬ Leaves f f.pc.toNat t.toNat) : f.jumpTo t = { f with pc := t } := by
  rw [Front.jumpTo, leave_of_not_leaves h]

/-- A jump out of the innermost level ends it and is tested again on the next. -/
theorem jumpTo_of_leaves {f : Front} {t : Word} (h : Leaves f f.pc.toNat t.toNat) : f.jumpTo t = (dropLevel f).jumpTo t := by
  have hdepth : (dropLevel f).depth ≤ 3 := depth_dropLevel_le h.1 (depth_le_four f)
  rw [Front.jumpTo, leave_of_leaves h, ← leave_succ_of_depth_le _ _ 3 _ hdepth]
  rfl

/-! ### Targets -/

theorem pc_add_signExtend_shiftLeft (s : State) {w : Nat} (o : BitVec w) : s.front.pc + (o.signExtend 64 <<< 2) = target s o.toInt := by
  have hshift : o.signExtend 64 <<< 2 = 4 * o.signExtend 64 := by
    rw [BitVec.shiftLeft_eq_mul_twoPow, BitVec.mul_comm]; rfl
  rw [hshift, target, BitVec.ofInt_add, BitVec.ofInt_mul, BitVec.ofInt_natCast, BitVec.ofNat_toNat, BitVec.setWidth_eq]
  rfl

theorem add_signExtend (v : Word) {w : Nat} (i : BitVec w) : v + i.signExtend 64 = BitVec.ofInt 64 (v.toInt + i.toInt) := by
  rw [BitVec.ofInt_add, BitVec.ofInt_toInt]
  rfl

/-- An address that passes the statement's residue check passes the model's (15:R355). -/
theorem addrResOk_of_addressResidueOk {a : SReg} {imm : Word} (h : addressResidueOk a imm) : addrResOk a imm = true := by
  obtain ⟨hvalid, hsum⟩ := h
  have hrho (v : Word) : (rho v).toNat = v.toNat % 15 := by
    rw [rho, BitVec.toNat_ofNat, Nat.mod_eq_of_lt (by omega)]
  simp only [addrResOk, Bool.and_eq_true, decide_eq_true_eq, hrho]
  refine ⟨hvalid, ?_⟩
  split at hsum <;> split <;> omega

/-! ### A control thread's front end and its traps -/

theorem front_of_control {s : State} (h : s.cur.bank = none) : s.front = s.thr.front := by rw [State.front, h]

/-- Bits [51:2] of an address, as TRAPPC holds them. -/
theorem ofNat_fieldOf_51_2 (a : Word) : BitVec.ofNat 50 (fieldOf a 51 2) = BitVec.ofNat 50 (a.toNat / 4) :=
  BitVec.eq_of_toNat_eq (by simp [fieldOf])

theorem trap_of_trapping {s : State} (h : Trapping s) (cause : BitVec 8) (val : Word) : trap cause val s = .next (entered s cause val s.front.pc) := by
  obtain ⟨hbank, -, hqueue, hbusy⟩ := h
  have hcur : ({ s.cur with bank := none } : Cur) = s.cur := by rw [← hbank]
  have hdrain : s.mustDrain = false := by rw [State.mustDrain, hqueue, List.isEmpty_nil, Bool.not_true, Bool.and_false]
  simp only [trap, trapScalar, hbank, hdrain, enterTrap, hbusy, entered, ofNat_fieldOf_51_2, hcur]
  rfl

/-! ### LOOP (15:R345) -/

theorem exec_loop (c : Fin 64) (o : BitVec 19) (s : State) : exec (.loop c o) s = execLoop c o s := rfl

theorem fieldOf_31_0 (w : Word) : fieldOf w 31 0 = w.toNat % 2 ^ 32 := by
  rw [fieldOf, Nat.pow_zero, Nat.div_one]

/-- Settles O7: the statement's end address and count are those that `execLoop` computes, and its cases are the branches of `execLoop`. -/
theorem loopPushes : Obligations.LoopPushes := by
  unfold Obligations.LoopPushes
  refine ⟨fun s c o hs h => ?illegal, fun s c o ho he => ?legal⟩
  case illegal =>
    rw [← pc_add_signExtend_shiftLeft] at h
    have hillegal : execLoop c o s = illegal (.loop c o) s := if_pos h
    rw [exec_loop, hillegal]
    exact trap_of_trapping hs _ _
  case legal =>
    have hlegal : ¬ (o.toInt < 2 ∨ fieldOf (target s o.toInt) 51 32 ≠ fieldOf (s.front.pc + 4) 51 32) :=
      not_or.mpr ⟨Int.not_lt.mpr ho, not_not_intro he⟩
    simp only [exec_loop, execLoop, pc_add_signExtend_shiftLeft, if_neg hlegal, fieldOf_31_0, Nat.pos_iff_ne_zero]
    rfl

/-- Settles O8: a fuel of 4 is enough for what is left once the innermost level has ended. -/
theorem fallThroughLoops : Obligations.FallThroughLoops := by
  unfold Obligations.FallThroughLoops
  refine ⟨fun f q => ⟨fun h => loopBack_of_stop h 5, fun hd hq hc => loopBack_of_pass hd hq hc 4, fallTo_of_last⟩,
    fun n s hs => ?_, fun s c o ho he hn => (loopPushes.2 s c o ho he).trans (if_pos hn)⟩
  have hcontrol : (complete n s).cur.bank = none := by rw [complete_cur, hs]
  rw [← front_of_control hs, ← front_of_control hcontrol, front_complete, hs]
  rfl

/-! ### Branches and jumps (15:R342, R343, R347) -/

theorem branchIf_eq (c : Bool) (o : BitVec 10) (s : State) :
    branchIf c o s = if c then toTarget (target s o.toInt) (jump (target s o.toInt)) s else done 4 s := by
  rw [branchIf, pc_add_signExtend_shiftLeft]

theorem exec_of_branchRow {s : State} {i : Instr} {c : Bool} {off : Int} (h : branchRow s i = some (c, off)) :
    exec i s = if c then toTarget (target s off) (jump (target s off)) s else done 4 s := by
  unfold branchRow at h
  split at h
  case h_7 => cases h
  all_goals
    obtain ⟨rfl, rfl⟩ := Prod.mk.inj (Option.some.inj h)
    exact branchIf_eq _ _ s

theorem exec_of_jumpRow {s : State} {i : Instr} {d : Fin 64} {a : Word} (h : jumpRow s i = some (d, a)) (hres : jumpResidueOk s i) :
    exec i s = linkTo d a s := by
  unfold jumpRow at h
  split at h
  case h_1 d o =>
    obtain ⟨rfl, rfl⟩ := Prod.mk.inj (Option.some.inj h)
    rw [← pc_add_signExtend_shiftLeft]
    rfl
  case h_2 d r imm =>
    obtain ⟨rfl, rfl⟩ := Prod.mk.inj (Option.some.inj h)
    have hcheck : addrResOk (s.getS r) (imm.signExtend 64) = true := addrResOk_of_addressResidueOk hres
    rw [← add_signExtend]
    exact if_neg (by rw [hcheck]; decide)
  case h_3 => cases h

/-- An aligned target is gone to. -/
theorem toTarget_of_aligned {t : Word} (h : t.toNat % 4 = 0) (go : State → Out) (s : State) : toTarget t go s = go s :=
  if_neg (not_not_intro h)

/-! ### The loop stack a control thread is left with -/

theorem thr_front_setS (s : State) (d : Fin 64) (v : SReg) : (s.setS d v).thr.front = s.thr.front := by
  unfold State.setS
  split
  · split <;> rfl
  · rfl

theorem loops_retire_setFront {s : State} (h : s.cur.bank = none) (f : Front) : (s.setFront f).retire.thr.front.loops = f.loops := by
  have hcur : (s.setFront f).retire.cur.bank = none := by rw [retire_cur, setFront_cur, h]
  rw [← front_of_control hcur, front_retire, front_setFront, setFront_cur, h]
  rfl

theorem loops_jump {s : State} (h : s.cur.bank = none) (t : Word) :
    ∃ u : State, jump t s = .next u ∧ u.thr.front.loops = (s.thr.front.jumpTo t).loops :=
  ⟨_, rfl, by rw [loops_retire_setFront h, front_of_control h]⟩

theorem loops_jumpLink {s : State} (h : s.cur.bank = none) (t : Word) :
    ∃ u : State, jumpLink t s = .next u ∧ u.thr.front.loops = s.thr.front.loops :=
  ⟨_, rfl, by rw [loops_retire_setFront h, front_of_control h]⟩

theorem loops_linkTo {s : State} (h : s.cur.bank = none) (d : Fin 64) {t : Word} (ht : t.toNat % 4 = 0) :
    ∃ u : State, linkTo d t s = .next u ∧ u.thr.front.loops = if d = 0 then (s.thr.front.jumpTo t).loops else s.thr.front.loops := by
  have hlinked : (s.setV d (s.front.pc + 4)).cur.bank = none := by rw [State.setV, setS_cur, h]
  simp only [linkTo, toTarget_of_aligned ht]
  split
  · simpa only [State.setV, thr_front_setS] using loops_jump hlinked t
  · simpa only [State.setV, thr_front_setS] using loops_jumpLink hlinked t

/-- Settles O9: the test that `Front.leave` makes of each level; a fuel of 3 is enough for what is left once the innermost has ended. -/
theorem jumpEndsLoops : Obligations.JumpEndsLoops := by
  unfold Obligations.JumpEndsLoops
  refine ⟨fun f t => ⟨jumpTo_of_leaves, jumpTo_of_not_leaves⟩, fun s i hs => ⟨fun off h ht => ?branch, fun d a h hres ha => ?jump⟩⟩
  case branch =>
    rw [exec_of_branchRow h, if_pos rfl, toTarget_of_aligned ht]
    exact loops_jump hs _
  case jump =>
    rw [exec_of_jumpRow h hres]
    exact loops_linkTo hs d ha

end Sys2Proof.Loops
end
